-- ==== Sys2Proof/Word.lean ====
section
/-! DEFINITION. Words, bytes and the sparse tables in which the model keeps everything that is indexed by an address
or an instance number. -/
namespace Sys2Proof

/-- A CSR word (R498). -/
abbrev Word := BitVec 32

/-- A byte of a record, a frame or a memory. -/
abbrev Byte := BitVec 8

/-- A sparse table: keys strictly rising, and no key listed with the value that an unlisted key reads as. -/
abbrev Table (α : Type) := List (Nat × α)

end Sys2Proof
end

