-- ==== Sys2Proof/Syntax.lean ====
section
/-! DEFINITION. The commands of the block: one constructor for each row of the table of operations and events.  An
operand carries what the world outside the digital block contributes to the step: the word written and the interface it
came by, a measured level, a received record, the instance concerned. -/
namespace Sys2Proof

/-- The interfaces of R424. -/
inductive Iface where
  | mgt | h0 | h1 | fabric | module
  deriving DecidableEq, Repr

/-- The interface id of R424. -/
def Iface.id : Iface → Nat
  | .mgt => 0 | .h0 => 1 | .h1 => 2 | .fabric => 3 | .module => 4

/-- ADC words of a line port in a row (R31), oldest first, and the stamp of the last one. -/
structure AdcRun where
  words : List (BitVec 14)
  last : Nat
  deriving DecidableEq, Repr

/-- One input sample of a filter chain (R53, R54, R69): its real and imaginary part as 18-bit words, its settled bit and its
stamp.  A port's ADC word occupies bits 17 to 4. -/
structure ChainIn where
  re : BitVec 18
  im : BitVec 18
  settled : Bool
  stamp : Nat
  deriving DecidableEq, Repr

/-- What a reply tells of the meter's phase: the reported delay in µs and the tick at which the poll's last sync-word
symbol ended (R167), or the sync SNRs of a triple's members in 0.25 dB (R170). -/
inductive PhaseRep where
  | delay (d : BitVec 16) (s : Nat)
  | triple (snr0 snr1 snr2 : Int)
  deriving DecidableEq, Repr

/-- What one self-test step shows (R469 to R481): whether service asks for a suspension at its boundary, whether the saved
segment could not be restored, the signature when the run is complete, the segments whose march failed, and, for a coefficient
memory that is loaded again, the words (index, value). -/
structure TestObs where
  suspend : Bool
  restoreBad : Bool
  sig : BitVec 64
  segs : List Nat
  coefs : List (BitVec 16 × BitVec 18)
  deriving DecidableEq, Repr

/-- What the quick self-test shows of one target (R473): the signatures of the run and of its repeat, whether the time ran out
first, and the segments whose march failed. -/
structure QuickObs where
  sig : BitVec 64
  again : BitVec 64
  short : Bool
  segs : List Nat
  deriving DecidableEq, Repr

/-- What a peer's HELLO said (R368): serial, role, versions, stored key index, fingerprint, `OWN_TERM`, Splice role. -/
structure HelloS where
  serial : Nat
  role : Nat
  vers : Nat
  keyIdx : Nat
  fp : Nat
  term : Nat
  state : Nat
  deriving DecidableEq, Repr

/-- An entry of a WALK (R386): serial, preferred and fixed id, the versions of its ports, whether it may be time master, and its
PPS lock. -/
structure WalkE where
  serial : Nat
  pref : Option Nat
  fixed : Option Nat
  verE : Nat
  verW : Nat
  eligible : Bool
  pps : Bool
  deriving DecidableEq, Repr

/-- A node as TOPOLOGY describes it (R386): serial, node id, ring position. -/
structure NodeE where
  serial : Nat
  id : Nat
  pos : Nat
  deriving DecidableEq, Repr

/-- The header of a Braid message as a port receives it (R366, R383): the port (0 east, 1 west), the frame's `LF_SEQ`, and the
header fields. -/
structure BHdr where
  port : Fin 2
  seq : Nat
  bcast : Bool
  wrapped : Bool
  dst : BitVec 6
  src : BitVec 6
  hops : BitVec 7
  bseq : BitVec 16
  deriving DecidableEq, Repr

/-- A member of a mirrored round (R379): its session, class, request code and attempt, its ports, and the ticks between which
they transmit. -/
structure PlanMember where
  session : BitVec 16
  cls : Fin 5
  request : Fin 8
  attempt : Fin 16
  ports : List (Fin 144)
  t0 : Nat
  t1 : Nat
  deriving DecidableEq, Repr
/-- The commands: one constructor for each row of the table of operations and events. -/
inductive Instr where
  /-- POWER_RESET (R443).  VIN rises above the rising threshold after being below UVLO: a POWER reset clears the log, starts the time base at 0 and drives CX_PERST_N low. -/
  | powerReset
  /-- VIN_UVLO_FALL (R444).  VIN falls through the UVLO threshold: hold-up finishes any Vault write in progress, PWR_GOOD falls, the Bight closes and outputs go to their reset states. -/
  | vinUvloFall
  /-- PIN_RESET (R443).  RESET_N is held low for 1 µs or more: a PIN reset keeps the time base, log and Vault and resets all other state. -/
  | pinReset
  /-- SOFT_RESET (R511).  A write of GLB_RESET with KEY 0x5A and SOFT = 1 flushes the open write-log entries and starts a SOFT reset 1 µs later. -/
  | softReset
  /-- START_UP (R447).  At the reference edge T_R the PROF pins are sampled, a profile is selected and the Capstan cores leave reset. -/
  | startUp (pins : Fin 4)
  /-- PERST_RELEASE (R446).  After PERST_MIN ms since PWR_GOOD rose, and 1 ms of CXCLK, CX_PERST_N rises. -/
  | perstRelease
  /-- PLL_LOCKED (R447).  The REFCLK PLL locks, the time base runs from REFCLK and the image read begins. -/
  | pllLocked
  /-- IMAGE_LOAD_DONE (R452).  The last image byte has been read, checked and applied; the loader commits every block, sets READY and starts Halyard, Splice and Braid, or falls back to the alternate image. -/
  | imageLoadDone (image : Option (List Byte))
  /-- QUICK_SELF_TEST (R473).  Start-up step 5 runs every self-test target within 50 ms and records the failures in BST_QUICK_FAIL. -/
  | quickSelfTest (obs : List QuickObs)
  /-- START_DONE (R447).  Session restore ends: enabled ports enter WATCH, every chain restarts, the superframe starts if RUN is set, and EV000 is raised. -/
  | startDone
  /-- HEADEND_WAIT_EXPIRY (R252).  HEADEND_WAIT passes, so class 4 resumes and association uses FREE slots only. -/
  | headendWaitExpiry
  /-- REFCLK_LOST (R456).  No REFCLK_IN edge arrives for 1 µs: the PLL domains stop, the fallback oscillator runs, an all-zero enable word is shifted, rounds end LOST and the links go down. -/
  | refclkLost
  /-- PLL_UNLOCK (R456).  The PLL loses lock while REFCLK is present, with the same responses as REFCLK loss. -/
  | pllUnlock
  /-- PLL_RELOCK (R456).  The PLL has been relocked for 10 ms: the domains restart as after a wake and a pair member claims. -/
  | pllRelock (prev : Option (List Byte))
  /-- XT32_CHECK (R457).  The once-per-second comparison of the crystal with REFCLK; a crystal out of tolerance or stopped raises EV007. -/
  | xt32Check (ok : Bool)
  /-- PPS_EDGE (R459).  An accepted PPS_IN rising edge gives a discipline sample that steps or slews the time base and advances PPS lock. -/
  | ppsEdge
  /-- PPS_LOST (R460).  No PPS edge arrives within 1.5 s of the expected one, so the PPS is lost and EV009 is raised. -/
  | ppsLost
  /-- PPS_OUT_PULSE (R460).  The time base reaches a multiple of 38,400,000 ticks and PPS_OUT goes high for WIDTH_MS. -/
  | ppsOutPulse
  /-- CLK_COMMIT (R467).  A write of CLK_COMMIT checks the CLK shadows and applies them at the next discipline sample. -/
  | clkCommit (i : Iface) (w : Word)
  /-- CORD_ENGINE_STOP (R461).  A cord engine has been idle for CORD_IDLE and stops its clock; its ports enter WATCH. -/
  | cordEngineStop (e : Fin 10)
  /-- CORD_ENGINE_WAKE (R461).  A planned wake 100 µs before a T0 or a listen window restarts a stopped cord engine. -/
  | cordEngineWake (cord : Fin 9)
  /-- DOMAIN_IDLE_STOP (R461).  The decode or cipher domain has been idle for 100 µs and stops. -/
  | domainIdleStop (cipher : Bool)
  /-- CXL_L1_ENTRY (R461).  The CXL port has had no request for CXL_IDLE and enters L1. -/
  | cxlL1Entry
  /-- SUPPLY_MONITOR (R463).  The 1 ms measurement of VIN and die temperature drives the low-supply, temperature and thermal-stop responses. -/
  | supplyMonitor (vin : BitVec 11) (temp : BitVec 12)
  /-- GLB_PROFILE_CMD (R512).  A write of GLB_PROFILE_CMD with GO = 1 starts a PROFILE_SWITCH job at priority 0. -/
  | glbProfileCmd (i : Iface) (w : Word)
  /-- PROFILE_SWITCH_CHECK_STEP (R454).  One CHECK step reads 10,000 bytes of the target section through unit 0 and verifies its ranges. -/
  | profileSwitchCheckStep (k : Fin 16) (entry : Option (Nat × Word)) (data : List Byte)
  /-- PROFILE_SWITCH_DRAIN_END (R454).  No commit is pending, the last round has ended and the superframe has stopped, so DRAIN ends. -/
  | profileSwitchDrainEnd (k : Fin 16)
  /-- PROFILE_SWITCH_WAIT_END (R454).  The superframe boundary and the next L1+ crossing of set A are reached, so the switch enters APPLY. -/
  | profileSwitchWaitEnd (k : Fin 16) (data : List Byte) (prev : Option (List Byte))
  /-- CORE_LOST (R25).  A Capstan core stops: its role moves to core 0 or core 3, the core is marked, EV014 is raised and a replace request is made. -/
  | coreLost (core : Fin 4)
  /-- LINK_GCM_WAIT_EXPIRY (R27).  A link GCM block has waited 8 µs and is served ahead of frame-path work. -/
  | linkGcmWaitExpiry (l : Fin 4)
  /-- LP_COMMIT (R39).  A write of LP_COMMIT checks the pairing and encoding rules for the named cords and either waits for the boundary or rejects. -/
  | lpCommit (i : Iface) (w : Word)
  /-- LP_COMMIT_APPLY (R40).  No changed port has an exchange in flight, so the cord's LP shadows are applied and the port states change. -/
  | lpCommitApply (cord : Fin 9)
  /-- LP_PGA_WRITE (R34).  A write of LP_PGA in manual mode requests a move to GAIN_CODE as one-code steps. -/
  | lpPgaWrite (i : Iface) (p : Fin 144) (w : Word)
  /-- OVERRANGE_WINDOW (R34).  A 64-sample window with 4 or more samples at −0.5 dBFS counts an overrange and requests a down-step. -/
  | overrangeWindow (p : Fin 144) (n : Fin 65)
  /-- PGA_UP_STEP_REQUEST (R34).  The peak over 20 ms stays below −21 dBFS with no down-step, so an up-step is requested. -/
  | pgaUpStepRequest (p : Fin 144) (peak : Int)
  /-- PGA_STEP_EFFECT (R33).  A granted step takes effect 3 samples after its request, with exact compensation, and the next step of a move is requested. -/
  | pgaStepEffect (p : Fin 144)
  /-- PGA_HELD_GRANT (R98).  A held step request is granted at the first sample at which R97 permits it. -/
  | pgaHeldGrant (p : Fin 144)
  /-- PGA_REQUEST_WITHDRAW (R98).  A held automatic down request sees no overrange for 24,000 samples, or an up condition lapses, so the request is withdrawn. -/
  | pgaRequestWithdraw (p : Fin 144) (peak : Int)
  /-- WATCH_WINDOW (R46).  A 64-sample watch window ends, its level is recorded and, after WINDOWS windows at or above THRESH, the cord engine is woken. -/
  | watchWindow (p : Fin 144) (a : AdcRun)
  /-- MON_BLOCK (R48).  A 256-sample monitor block in TX ends, its ratio is reported and checked for a step and a low reference. -/
  | monBlock (p : Fin 144) (adc : List (BitVec 14))
  /-- TRANSMISSION_START (R37).  The first transmitted sample of a port goes out once the enable lead is met; the port enters TX, the PGA goes to monitor and the port's receivers are preempted. -/
  | transmissionStart (p : Fin 144)
  /-- TRANSMISSION_END (R118).  The last ramp-down of a port's transmission ends; drive-limit and crest statistics are judged and the TAIL timer starts. -/
  | transmissionEnd (p : Fin 144) (limited : Nat)
  /-- TX_EXIT (R29).  10 µs after the latch that clears the port's enable, the port returns from TX to AWAKE and the PGA is restored. -/
  | txExit (p : Fin 144)
  /-- LREF_FAULT (R49).  LREFc stays more than 0.25 V from GND for 10 ms: EV037 is raised and the cord enters TX_INHIBIT. -/
  | lrefFault (cord : Fin 9) (mv : Int)
  /-- LREF_CLEAR (R49).  The LREFc offset stays below 0.20 V for 100 ms and the cord's reference inhibit ends. -/
  | lrefClear (cord : Fin 9) (mv : Int)
  /-- LP_FLAGS_CLEAR (R49).  A W1C of LP_FLAGS clears the flags, and clearing DRIVE_FAULT releases the drive-fault TX_INHIBIT. -/
  | lpFlagsClear (i : Iface) (p : Fin 144) (w : Word)
  /-- AEN_SHIFT_REQUEST (R43).  A planner asks, 52 µs before T0 or after TAIL, for an enable change; it waits and is merged for the next shift. -/
  | aenShiftRequest (p : Fin 144) (on : Bool) (t0 : Nat)
  /-- AEN_SHIFT (R41).  A shift cycle starts, capturing the merged 144-bit enable word. -/
  | aenShift
  /-- AEN_LATCH (R41).  AEN_LAT rises at the end of the data bits, latching the word on the boards and in LP_AEN_WORD. -/
  | aenLatch
  /-- AEN_IDLE_SHIFT (R43).  No shift has run for 1 ms, so the current word is shifted again. -/
  | aenIdleShift
  /-- AEN_TAIL_EXPIRY (R44).  TAIL after the last transmitted sample, a shift that clears the port's enable bit is requested. -/
  | aenTailExpiry (p : Fin 144)
  /-- MASK_BLOCK (R123).  A 256-sample mask block of a transmitting port is analysed against the LP_MASK limits. -/
  | maskBlock (p : Fin 144) (b : Nat)
  /-- CHAIN_OUTPUT (R55).  A filter chain completes an output at input index nM + M − 1, with saturation, threshold, fade and swap handling. -/
  | chainOutput (c : Fin 758) (ins : List ChainIn)
  /-- CHAIN_SETTLED (R68).  After D zero outputs from a restart, the chain delivers its first computed, settled output. -/
  | chainSettled (c : Fin 758) (ins : List ChainIn)
  /-- FADE_END (R62).  A cross-fade reaches N outputs, after which only the new set runs and FADING clears. -/
  | fadeEnd (c : Fin 758)
  /-- FC_SWAP (R63).  A write of FC_SWAP with GO = 1 captures the standby set and refuses the swap, starts it or makes it pending. -/
  | fcSwap (i : Iface) (c : Fin 758) (w : Word)
  /-- SWAP_START (R64).  A pending swap's start conditions hold at an output boundary, so the bank pointers exchange and the swap begins. -/
  | swapStart (c : Fin 758)
  /-- FC_COMMIT (R75).  A write of FC_COMMIT checks rules 0x30 to 0x36 over its scope and marks the commit pending or rejects it. -/
  | fcCommit (i : Iface) (w : Word)
  /-- FC_COMMIT_APPLY (R75).  A chain applies its FC shadows at its next output boundary after any fade, restarting when a ratio changed. -/
  | fcCommitApply (c : Fin 758)
  /-- COEF_WRITE (R60).  A write to a cord's coefficient window, performed unless the word lies in a set in use. -/
  | coefWrite (i : Iface) (m : Fin 9) (k : BitVec 16) (w : Word)
  /-- FC_AUX_DATA_ACCESS (R78).  An access of FC_AUX_DATA reads or writes a mains or radio coefficient word and auto-increments the address. -/
  | fcAuxDataAccess (i : Iface) (wr : Option Word)
  /-- FC_SET_DIR_WRITE (R60).  A write of a set descriptor, refused while the set is in use. -/
  | fcSetDirWrite (i : Iface) (m : Fin 11) (k : Fin 64) (w : Word)
  /-- FC_SYNC_CMD (R73).  A write of FC_SYNC_CMD triggers the named sync groups, stamped at its arrival. -/
  | fcSyncCmd (i : Iface) (w : Word)
  /-- SYNC_RESTART (R74).  The group's chains restart at their first sample at or after S + 32·OFFSET; TRIGGERED, LATE and the time are set and EV042 is raised. -/
  | syncRestart (g : Fin 16) (t : Nat)
  /-- LISTEN_WINDOW_OPEN (R82).  A planned listen window opens and the receiver leaves HOLD for SEARCH. -/
  | listenWindowOpen (r : Fin 608)
  /-- LISTEN_WINDOW_CLOSE (R83).  A listen window closes: an attempt without a sync word ends NO_FRAME, while a found frame continues. -/
  | listenWindowClose (r : Fin 608)
  /-- HALF_SYMBOL_EVALUATION (R84).  The half-symbol evaluation of window power detects energy and enters QUALIFY, or corrects the AGC. -/
  | halfSymbolEvaluation (r : Fin 608) (t : Nat)
  /-- SYMBOL_BOUNDARY (R85).  A symbol boundary runs the qualifier, sync correlator, AFC, capture detector and step tracker of a receiver. -/
  | symbolBoundary (r : Fin 608) (t : Nat)
  /-- QUALIFY_TIMEOUT (R85).  QUAL_M + 16 symbols pass in QUALIFY without a pass and the receiver returns to SEARCH. -/
  | qualifyTimeout (r : Fin 608)
  /-- QUALIFY_LEVEL_DROP (R85).  The level stays 3 dB below THRESH for 4 consecutive symbols and the receiver returns to SEARCH. -/
  | qualifyLevelDrop (r : Fin 608)
  /-- STR_SYNC_TIMEOUT (R86).  WINDOW symbols pass after the qualifier without a sync word: status SYNC_TIMEOUT and EV065, with an optional replay. -/
  | strSyncTimeout (r : Fin 608)
  /-- LEVEL_LOST (R107).  8 consecutive measured symbols lie 20 dB below the tracker's centre, the frame ends LEVEL_LOST and EV069 is raised. -/
  | levelLost (r : Fin 608)
  /-- HEADER_VERDICT (R88).  The frame unit's PHY header verdict arrives, and the receiver enters PAYLOAD or ends HEADER_FAIL. -/
  | headerVerdict (r : Fin 608)
  /-- FRAME_SYMBOLS_DELIVERED (R88).  The last symbol implied by the header is delivered, the frame ends DELIVERED and the port may lose its last holder. -/
  | frameSymbolsDelivered (r : Fin 608) (t : Nat)
  /-- REPLAY_START (R100).  A false-sync or capture replay starts in SEARCH or QUALIFY on buffered samples, after waiting if 8 replays run. -/
  | replayStart (r : Fin 608)
  /-- REPLAY_LIVE (R101).  A replay reaches the live samples and continues in real time with REPLAY = 0. -/
  | replayLive (r : Fin 608)
  /-- STR_COMMIT (R111).  A write of STR_COMMIT checks rules 0x40 to 0x48 over its scope and marks the commit pending or rejects it. -/
  | strCommit (i : Iface) (w : Word)
  /-- STR_COMMIT_APPLY (R111).  A receiver in HOLD or SEARCH, and not transmitting, applies its STR shadows. -/
  | strCommitApply (r : Fin 608)
  /-- STR_CNT_CLR (R110).  A write of STR_CNT_CLR clears the counters of one receiver or of all receivers. -/
  | strCntClr (i : Iface) (w : Word)
  /-- DEINTERLEAVE_DONE (R139).  The frame unit completes the de-interleaving of a body and queues it for a Viterbi unit. -/
  | deinterleaveDone (r : Fin 608)
  /-- VITERBI_DECODE_START (R23).  A free Viterbi unit takes the next queued frame or block in priority and completion order. -/
  | viterbiDecodeStart (u : Fin 2)
  /-- VITERBI_DECODE_DONE (R141).  Decoding completes; the FCS, type, length, relay, address and version checks of acceptance run and mesh relaying acts. -/
  | viterbiDecodeDone (u : Fin 2)
  /-- CCM_VERIFY_DONE (R322).  The cipher engine's CCM MIC verdict completes and gives the final acceptance. -/
  | ccmVerifyDone (mismatch : Bool)
  /-- METER_PHASE_REPORT (R168).  A zero-crossing report is resolved against the completed mains cycle and written to MNS_PHASE_LAST. -/
  | meterPhaseReport
  /-- MAINS_COAST_TIMEOUT (R155).  No L1+ crossing arrives for 1.5 × the last good period, so a LOCKED set enters COASTING. -/
  | mainsCoastTimeout (a : Fin 2)
  /-- PHASE_ABSENT (R154).  A phase has no valid crossing for three periods and becomes absent. -/
  | phaseAbsent (a : Fin 2) (ph : Fin 3)
  /-- PREDICTED_CYCLE_START (R156).  In COASTING, a predicted L1+ instant starts a new cycle of bins. -/
  | predictedCycleStart (a : Fin 2)
  /-- BIN_END (R159).  A mains bin ends, and the noise map updates that bin from its used windows. -/
  | binEnd (p : Fin 144) (b : Fin 128)
  /-- MAP_WINDOW (R158).  A 64-sample noise-map window ends and is kept for its bin unless excluded. -/
  | mapWindow (p : Fin 144) (a : AdcRun)
  /-- MNS_PORT_CLEAR (R162).  A write of 1 to MNS_PORT_CTL.CLEAR returns the port's 128 map entries to their reset values. -/
  | mnsPortClear (i : Iface) (p : Fin 144) (w : Word)
  /-- MNS_COMMIT (R180).  A write of MNS_COMMIT checks the group rules for the named cords and marks the commit pending or rejects it. -/
  | mnsCommit (i : Iface) (w : Word)
  /-- MNS_COMMIT_APPLY (R180).  No member receiver is frozen, so the group applies its shadow. -/
  | mnsCommitApply (cord : Fin 9) (g : Fin 16)
  /-- ROUND_FIX (R193).  The planner fixes a round at least 2 ms before T0: leases, keys, counter reservations, frame builds and STR commits. -/
  | roundFix (cord : Fin 9) (members : List (BitVec 16 × Fin 6))
  /-- ROUND_DELAYED (R193).  An STR commit has not applied by T0 − 0.1 ms, so the round is moved by whole symbols and EV115 is raised. -/
  | roundDelayed (cord : Fin 9)
  /-- LATER_FRAMES_SEND (R192).  Every step 2 and 4 frame of a round has ended, so the BLOCK_REQ and ACK frames are sent end-aligned. -/
  | laterFramesSend (cord : Fin 9)
  /-- READ_DUE (R189).  A session's cyclic read falls due at LAST_SUCCESS plus INTERVAL. -/
  | readDue (sess : BitVec 16)
  /-- READ_OVERDUE (R189).  A read is still unserved one INTERVAL after it fell due, so it is missed and EV108 is raised. -/
  | readOverdue (sess : BitVec 16)
  /-- PLAN_OVERLOAD (R214).  Classes 2 and 3 hold reads overdue on a cord for more than one INTERVAL of group 0, and EV109 is raised. -/
  | planOverload (cord : Fin 9)
  /-- UNREACHABLE_POLL_DUE (R204).  PLN_DISC.PERIOD passes for an UNREACHABLE session, so it is polled at the lowest mode. -/
  | unreachablePollDue (sess : BitVec 16)
  /-- DISCOVERY_SWEEP_DUE (R205).  A slot of a port falls due for a discovery sweep within its PERIOD. -/
  | discoverySweepDue (cord : Fin 9) (slot : Fin 4) (mask : BitVec 16)
  /-- PHASE_POLL_DUE (R211).  PLN_PHASE.INTERVAL passes for a session whose phase confidence is below HIGH. -/
  | phasePollDue (sess : BitVec 16)
  /-- SWEEP_END (R206).  A discovery sweep's slots end: JOINs are merged and answered, and S is doubled or halved for the next sweep. -/
  | sweepEnd (cord : Fin 9)
  /-- ASSOC_REFUSE_HOLD_END (R207).  REFUSE_HOLD minutes pass and JOINs from a refused EUI are heard again. -/
  | assocRefuseHoldEnd
  /-- ASSIGN_TRIES_EXHAUSTED (R208).  ASSIGN_TRIES line ASSIGNs draw no accepted ACK, and the provisional slot is released. -/
  | assignTriesExhausted (sess : BitVec 16)
  /-- PLN_PIN_SET (R209).  PLN_PIN_CMD.SET stores the named pins of the session in its context. -/
  | plnPinSet (i : Iface) (w : Word)
  /-- PLN_PIN_CLEAR_ALL (R213).  PLN_PIN_CMD.CLEAR_ALL removes every pin of the session. -/
  | plnPinClearAll (i : Iface) (w : Word)
  /-- PLN_PIN_READ (R213).  PLN_PIN_CMD.READ loads the session's current choices into the pin registers. -/
  | plnPinRead (i : Iface) (w : Word)
  /-- PLN_COMMIT_GROUPS (R212).  PLN_COMMIT.GROUPS checks and commits the named policy groups. -/
  | plnCommitGroups (i : Iface) (w : Word)
  /-- PLN_COMMIT_RATE (R212).  PLN_COMMIT.RATE checks and commits PLN_RATE. -/
  | plnCommitRate (i : Iface) (w : Word)
  /-- PLN_COMMIT_LIMITS (R212).  PLN_COMMIT.LIMITS checks and commits PLN_KLP and PLN_BAND, and holds new rounds. -/
  | plnCommitLimits (i : Iface) (w : Word)
  /-- PLN_COMMIT_APPLY (R212).  A cord's planner applies committed PLN shadows before fixing its next round. -/
  | plnCommitApply
  /-- PLN_LIMITS_APPLY (R212).  No round is fixed and no radio frame is in flight, so PLN_KLP and PLN_BAND apply everywhere together. -/
  | plnLimitsApply
  /-- SES_CMD_DELETE (R218).  SES_CMD op DELETE frees the slot and zeroes the context. -/
  | sesCmdDelete (i : Iface) (w : Word)
  /-- SES_CMD_SET_PRIO (R218).  SES_CMD op SET_PRIO sets the priority flag, or ends LIMIT beyond 1,024. -/
  | sesCmdSetPrio (i : Iface) (w : Word)
  /-- SES_CMD_CLEAR_PRIO (R218).  SES_CMD op CLEAR_PRIO clears the priority flag. -/
  | sesCmdClearPrio (i : Iface) (w : Word)
  /-- SES_CMD_READ (R218).  SES_CMD op READ copies the context to SES_CTX_WINDOW. -/
  | sesCmdRead (i : Iface) (w : Word)
  /-- SES_CMD_WRITE (R218).  SES_CMD op WRITE replaces the context from the window as one journalled update. -/
  | sesCmdWrite (i : Iface) (w : Word)
  /-- SES_CMD_FLUSH (R218).  SES_CMD op FLUSH writes the context back. -/
  | sesCmdFlush (i : Iface) (w : Word)
  /-- SES_CMD_RESTORE (R218).  SES_CMD op RESTORE installs a restore image and makes the slot ACTIVE. -/
  | sesCmdRestore (i : Iface) (w : Word)
  /-- SES_CMD_RESTORE_END (R218).  SES_CMD op RESTORE_END frees every slot still awaiting head-end restore. -/
  | sesCmdRestoreEnd (i : Iface) (w : Word)
  /-- LEASE_REQUEST (R232).  A holder requests a lease on a cached context; it is granted or waits in arrival order. -/
  | leaseRequest (sess : BitVec 16) (holder : Fin 25)
  /-- LEASE_RELEASE (R232).  A holder releases a lease, queued requests under it are discarded and the oldest waiting request is granted. -/
  | leaseRelease (sess : BitVec 16) (id : BitVec 16) (holder : Fin 25)
  /-- LEASE_RENEW (R232).  An access, update or explicit renew restarts the lease expiry. -/
  | leaseRenew (sess : BitVec 16) (id : BitVec 16) (holder : Fin 25)
  /-- LEASE_EXPIRY (R234).  A lease passes TIME without renewal and the supervisor revokes it. -/
  | leaseExpiry (sess : BitVec 16)
  /-- LEASE_WAIT_TIMEOUT (R233).  A lease request is not granted within WAIT_MAX, so it is refused and EV145 is raised. -/
  | leaseWaitTimeout (sess : BitVec 16) (holder : Fin 25)
  /-- CONTEXT_PREFETCH (R229).  The planner or coordinator prefetches a context into the cache, evicting a victim if needed. -/
  | contextPrefetch (sess : BitVec 16)
  /-- CONTEXT_FILL_DONE (R229).  A context fill from CXL memory completes and its CRC and ADDRESS are checked. -/
  | contextFillDone (sess : BitVec 16) (poison : Bool)
  /-- CONTEXT_REBUILD_DONE (R238).  A context rebuild from the home copy or a checkpoint plus updates completes: EV135, or PARKED with EV139. -/
  | contextRebuildDone (sess : BitVec 16) (homePoison : Bool) (jrnPoison : Bool)
  /-- JOURNAL_WRITE_DONE (R235).  A journal entry's CXL write completes, so its update is applied and dependent records and deltas are released. -/
  | journalWriteDone
  /-- JOURNAL_UPDATE_RESUME (R237).  The journal ring gains room and a waiting update proceeds. -/
  | journalUpdateResume
  /-- WRITE_BACK_DONE (R236).  A write-back's checkpoint, home write and read-back complete, so its journal entries become releasable. -/
  | writeBackDone (sess : BitVec 16)
  /-- STORE_HEADER_WRITE (R222).  At most once per second, the store header is rewritten when JRN_TAIL has moved. -/
  | storeHeaderWrite
  /-- SPOOL_WRITE (R239).  The spool writer copies a queued record into a page of its class, reclaiming class 4 pages if needed. -/
  | spoolWrite
  /-- RECORD_SEND (R245).  With a credit available, the next record in class order is handed to Halyard framing. -/
  | recordSend (poison : Bool)
  /-- CREDIT (R244).  A CREDIT record from the head-end adds to the credit balance. -/
  | credit (n : BitVec 32)
  /-- CREDIT_STALL (R244).  The balance has stayed 0 for STALL seconds with records waiting, and EV144 is raised. -/
  | creditStall
  /-- HAL_ACK (R246).  An ACK record acknowledges a class up to a SPOOL_SEQ and frees its pages. -/
  | halAck (cls : Fin 5) (seq : BitVec 64)
  /-- DRAIN_REWIND (R246).  The oldest unacknowledged record passes ACK_TIMEOUT, so the class rewinds, REWINDS increments and EV143 is raised. -/
  | drainRewind (cls : Fin 5)
  /-- CXL_LINK_DOWN (R247).  The CXL link leaves UP: EV130 is raised, retraining starts and journal writes and fills wait. -/
  | cxlLinkDown
  /-- CXL_REQUEST_TIMEOUT (R247).  A CXL.mem request is not completed in 10 ms and counts as a link-down. -/
  | cxlRequestTimeout
  /-- CXL_LINK_UP (R247).  The CXL link reaches UP: EV128 is raised and waiting requests resume, or the store is judged at start-up. -/
  | cxlLinkUp (lanes : Fin 5) (speed : Fin 3) (mib : Nat) (kept : Bool)
  /-- CXL_CACHE_ONLY (R248).  The link is not UP 100 ms after loss, or a limit is passed, or no device is found: cache-only mode begins with EV136. -/
  | cxlCacheOnly
  /-- CXL_RETRAIN_TIMER (R249).  Every 10 s in cache-only mode with AUTO_RETURN, the root port retrains. -/
  | cxlRetrainTimer
  /-- CXL_RETRAIN (R256).  A write of CXL_CTRL.RETRAIN retrains the link at once. -/
  | cxlRetrain (i : Iface) (w : Word)
  /-- CXL_MEDIA_POLL (R220).  The once-per-second read of the device's General Media event records. -/
  | cxlMediaPoll (ce : Nat)
  /-- RH_LINK_UP (R260).  A head's JESD204B link receives a valid ILAS and comes UP; EV161. -/
  | rhLinkUp (head : Fin 4)
  /-- RH_LINK_DOWN (R260).  A head's link errors take it down, its strands go to HOLD and EV160 is raised. -/
  | rhLinkDown (head : Fin 4)
  /-- RH_LINK_INIT_RETRY (R260).  Every 100 ms while a head link is down, its link-init script runs again. -/
  | rhLinkInitRetry (head : Fin 4)
  /-- SUPERFRAME_START (R266).  A superframe boundary advances MAC_SFN and the hop entry and sends the beacons. -/
  | superframeStart
  /-- PAIR_LEASE (R270).  2 ms before a slot, the coordinator leases every session active in it, or marks it SKIPPED. -/
  | pairLease
  /-- SLOT_START (R267).  A slot starts phase 1 and the predicted receive windows are opened. -/
  | slotStart
  /-- PHASE2_PREP (R267).  At P2 − 0.5 ms the transmit scripts run, responder frames are built and late uplink frames are preempted. -/
  | phase2Prep
  /-- RESPONDER_SEND (R272).  At P2, responder, ASSIGN and downstream mesh frames pass the air-time tests and are sent. -/
  | responderSend
  /-- SLOT_TAIL (R267).  The slot tail runs the receive, gain and tune scripts, releases the leases and records each pair's outcome. -/
  | slotTail (slot : Nat)
  /-- RH_SCRIPT_LATE (R262).  A script misses its deadline or is malformed, or no gain entry is valid: the head's direction fails, SKIPPED, EV162. -/
  | rhScriptLate (head : Fin 4) (rx : Bool)
  /-- PAIR_RELEASE (R278).  The DRIFT_LOST hold passes 8 superframes: the pair is released, the session becomes UNASSIGNED and EV170 is raised. -/
  | pairRelease (sess : BitVec 16)
  /-- RADIO_ASSIGN_EXPIRE (R282).  ASSIGN_TRIES active superframes pass without an accepted ACK, so the provisional slot and pair are released. -/
  | radioAssignExpire (sess : BitVec 16)
  /-- RADIO_CMD_FAILED (R273).  CMD_TRIES active superframes pass without a matching CMD_RESPONSE: the command fails and EV174 is raised. -/
  | radioCmdFailed (sess : BitVec 16)
  /-- PARENT_BEACON (R283).  A parent beacon is accepted in the listen slot and the grid is slewed towards it. -/
  | parentBeacon
  /-- PARENT_LOST (R284).  Three consecutive parent beacons are missed, the mode becomes PARENT_LOST and EV166 is raised. -/
  | parentLost
  /-- COORD_INDEPENDENT (R284).  After 64 superframes in PARENT_LOST, the module becomes independent, may move its grid and raises EV165. -/
  | coordIndependent
  /-- MAC_COMMIT (R291).  A write of MAC_COMMIT checks rules 0x70 to 0x77 and marks the commit pending or rejects it. -/
  | macCommit (i : Iface) (w : Word)
  /-- MAC_COMMIT_APPLY (R291).  At the first superframe boundary at least one slot after the write, the MAC and head shadows apply. -/
  | macCommitApply
  /-- MAC_SCRIPT_DATA_ACCESS (R290).  An access of MAC_SCRIPT_DATA reads or writes script memory and auto-increments the address. -/
  | macScriptDataAccess (i : Iface) (wr : Option Word)
  /-- MAC_CTRL_RUN (R266).  Applying MAC_CTRL.RUN = 1 starts the superframe at the first grid boundary. -/
  | macCtrlRun (i : Iface) (w : Word)
  /-- MAC_CTRL_SUBORD (R283).  A write of MAC_CTRL.SUBORD = 1 starts alignment to the named parent. -/
  | macCtrlSubord (i : Iface) (w : Word)
  /-- ROUTE_AGE_OUT (R298).  A route entry's age reaches ROUTE_MAX_AGE and the entry becomes invalid and free. -/
  | routeAgeOut
  /-- SEEN_EXPIRE (R304).  A seen-cache key reaches 60 s and expires. -/
  | seenExpire
  /-- MESH_RESEND (R301).  RESEND_SF superframes pass without an answer, so the command or REKEY is sent again, as FLOOD after a SOURCE send. -/
  | meshResend (sess : BitVec 16)
  /-- MSH_ROUTE_CLEAR_ONE (R311).  MSH_ROUTE_CMD.CLEAR_ONE frees the route entry of DEST. -/
  | mshRouteClearOne (i : Iface) (w : Word)
  /-- MSH_ROUTE_CLEAR_ALL (R311).  MSH_ROUTE_CMD.CLEAR_ALL frees every route entry. -/
  | mshRouteClearAll (i : Iface) (w : Word)
  /-- MSH_COMMIT (R313).  A write of MSH_COMMIT checks rules 0x80 to 0x82 and marks the commit pending or rejects it. -/
  | mshCommit (i : Iface) (w : Word)
  /-- MSH_COMMIT_APPLY (R313).  At the next superframe boundary the committed MSH_CFG applies. -/
  | mshCommitApply
  /-- ANCHOR_PROGRAM (R316).  A write of CIP_ANCHOR_CMD with PROGRAM = 1 is refused within 10 µs or begins blowing the fuses. -/
  | anchorProgram (i : Iface) (w : Word)
  /-- ANCHOR_PROGRAM_DONE (R316).  Fuse programming and read-back complete: the staging registers are zeroed and the result is set, with EV192 on OK. -/
  | anchorProgramDone (good : Bool)
  /-- KEY_DERIVATION_DONE (R321).  A KM and frame-key derivation completes and its result replaces the least recently used cache entry. -/
  | keyDerivationDone
  /-- KCACHE_FLUSH (R321).  A write of CIP_KCACHE_CMD.FLUSH erases every key cache entry. -/
  | kcacheFlush (i : Iface) (w : Word)
  /-- DRBG_RESEED (R332).  The DRBG is reseeded every 1 ms or after 65,536 requests from the noise source. -/
  | drbgReseed
  /-- ENTROPY_FAIL (R332).  A noise-source health test fails: EV203 is raised and 1,024 samples are discarded, or the engine is fenced on a second failure. -/
  | entropyFail
  /-- ENTROPY_RETEST (R332).  After the 1,024 discarded samples, the noise source is tested again. -/
  | entropyRetest (pass : Bool)
  /-- VAULT_WRITE_DONE (R336).  A Vault write and its read-back complete, and the waiting frame, commit or record proceeds. -/
  | vaultWriteDone (good : Bool)
  /-- RAW_JOB_START (R328).  A write of CIP_RAW_CMD.GO starts a raw cipher job, or ends it PARAM or LENGTH. -/
  | rawJobStart (i : Iface) (w : Word)
  /-- RAW_JOB_ABORT (R348).  A write of CIP_RAW_CMD.ABORT ends the job and zeroes its output. -/
  | rawJobAbort (i : Iface) (w : Word)
  /-- RAW_JOB_DONE (R330).  A raw job completes with its result, zeroing on AUTH_FAIL or PAD_ERROR, and raising EV206 if enabled. -/
  | rawJobDone (mismatch : Bool)
  /-- CIP_SES_READ (R348).  CIP_SES_CMD op 1 reads the session's key state and counters into the CIP_SES registers. -/
  | cipSesRead (i : Iface) (w : Word)
  /-- CIP_SES_REKEY_DUE (R348).  CIP_SES_CMD op 2 moves a NORMAL session to REKEY_DUE or REJOIN_DUE. -/
  | cipSesRekeyDue (i : Iface) (w : Word)
  /-- CIP_SES_REPROVISION (R348).  CIP_SES_CMD op 3 moves a session to REPROVISION. -/
  | cipSesReprovision (i : Iface) (w : Word)
  /-- CIP_COMMIT (R349).  A write of CIP_COMMIT checks CIP_CFG and applies it before the next counter is taken. -/
  | cipCommit (i : Iface) (w : Word)
  /-- CHK_ARM (R355).  CHK_CMD.ARM abandons any running window and arms a new one. -/
  | chkArm (i : Iface) (u : Fin 16) (w : Word)
  /-- CHK_STOP (R355).  CHK_CMD.STOP ends the window with outcome ABORTED. -/
  | chkStop (i : Iface) (u : Fin 16) (w : Word)
  /-- CHK_CLR_EXPECT (R356).  CHK_CMD.CLR_EXPECT clears EXPECT_VALID. -/
  | chkClrExpect (i : Iface) (u : Fin 16) (w : Word)
  /-- CHK_EXPECT_WRITE (R356).  A write of CHK_EXPECT sets EXPECT_VALID and compares a waiting result. -/
  | chkExpectWrite (i : Iface) (u : Fin 16) (w : Word)
  /-- CHK_WINDOW_START (R355).  An armed window starts at the next byte or the next marker unit. -/
  | chkWindowStart (u : Fin 16)
  /-- CHK_WINDOW_END (R356).  A check window reaches WINDOW bytes or units, its result is complete and it is compared if an expected value is valid. -/
  | chkWindowEnd (u : Fin 16) (data : List Byte) (tooFast : Bool) (poison : Bool)
  /-- CHK_COMMIT (R363).  A write of CHK_COMMIT checks rules 0xA0 to 0xA5 and applies at once to idle units. -/
  | chkCommit (i : Iface) (w : Word)
  /-- CHK_COMMIT_APPLY (R363).  A unit's running window ends, so its committed shadows apply. -/
  | chkCommitApply (u : Fin 16)
  /-- LANE_UP (R365).  A Splice or Braid lane sees 64 valid sync headers and comes UP. -/
  | laneUp (l : Fin 3) (lane : Fin 2)
  /-- LANE_DOWN (R365).  A lane sees 16 invalid headers in 64 blocks and leaves UP; the link runs on the remaining lane. -/
  | laneDown (l : Fin 3) (lane : Fin 2)
  /-- HELLO_SEND (R368).  During bring-up each end sends HELLO every 1 ms on every UP lane. -/
  | helloSend (l : Fin 3)
  /-- LINK_HELLO (R368).  A peer's HELLO is checked for role, anchor and version, and the new key index is written to the Vault. -/
  | linkHello (l : Fin 3) (insertion : Bool) (h : HelloS)
  /-- LINK_CONFIRM (R368).  The peer's protected CONFIRM is accepted and the link is UP. -/
  | linkConfirm (l : Fin 3)
  /-- LINK_BRINGUP_TIMEOUT (R368).  A link has not reached UP 50 ms after its first lane did, and bring-up starts again. -/
  | linkBringupTimeout (l : Fin 3)
  /-- LINK_SILENCE_TIMEOUT (R368).  No accepted frame arrives for 4 ms on Splice or 1 ms on Braid, and the link goes down. -/
  | linkSilenceTimeout (l : Fin 3)
  /-- LINK_FRAME_REJECTED (R367).  A link frame is unprotected, has a stale index or sequence, or fails its tag, and is discarded. -/
  | linkFrameRejected (l : Fin 3) (tagFail : Bool)
  /-- OWNERSHIP_REFRESH (R371).  Every 1 ms the supervisor refreshes the ownership watchdog. -/
  | ownershipRefresh
  /-- OWN_WATCHDOG_EXPIRY (R371).  4 ms pass without a refresh: ownership drops, OWN_OUT goes low, the AEN pins float and the DACs are held off. -/
  | ownWatchdogExpiry
  /-- SPLICE_START_WAIT_END (R373).  START_WAIT passes at start-up: the module claims, syncs or becomes ISOLATED. -/
  | spliceStartWaitEnd
  /-- TAKEOVER_TIMEOUT (R373).  An eligible standby sees 8 ms without a frame with OWN_IN low, and claims. -/
  | takeoverTimeout
  /-- CLAIM_GUARD_END (R373).  2 ms after a claim, OWN_IN decides whether the module becomes OWNER or a split claim is resolved. -/
  | claimGuardEnd
  /-- OWN_IN_FALL (R373).  OWN_IN falls during a split claim, and the higher serial becomes OWNER. -/
  | ownInFall
  /-- SPLIT_CLAIM_TIMEOUT (R373).  OWN_IN has not fallen within 4 ms, so the higher serial withdraws too. -/
  | splitClaimTimeout
  /-- CLAIM_RETRY_DELAY_END (R373).  The random 5 ms to 36 ms withdrawal delay ends, and the module claims again if the conditions hold. -/
  | claimRetryDelayEnd
  /-- SPL_SWITCHOVER (R375).  SPL_CMD.SWITCHOVER to the OWNER drains, mirrors, sends SWITCH and becomes STANDBY, or is refused. -/
  | splSwitchover (i : Iface) (w : Word)
  /-- SPL_UNPAIR (R377).  SPL_CMD.UNPAIR ends pair membership and clears PAIRED. -/
  | splUnpair (i : Iface) (w : Word)
  /-- SPL_RESYNC (R378).  SPL_CMD.RESYNC makes the owner start a bulk transfer. -/
  | splResync (i : Iface) (w : Word)
  /-- SPL_COMMIT (R399).  A write of SPL_COMMIT checks SPL_CFG, which applies at the next bring-up. -/
  | splCommit (i : Iface) (w : Word)
  /-- SPL_HEARTBEAT_SEND (R376).  Every 1 ms each module sends a HEARTBEAT. -/
  | splHeartbeatSend
  /-- SPL_HEARTBEAT (R376).  A HEARTBEAT is received; a standby follows the owner's grid, and a claimant withdraws on role OWNER. -/
  | splHeartbeat (seq : BitVec 64) (role : Fin 6) (term : BitVec 32) (start : BitVec 64) (sfn : BitVec 16)
  /-- SPL_JRN (R377).  A mirrored journal entry is applied by the standby in LF_SEQ order. -/
  | splJrn (seq : BitVec 64) (jseq : BitVec 64) (sess : BitVec 16) (kind : Fin 3) (offset : Fin 2048) (data : List Byte)
  /-- SPL_VAULT (R377).  A mirrored Vault entry is written to the standby's Vault with MIRROR = 1 before acknowledgement. -/
  | splVault (seq : BitVec 64) (sess : BitVec 16) (txc : BitVec 32) (rxm : BitVec 32) (epoch : BitVec 16) (prov : BitVec 16) (sent : Fin 4096)
  /-- SPL_PLAN (R379).  A mirrored round or outcome updates the standby's plan. -/
  | splPlan (seq : BitVec 64) (members : List PlanMember) (ended : Option (BitVec 16))
  /-- SPL_ROUTE (R376).  A mirrored route entry change updates the standby's route table. -/
  | splRoute (seq : BitVec 64) (dest : BitVec 16) (next : BitVec 16) (metric : BitVec 8) (hops : Fin 16) (valid : Bool) (age : BitVec 16)
  /-- SPL_CTX (R378).  A mirrored or requested context image is installed by the receiving module. -/
  | splCtx (seq : BitVec 64) (sess : BitVec 16) (image : List Byte)
  /-- SPL_ACK (R377).  The standby's acknowledgement frees waiting Vault writes and frames, and marks bulk progress (MIRROR_OK, SPL_SYNCED). -/
  | splAck (seq : BitVec 64) (upTo : BitVec 64)
  /-- SPL_AUDIT (R380).  An AUDIT message carries a range or a result; a mismatch re-sends the images and raises EV228. -/
  | splAudit (seq : BitVec 64) (first : Fin 1024) (result : BitVec 32)
  /-- SPL_SWITCH (R375).  The standby accepts SWITCH and claims when OWN_IN is low. -/
  | splSwitch (seq : BitVec 64)
  /-- SPL_CTX_REQ (R381).  A CTX_REQ is answered with CTX messages for the held contexts. -/
  | splCtxReq (seq : BitVec 64) (first : BitVec 16) (last : BitVec 16)
  /-- MIRROR_AUDIT_STEP (R380).  Every AUDIT_STEP, a mirror-audit step covers 64 contexts on both modules. -/
  | mirrorAuditStep
  /-- BRD_KEEPALIVE_SEND (R368).  Every 250 µs a KEEPALIVE is sent on each Braid port. -/
  | brdKeepaliveSend (p : Fin 2)
  /-- BRD_KEEPALIVE (R384).  A one-hop KEEPALIVE is received, keeping the port up. -/
  | brdKeepalive (h : BHdr)
  /-- WALK_START (R386).  Within 2 ms of a port change, or when outranking a forwarded WALK, a node starts its own WALK. -/
  | walkStart
  /-- KNOT_WALK_TIMER (R386).  Every 10 s the knot master walks the ring. -/
  | knotWalkTimer
  /-- BRD_WALK (R386).  A WALK is received, appended and forwarded, or at its originator yields TOPOLOGY. -/
  | brdWalk (h : BHdr) (entries : List WalkE) (split : Option Nat)
  /-- BRD_TOPOLOGY (R386).  A TOPOLOGY broadcast assigns ids, updates the node table and NODE_ID_LAST, and raises EV234. -/
  | brdTopology (h : BHdr) (nodes : List NodeE) (broken : Option Nat) (knot : Nat) (master : Option Nat)
  /-- DELAY_EXCHANGE_TIMER (R388).  Every INTERVAL, a v3 hop sends DELAY_REQ. -/
  | delayExchangeTimer (p : Fin 2)
  /-- BRD_DELAY_REQ (R388).  A DELAY_REQ is received, stamped and answered with DELAY_RESP. -/
  | brdDelayReq (h : BHdr)
  /-- BRD_DELAY_RESP (R388).  A DELAY_RESP updates the mean one-way hop delay. -/
  | brdDelayResp (h : BHdr) (t2 : BitVec 64) (t3 : BitVec 64)
  /-- TIME_SEND_TIMER (R388).  Every INTERVAL, the time master sends TIME in both directions. -/
  | timeSendTimer
  /-- BRD_TIME (R388).  A TIME message sets BRD_TIME_OFS, gives a discipline sample and is forwarded with corrections. -/
  | brdTime (h : BHdr) (value : BitVec 64) (corr : BitVec 64) (pps : Bool)
  /-- BRD_MESH_RELAY (R307).  A mesh relay message is forwarded, or judged at the coordinating site from step 9 of the path. -/
  | brdMeshRelay (h : BHdr) (site : BitVec 6) (rfs : Fin 32) (rssi : BitVec 16) (snr : BitVec 16) (time : BitVec 64) (mpdu : List Byte)
  /-- BRD_BROADCAST (R391).  A fabric BROADCAST command record is run as if from the node's own Halyard and forwarded. -/
  | brdBroadcast (h : BHdr) (record : List Byte)
  /-- BRD_BCAST_CMD (R391).  A write of BRD_BCAST_CMD.GO sends the command record in CIP_RAW_BUF as a fabric broadcast. -/
  | brdBcastCmd (i : Iface) (w : Word)
  /-- BRD_HO_CMD (R389).  A write of BRD_HO_CMD.GO requests a handover of the session to the target node. -/
  | brdHoCmd (i : Iface) (w : Word)
  /-- BRD_HO_OFFER (R390).  Site B judges an offer and sends HO_REFUSE, or opens a provisional slot and sends HO_ACCEPT. -/
  | brdHoOffer (h : BHdr) (eui : BitVec 64) (addr : BitVec 16) (image : List Byte) (entry : List Byte)
  /-- BRD_HO_ACCEPT (R390).  Site A sends the meter the secured ASSIGN carrying B's pair and node id. -/
  | brdHoAccept (h : BHdr) (addr : BitVec 16) (payload : List Byte)
  /-- BRD_HO_REFUSE (R390).  Site A releases its lease and serves the session again. -/
  | brdHoRefuse (h : BHdr) (addr : BitVec 16) (cause : Fin 4)
  /-- BRD_HO_DONE (R390).  Site A deletes the session, frees its routes and raises EV239. -/
  | brdHoDone (h : BHdr) (addr : BitVec 16)
  /-- BRD_HO_FAIL (R390).  Site A releases its lease and serves the session again. -/
  | brdHoFail (h : BHdr) (addr : BitVec 16)
  /-- HO_ACK_TIMEOUT (R390).  Site B sees no ACK within ASSIGN_TRIES active superframes, releases the slot and pair and sends HO_FAIL. -/
  | hoAckTimeout (sess : BitVec 16)
  /-- BRD_JOIN_RING (R394).  Applying BRD_CTRL.EN = 1 drives BIGHT_HOLD_N low and starts insertion into the ring. -/
  | brdJoinRing (i : Iface) (w : Word)
  /-- BIGHT_LANE1_OPEN (R394).  After 100 ms of UP taps, the lane 1 group opens and lane 1 is brought up with each neighbour. -/
  | bightLane1Open
  /-- BIGHT_CUTOVER_QUEUE (R394).  At C − 1 ms the neighbours stop sending on lane 0 and queue. -/
  | bightCutoverQueue
  /-- BIGHT_CUTOVER (R394).  At tick C the lane 0 group opens on insertion, or both groups close on leaving. -/
  | bightCutover
  /-- BIGHT_MEMBER (R394).  By C + 5 ms the module is a MEMBER: BIGHT_OPS increments and a WALK starts. -/
  | bightMember
  /-- BIGHT_INSERT_RETRY (R394).  The insertion backoff of 1 s to 64 s ends and insertion is tried again. -/
  | bightInsertRetry
  /-- BRD_LEAVE (R395).  A write of BRD_CTRL.LEAVE = 1 by a MEMBER announces a cutover tick to both neighbours. -/
  | brdLeave (i : Iface) (w : Word)
  /-- BRD_COMMIT (R401).  A write of BRD_COMMIT checks the BRD shadows, which apply at the next bring-up or WALK. -/
  | brdCommit (i : Iface) (w : Word)
  /-- HAL_LINK_UP (R403).  A Halyard port gains block lock without faults, comes UP, raises EV240 and sends HELLO if not negotiated. -/
  | halLinkUp (p : Fin 2)
  /-- HAL_LINK_DOWN (R403).  A Halyard port leaves UP, its frame in flight is lost and EV241 is raised. -/
  | halLinkDown (p : Fin 2)
  /-- HAL_PORT_RETURN (R404).  H0 has been UP for 10 s under code 2, so sending returns to H0. -/
  | halPortReturn
  /-- HAL_FRAME_RECEIVE (R406).  A Halyard frame is filtered, MACsec-validated and header-checked, and its records are taken. -/
  | halFrameReceive (p : Fin 2) (frame : List Byte)
  /-- HAL_HELLO_SEND (R409).  Until a version is negotiated, HELLO is sent once per second. -/
  | halHelloSend
  /-- HAL_NEGOTIATION_END (R409).  The sending port has not been UP for 1 s, so the negotiation ends and HELLO resumes. -/
  | halNegotiationEnd
  /-- HAL_VERSION (R409).  A VERSION record negotiates a version, or is refused; the credits reset, the spools rewind and EV242 is raised. -/
  | halVersion (version : BitVec 8)
  /-- HAL_COMMAND (R417).  A COMMAND record is checked, de-duplicated by CMD_ID and queued, or answered BUSY or refused. -/
  | halCommand (p : Fin 2) (flags : BitVec 8) (body : List Byte)
  /-- CMD_METER_COMMAND (R228).  A METER_COMMAND is stored as the session's pending command under a lease and answered QUEUED, BUSY or REFUSED. -/
  | cmdMeterCommand
  /-- CMD_CSR_READ (R415).  A CSR_READ burst returns up to 256 words. -/
  | cmdCsrRead
  /-- CMD_CSR_WRITE (R415).  A CSR_WRITE burst writes up to 256 words. -/
  | cmdCsrWrite
  /-- CMD_RAW_JOB (R415).  A RAW_JOB command runs a raw cipher job whose output goes to a class 1 record. -/
  | cmdRawJob
  /-- CMD_JOB_START (R415).  A JOB_START command starts a belay job and returns its slot. -/
  | cmdJobStart
  /-- CMD_JOB_CANCEL (R415).  A JOB_CANCEL command cancels a belay job slot. -/
  | cmdJobCancel
  /-- CMD_REPLACE_ACK (R487).  A REPLACE_ACK command acknowledges replace reasons. -/
  | cmdReplaceAck
  /-- HAL_COMMIT (R439).  A write of HAL_COMMIT checks rules 0xC0 to 0xC4 and applies at frame boundaries, possibly ending the negotiation. -/
  | halCommit (i : Iface) (w : Word)
  /-- HAL_MSEC_INSTALL (R414).  HAL_MSEC_SA_CMD.INSTALL installs the selected SA with its key, PN and salt. -/
  | halMsecInstall (i : Iface) (p : Fin 2) (w : Word)
  /-- HAL_MSEC_ENABLE (R414).  HAL_MSEC_SA_CMD.ENABLE puts a transmit SA in use from the next frame, or makes a receive SA accept frames. -/
  | halMsecEnable (i : Iface) (p : Fin 2) (w : Word)
  /-- HAL_MSEC_DISABLE (R414).  HAL_MSEC_SA_CMD.DISABLE removes the SA and erases its key. -/
  | halMsecDisable (i : Iface) (p : Fin 2) (w : Word)
  /-- MGT_WRITE (R420).  A management-port WRITE transaction writes successive words once each fourth byte arrives. -/
  | mgtWrite (a : BitVec 24) (data : List Byte) (cut : Bool)
  /-- MGT_READ (R420).  A management-port READ transaction reads successive CSRs after the dummy bytes. -/
  | mgtRead (a : BitVec 24) (bits : Nat)
  /-- MGT_STATUS (R420).  A management-port STATUS command returns the status byte. -/
  | mgtStatus (n : Nat)
  /-- MGT_ID (R420).  A management-port ID command returns 0x4B, 0x4E, 0x14, 0x40. -/
  | mgtId (n : Nat)
  /-- MGT_INVALID_TRANSACTION (R421).  An unknown command byte, misalignment, partial word, incomplete address or not-ready access is ignored. -/
  | mgtInvalidTransaction (bytes : List Byte) (cut : Bool)
  /-- WRITE_LOG_ENTRY (R423).  1 s after its first write, a merged CSR write-log entry is written to the trouble log. -/
  | writeLogEntry
  /-- EVENT_RECORD_DUE (R427).  A source's RATE_MS passes with raisings counted, so its EVENT record and log entry are created. -/
  | eventRecordDue
  /-- EVC_LATCH_CLEAR (R426).  A W1C of an EVC_LATCH register clears latches and re-evaluates IRQ_N. -/
  | evcLatchClear (i : Iface) (g : Fin 8) (w : Word)
  /-- BLY_START (R430).  A write of BLY_START.GO starts a belay job in the lowest free slot, or refuses it. -/
  | blyStart (i : Iface) (w : Word)
  /-- BLY_CANCEL (R433).  A write of BLY_CANCEL.GO ends the job at its next step boundary, or at once if QUEUED or WAITING. -/
  | blyCancel (i : Iface) (w : Word)
  /-- BLY_OVERRUN (R432).  A step runs over 250 µs: the job is ABANDONED, its leases revoked and EV248 raised. -/
  | blyOverrun (k : Fin 16)
  /-- JOB_STATUS_REPORT (R433).  Every STATUS_S seconds a JOB_STATUS record is sent for a running job. -/
  | jobStatusReport (k : Fin 16)
  /-- SESSION_SCRUB_STEP (R434).  One SESSION_SCRUB step fills and checks 16 contexts, rebuilding failures. -/
  | sessionScrubStep (k : Fin 16) (bad : List (BitVec 16))
  /-- REKEY_SWEEP_STEP (R434).  One REKEY_SWEEP step marks eligible sessions among 256 as REKEY_DUE. -/
  | rekeySweepStep (k : Fin 16)
  /-- CXL_SCRUB_STEP (R434).  One CXL_SCRUB step reads 256 KiB and handles poison. -/
  | cxlScrubStep (k : Fin 16) (ctxs : List (BitVec 16)) (recs : List (Fin 5 × Nat)) (other : List Nat)
  /-- LOG_EXPORT_STEP (R434).  One LOG_EXPORT step places 32 entries in a LOG_EXPORT record. -/
  | logExportStep (k : Fin 16)
  /-- NOISE_MAP_EXPORT_STEP (R434).  One NOISE_MAP_EXPORT step sends one port's map as a NOISE_MAP record. -/
  | noiseMapExportStep (k : Fin 16)
  /-- CXL_AUDIT_STEP (R434).  One CXL_AUDIT step passes 256 KiB through a claimed check unit. -/
  | cxlAuditStep (k : Fin 16) (data : List Byte) (poison : Bool)
  /-- CIPHER_TEST_STEP (R334).  A step of the cipher self-test job runs after a fence; a pass lifts the fence. -/
  | cipherTestStep (k : Fin 16) (o : TestObs)
  /-- NVM_READ_STEP (R435).  An NVM_PASSTHROUGH READ fast-reads into BLY_NVM_BUF, checked by unit 0. -/
  | nvmReadStep (k : Fin 16) (data : List Byte) (expect : Option Word)
  /-- NVM_PROGRAM_STEP (R435).  An NVM_PASSTHROUGH PROGRAM step writes one page, followed by status polls and a verify. -/
  | nvmProgramStep (k : Fin 16) (same : Bool)
  /-- NVM_ERASE_STEP (R435).  An NVM_PASSTHROUGH erase issues a 4 KiB or 64 KiB erase. -/
  | nvmEraseStep (k : Fin 16)
  /-- NVM_STATUS_POLL (R435).  A step polls the NVM busy bit, ending with TIMEOUT after 10 ms per page or 3 s per erase. -/
  | nvmStatusPoll (k : Fin 16) (busy : Bool)
  /-- SELF_TEST_STEP (R469).  One self-test step applies patterns to a target, compares a complete run and marks a confirmed failure. -/
  | selfTestStep (k : Fin 16) (o : TestObs)
  /-- TEST_CORD_MOVE (R478).  At a moment with no TX or open window on the cord, the cord moves between CEc and CE9 for a test, and its chains restart. -/
  | testCordMove (c : Fin 9) (toSpare : Bool)
  /-- SELF_TEST_PERIODIC_START (R474).  Every PERIOD_H hours with AUTO_EN, a SELF_TEST job starts over BST_TARGETS. -/
  | selfTestPeriodicStart
  /-- BST_CLEAR_MARK (R482).  A write of BST_CMD with CLEAR_MARK clears a target's mark and returns it to service. -/
  | bstClearMark (i : Iface) (w : Word)
  /-- BST_REPLACE_ACK (R487).  A write of BST_REPLACE_ACK acknowledges active reasons and stops the repeats. -/
  | bstReplaceAck (i : Iface) (w : Word)
  /-- BST_REPLACE_CLR (R484).  A write of BST_REPLACE_CLR with bit 4 clears the Vault replace reason. -/
  | bstReplaceClr (i : Iface) (w : Word)
  /-- REPLACE_REQUEST_REPEAT (R486).  Every REPEAT_MIN minutes with unacknowledged reasons, the REPLACE_REQUEST record is repeated. -/
  | replaceRequestRepeat
  /-- LOG_CLEAR_PROT (R492).  LOG_CMD.CLEAR_PROT empties the protected region and re-arms EV253. -/
  | logClearProt (i : Iface) (w : Word)
  /-- LOG_MARK_EXPORTED (R496).  LOG_CMD.MARK_EXPORTED makes every entry count as exported. -/
  | logMarkExported (i : Iface) (w : Word)
  /-- GLB_COMMIT (R505).  A write of GLB_COMMIT checks every named block's rules together and commits them, or rejects all with EV003. -/
  | glbCommit (i : Iface) (w : Word)
  /-- GLB_REVERT (R507).  A write of GLB_COMMIT with REVERT = 1 copies the live values into the named blocks' shadows. -/
  | glbRevert (i : Iface) (w : Word)
  /-- GLB_TIME_CAPTURE (R513).  A write of GLB_TIME_CAP_CMD.GO stamps its arrival tick into GLB_TIME_CAP. -/
  | glbTimeCapture (i : Iface) (w : Word)
  /-- GPIO_CAPTURE (R514).  A selected edge on a GPIO ball is stamped into its capture register, setting NEW and perhaps OVERRUN. -/
  | gpioCapture (ball : Fin 16) (level : Bool)
  /-- WIDE_VALUE_READ (R500).  A read of the lowest word of a multi-word value latches the other words for the reading interface. -/
  | wideValueRead (i : Iface) (a : BitVec 24)
  /-- REGISTER_WRITE (R499).  A write to a register without a row of its own acts on each field by its access code, including shadows and W1C bits. -/
  | registerWrite (i : Iface) (a : BitVec 24) (w : Word)
  /-- TAP_INSTRUCTION_UPDATE (R527).  An IEEE 1149.1 TAP sequence on TCK, TMS and TDI loads EXTEST, SAMPLE/PRELOAD or BYPASS; EXTEST holds every LP DAC off and closes the Bight. -/
  | tapInstructionUpdate (ir : Fin 16)
  /-- BIGHT_CUTOVER_PROPOSAL (R394).  A neighbour receives a proposed or announced cutover tick C from an inserting or leaving module and answers with acceptance, or the proposer receives that acceptance, fixing C. -/
  | bightCutoverProposal (p : Fin 2) (cut : BitVec 64) (kind : Fin 3) (leaving : Bool)
  /-- BRAID_TIME_VALID_LAPSE (R458).  No TIME message has been received for 4 × INTERVAL, so BRD_TIME_STAT.VALID clears and the discipline source falls to PPS or holdover, with rho set to −f. -/
  | braidTimeValidLapse
  /-- ENTROPY_STARTUP_TEST (R332).  The noise source's start-up health test over 1,024 samples completes after a reset; on a pass ENTROPY_OK is set and the cipher engine begins to serve work, and on a failure the ENTROPY_FAIL handling applies. -/
  | entropyStartupTest (pass : Bool)
  deriving DecidableEq, Repr

end Sys2Proof
end

