-- ==== Sys2Proof/Decode.lean ====
section
/-! DEFINITION. The commands that a table word spells.  No row of the table of operations and events carries bits: the
commands of the block are register accesses, received units, pins and timers, and the manual gives none of them an
encoding as an instruction word. -/
namespace Sys2Proof

/-- The command a word of `nbits` bits spells: none, because no row of the table gives bits. -/
def decodeTableWord (_nbits _w : Nat) : Option Instr := none

end Sys2Proof
end

