-- ==== Sys2Proof/Config.lean ====
section
/-! DEFINITION. What one device or one implementation fixes and the manual does not give, and the free values: constants
with no body, so that no proof can see a value of them.  Each is named in the assumption log. -/
namespace Sys2Proof

/-- The free value number `n` of the run, of `w` bits: a result the manual does not state (log entry 2). -/
opaque Config.free (w : Nat) (n : Nat) : BitVec w

/-- The 64-bit serial number fused at manufacture (R510, log entry 3). -/
opaque Config.serial : BitVec 64

/-- `GLB_REVISION` (R510, log entry 3). -/
opaque Config.revision : BitVec 32

/-- The factory trim of the step errors of line port `p` (R50, log entry 3). -/
opaque Config.pgaCal (p : Nat) : BitVec 28

/-- The fourth-order band-pass of R46 between `low` and `high` kHz: from its state and an input to its output and next state.
The rule gives its order and its band, not its coefficients (log entry 95). -/
opaque Config.bandPass (low high : Nat) (z : List Rat) (x : Rat) : Rat × List Rat

/-- The AFC's estimate of the frequency offset, in the units of `FC_NCO.FREQ`, from the correction `c` in force and the samples of
the correlated symbols (R90 gives no estimator; log entry 95). -/
opaque Config.freqEst (c : Int) (x : List (Int × Int)) : Int

/-- Which of two trellis paths of equal metric a Viterbi unit keeps: true keeps the one from the higher state
(R139 does not say; log entry 5). -/
opaque Config.viterbiTie (step state : Nat) : Bool

/-- Mask bits of the engine's random source: byte `i` of the draw that `lane` names in work number `n` (R331, R332; log entry 116). -/
opaque Config.mask (n : Nat) (lane : List Nat) (i : Nat) : Byte

/-- The golden signature of self-test target `t` in on-die ROM (R471, log entry 3). -/
opaque Config.golden (t : Nat) : BitVec 64

end Sys2Proof
end

