-- ==== Sys2Proof/Machine/RegMap.lean ====
section
/-! DEFINITION. The register map of R509 and of the register tables of each chapter: one `Fld` for each named field
(the address of its register's first instance and its bits), one `RegRow` for each row of a register table, and the
rows of one region as one list.  The addresses, resets, access codes and field places are those of the tables of
R50, R77, R78, R109, R110, R145 to R147, R177 to R179, R211, R213, R255, R256, R288 to R290, R311, R348, R361, R362,
R398, R400, R437, R438, R440 to R442, R465, R466, R495, R496 and R510. -/
namespace Sys2Proof.Machine

/-- The access codes of R16.  RSV bits belong to no field. -/
inductive Acc where
  | rw | ro | wo | w1c | w1s | rws
  deriving DecidableEq, Repr

/-- A named field: the address of the register's first instance, and the field's highest and lowest bit. -/
structure Fld where
  addr : Nat
  hi : Nat
  lo : Nat
  deriving DecidableEq, Repr

/-- A field of a row: its bits, its access code and the encodings the tables list (inclusive ranges; none listed
means every encoding is legal), R17. -/
structure RegField where
  hi : Nat
  lo : Nat
  acc : Acc
  legal : List (Nat × Nat)
  deriving DecidableEq, Repr

/-- One row of a register table: instance (i, j) lies at `base + i * s1 + j * s2`, `i < n1`, `j < n2`. -/
structure RegRow where
  name : String
  base : Nat
  n1 : Nat
  s1 : Nat
  n2 : Nat
  s2 : Nat
  reset : Word
  fields : List RegField
  deriving DecidableEq, Repr

/-! ### Fields -/

def F.LP_CFG : Fld := ⟨0x040000, 31, 0⟩
def F.LP_CFG_MAINS_SET : Fld := ⟨0x040000, 2, 2⟩
def F.LP_CFG_COUPLING : Fld := ⟨0x040000, 1, 1⟩
def F.LP_CFG_ENABLE : Fld := ⟨0x040000, 0, 0⟩
def F.LP_PGA : Fld := ⟨0x040004, 31, 0⟩
def F.LP_PGA_MAX_CODE : Fld := ⟨0x040004, 14, 12⟩
def F.LP_PGA_MIN_CODE : Fld := ⟨0x040004, 10, 8⟩
def F.LP_PGA_MODE : Fld := ⟨0x040004, 4, 4⟩
def F.LP_PGA_GAIN_CODE : Fld := ⟨0x040004, 2, 0⟩
def F.LP_PGA_CAL : Fld := ⟨0x040008, 31, 0⟩
def F.LP_PGA_CAL_STEP_ERR0 : Fld := ⟨0x040008, 3, 0⟩
def F.LP_PGA_CAL_STEP_ERR1 : Fld := ⟨0x040008, 7, 4⟩
def F.LP_PGA_CAL_STEP_ERR2 : Fld := ⟨0x040008, 11, 8⟩
def F.LP_PGA_CAL_STEP_ERR3 : Fld := ⟨0x040008, 15, 12⟩
def F.LP_PGA_CAL_STEP_ERR4 : Fld := ⟨0x040008, 19, 16⟩
def F.LP_PGA_CAL_STEP_ERR5 : Fld := ⟨0x040008, 23, 20⟩
def F.LP_PGA_CAL_STEP_ERR6 : Fld := ⟨0x040008, 27, 24⟩
def F.LP_TX_CFG : Fld := ⟨0x04000C, 31, 0⟩
def F.LP_TX_CFG_INVERT : Fld := ⟨0x04000C, 6, 6⟩
def F.LP_TX_CFG_ATTEN : Fld := ⟨0x04000C, 5, 0⟩
def F.LP_WATCH : Fld := ⟨0x040010, 31, 0⟩
def F.LP_WATCH_WAKE_EN : Fld := ⟨0x040010, 12, 12⟩
def F.LP_WATCH_WINDOWS : Fld := ⟨0x040010, 11, 8⟩
def F.LP_WATCH_THRESH : Fld := ⟨0x040010, 7, 0⟩
def F.LP_MON_CFG : Fld := ⟨0x040014, 31, 0⟩
def F.LP_MON_CFG_MIN_RATIO : Fld := ⟨0x040014, 15, 4⟩
def F.LP_MON_CFG_STEP_DB : Fld := ⟨0x040014, 3, 0⟩
def F.LP_STATUS : Fld := ⟨0x040018, 31, 0⟩
def F.LP_STATUS_MON_RATIO : Fld := ⟨0x040018, 31, 20⟩
def F.LP_STATUS_WATCH_LEVEL : Fld := ⟨0x040018, 19, 12⟩
def F.LP_STATUS_GAIN_CODE : Fld := ⟨0x040018, 10, 8⟩
def F.LP_STATUS_STATE : Fld := ⟨0x040018, 2, 0⟩
def F.LP_FLAGS : Fld := ⟨0x04001C, 31, 0⟩
def F.LP_FLAGS_MON_LOW : Fld := ⟨0x04001C, 3, 3⟩
def F.LP_FLAGS_IMP_STEP : Fld := ⟨0x04001C, 2, 2⟩
def F.LP_FLAGS_DRIVE_FAULT : Fld := ⟨0x04001C, 1, 1⟩
def F.LP_FLAGS_OVERRANGE : Fld := ⟨0x04001C, 0, 0⟩
def F.LP_COUNTS : Fld := ⟨0x040020, 31, 0⟩
def F.LP_COUNTS_MON_STEPS : Fld := ⟨0x040020, 31, 16⟩
def F.LP_COUNTS_OVERRANGE : Fld := ⟨0x040020, 15, 0⟩
def F.LP_AEN_CFG : Fld := ⟨0x050000, 31, 0⟩
def F.LP_AEN_CFG_TAIL : Fld := ⟨0x050000, 15, 8⟩
def F.LP_AEN_CFG_LEAD : Fld := ⟨0x050000, 7, 0⟩
def F.LP_AEN_STAT : Fld := ⟨0x050004, 31, 0⟩
def F.LP_AEN_STAT_SHIFT_COUNT : Fld := ⟨0x050004, 31, 16⟩
def F.LP_AEN_STAT_LATE_COUNT : Fld := ⟨0x050004, 15, 0⟩
def F.LP_AEN_WORD : Fld := ⟨0x050008, 31, 0⟩
def F.LP_AEN_WORD_BITS : Fld := ⟨0x050008, 31, 0⟩
def F.LP_COMMIT : Fld := ⟨0x05001C, 31, 0⟩
def F.LP_COMMIT_CORDS : Fld := ⟨0x05001C, 8, 0⟩
def F.LP_COMMIT_STAT : Fld := ⟨0x050020, 31, 0⟩
def F.LP_COMMIT_STAT_PENDING : Fld := ⟨0x050020, 8, 0⟩
def F.LP_LREF_STAT : Fld := ⟨0x050024, 31, 0⟩
def F.LP_LREF_STAT_FAULT : Fld := ⟨0x050024, 8, 0⟩
def F.LP_WATCH_BAND : Fld := ⟨0x050028, 31, 0⟩
def F.LP_WATCH_BAND_LOW_KHZ : Fld := ⟨0x050028, 8, 0⟩
def F.LP_WATCH_BAND_HIGH_KHZ : Fld := ⟨0x050028, 24, 16⟩
def F.FC_CFG : Fld := ⟨0x060000, 31, 0⟩
def F.FC_CFG_FIR_RATIO : Fld := ⟨0x060000, 12, 0⟩
def F.FC_CFG_CIC_RATIO : Fld := ⟨0x060000, 20, 14⟩
def F.FC_CFG_OUT_SHIFT : Fld := ⟨0x060000, 24, 21⟩
def F.FC_CFG_SYNC_GROUP : Fld := ⟨0x060000, 28, 25⟩
def F.FC_NCO : Fld := ⟨0x060004, 31, 0⟩
def F.FC_NCO_FREQ : Fld := ⟨0x060004, 31, 0⟩
def F.FC_THR_CFG : Fld := ⟨0x060008, 31, 0⟩
def F.FC_THR_CFG_UPPER_EN : Fld := ⟨0x060008, 0, 0⟩
def F.FC_THR_CFG_LOWER_EN : Fld := ⟨0x060008, 1, 1⟩
def F.FC_THR_CFG_METRIC : Fld := ⟨0x060008, 2, 2⟩
def F.FC_THR_CFG_EXIT_EV : Fld := ⟨0x060008, 3, 3⟩
def F.FC_THR_CFG_MIN_DUR : Fld := ⟨0x060008, 31, 16⟩
def F.FC_THR_UPPER : Fld := ⟨0x06000C, 31, 0⟩
def F.FC_THR_UPPER_UPPER : Fld := ⟨0x06000C, 18, 0⟩
def F.FC_THR_LOWER : Fld := ⟨0x060010, 31, 0⟩
def F.FC_THR_LOWER_LOWER : Fld := ⟨0x060010, 18, 0⟩
def F.FC_THR_HYST : Fld := ⟨0x060014, 31, 0⟩
def F.FC_THR_HYST_HYST : Fld := ⟨0x060014, 17, 0⟩
def F.FC_BANK : Fld := ⟨0x060018, 31, 0⟩
def F.FC_BANK_ACTIVE_SET : Fld := ⟨0x060018, 5, 0⟩
def F.FC_BANK_STANDBY_SET : Fld := ⟨0x060018, 13, 8⟩
def F.FC_BANK_PENDING_SET : Fld := ⟨0x060018, 21, 16⟩
def F.FC_BANK_PENDING : Fld := ⟨0x060018, 24, 24⟩
def F.FC_BANK_FADING : Fld := ⟨0x060018, 25, 25⟩
def F.FC_SWAP : Fld := ⟨0x06001C, 31, 0⟩
def F.FC_SWAP_GO : Fld := ⟨0x06001C, 0, 0⟩
def F.FC_SWAP_MODE : Fld := ⟨0x06001C, 1, 1⟩
def F.FC_SWAP_FADE_LEN : Fld := ⟨0x06001C, 28, 16⟩
def F.FC_STATUS : Fld := ⟨0x060020, 31, 0⟩
def F.FC_STATUS_SETTLED : Fld := ⟨0x060020, 0, 0⟩
def F.FC_STATUS_HIGH : Fld := ⟨0x060020, 1, 1⟩
def F.FC_STATUS_LOW : Fld := ⟨0x060020, 2, 2⟩
def F.FC_STATUS_SETTLE_LEFT : Fld := ⟨0x060020, 31, 16⟩
def F.FC_FLAGS : Fld := ⟨0x060024, 31, 0⟩
def F.FC_FLAGS_ACC_SAT : Fld := ⟨0x060024, 0, 0⟩
def F.FC_FLAGS_OUT_SAT : Fld := ⟨0x060024, 1, 1⟩
def F.FC_FLAGS_SWAP_DEFERRED : Fld := ⟨0x060024, 2, 2⟩
def F.FC_FLAGS_SWAP_REFUSED : Fld := ⟨0x060024, 3, 3⟩
def F.FC_SAT_COUNT : Fld := ⟨0x060028, 31, 0⟩
def F.FC_SAT_COUNT_COUNT : Fld := ⟨0x060028, 15, 0⟩
def F.FC_LOAD : Fld := ⟨0x06002C, 31, 0⟩
def F.FC_LOAD_LOAD : Fld := ⟨0x06002C, 19, 0⟩
def F.FC_SET_DIR : Fld := ⟨0x078000, 31, 0⟩
def F.FC_SET_DIR_BASE : Fld := ⟨0x078000, 15, 0⟩
def F.FC_SET_DIR_TAPS_M1 : Fld := ⟨0x078000, 25, 16⟩
def F.FC_SET_DIR_VALID : Fld := ⟨0x078000, 31, 31⟩
def F.FC_COMMIT : Fld := ⟨0x079000, 31, 0⟩
def F.FC_COMMIT_CHAIN : Fld := ⟨0x079000, 9, 0⟩
def F.FC_COMMIT_SCOPE : Fld := ⟨0x079000, 16, 16⟩
def F.FC_COMMIT_STAT : Fld := ⟨0x079004, 31, 0⟩
def F.FC_COMMIT_STAT_PENDING : Fld := ⟨0x079004, 0, 0⟩
def F.FC_SYNC_CMD : Fld := ⟨0x079008, 31, 0⟩
def F.FC_SYNC_CMD_GROUPS : Fld := ⟨0x079008, 15, 1⟩
def F.FC_SYNC_STAT : Fld := ⟨0x07900C, 31, 0⟩
def F.FC_SYNC_STAT_TRIGGERED : Fld := ⟨0x07900C, 15, 1⟩
def F.FC_SYNC_STAT_LATE : Fld := ⟨0x07900C, 31, 17⟩
def F.FC_COEF_STAT : Fld := ⟨0x079010, 31, 0⟩
def F.FC_COEF_STAT_BLOCKED : Fld := ⟨0x079010, 15, 0⟩
def F.FC_COEF_STAT_MEM : Fld := ⟨0x079010, 19, 16⟩
def F.FC_AUX_ADDR : Fld := ⟨0x079014, 31, 0⟩
def F.FC_AUX_ADDR_WORD : Fld := ⟨0x079014, 12, 0⟩
def F.FC_AUX_ADDR_MEM : Fld := ⟨0x079014, 16, 16⟩
def F.FC_AUX_ADDR_AUTO_INC : Fld := ⟨0x079014, 17, 17⟩
def F.FC_AUX_DATA : Fld := ⟨0x079018, 31, 0⟩
def F.FC_AUX_DATA_COEF : Fld := ⟨0x079018, 17, 0⟩
def F.FC_LAST_SWAP : Fld := ⟨0x07901C, 31, 0⟩
def F.FC_LAST_SWAP_DEFERRED : Fld := ⟨0x07901C, 9, 0⟩
def F.FC_LAST_SWAP_REFUSED : Fld := ⟨0x07901C, 25, 16⟩
def F.FC_SYNC_CFG : Fld := ⟨0x079040, 31, 0⟩
def F.FC_SYNC_CFG_SOURCE : Fld := ⟨0x079040, 1, 0⟩
def F.FC_SYNC_CFG_SET : Fld := ⟨0x079040, 2, 2⟩
def F.FC_SYNC_CFG_PHASE : Fld := ⟨0x079040, 4, 3⟩
def F.FC_SYNC_CFG_POLARITY : Fld := ⟨0x079040, 5, 5⟩
def F.FC_SYNC_CFG_ONESHOT : Fld := ⟨0x079040, 6, 6⟩
def F.FC_SYNC_CFG_ARMED : Fld := ⟨0x079040, 7, 7⟩
def F.FC_SYNC_CFG_EV_EN : Fld := ⟨0x079040, 8, 8⟩
def F.FC_SYNC_CFG_OFFSET : Fld := ⟨0x079040, 31, 16⟩
def F.FC_SYNC_TIME_LO : Fld := ⟨0x079080, 31, 0⟩
def F.FC_SYNC_TIME_LO_TICK : Fld := ⟨0x079080, 31, 0⟩
def F.FC_SYNC_TIME_HI : Fld := ⟨0x079084, 31, 0⟩
def F.FC_SYNC_TIME_HI_TICK : Fld := ⟨0x079084, 31, 0⟩
def F.FC_ENGINE_LOAD : Fld := ⟨0x079100, 31, 0⟩
def F.FC_ENGINE_LOAD_NOMINAL : Fld := ⟨0x079100, 15, 0⟩
def F.FC_ENGINE_LOAD_NOW : Fld := ⟨0x079100, 31, 16⟩
def F.FC_SAT_PEND : Fld := ⟨0x079200, 31, 0⟩
def F.FC_SAT_PEND_BITS : Fld := ⟨0x079200, 31, 0⟩
def F.FC_THR_PEND : Fld := ⟨0x079300, 31, 0⟩
def F.FC_THR_PEND_BITS : Fld := ⟨0x079300, 31, 0⟩
def F.STR_CTRL : Fld := ⟨0x080000, 31, 0⟩
def F.STR_CTRL_RELOCK_EN : Fld := ⟨0x080000, 0, 0⟩
def F.STR_CTRL_CAPTURE_EN : Fld := ⟨0x080000, 1, 1⟩
def F.STR_CTRL_STEP_EN : Fld := ⟨0x080000, 2, 2⟩
def F.STR_CTRL_REPLAY_HDR : Fld := ⟨0x080000, 3, 3⟩
def F.STR_CTRL_REPLAY_SYNC : Fld := ⟨0x080000, 4, 4⟩
def F.STR_SYM_CFG : Fld := ⟨0x080004, 31, 0⟩
def F.STR_SYM_CFG_SPS : Fld := ⟨0x080004, 15, 0⟩
def F.STR_SYM_CFG_LEVELS : Fld := ⟨0x080004, 16, 16⟩
def F.STR_SYM_CFG_SYNC_LEN : Fld := ⟨0x080004, 18, 17⟩
def F.STR_SYNC_WORD : Fld := ⟨0x080008, 31, 0⟩
def F.STR_SYNC_WORD_WORD : Fld := ⟨0x080008, 31, 0⟩
def F.STR_DET : Fld := ⟨0x08000C, 31, 0⟩
def F.STR_DET_THRESH : Fld := ⟨0x08000C, 9, 0⟩
def F.STR_DET_QUAL_N : Fld := ⟨0x08000C, 21, 16⟩
def F.STR_DET_QUAL_M : Fld := ⟨0x08000C, 29, 24⟩
def F.STR_SYNC_CFG : Fld := ⟨0x080010, 31, 0⟩
def F.STR_SYNC_CFG_WINDOW : Fld := ⟨0x080010, 9, 0⟩
def F.STR_SYNC_CFG_MAX_ERR : Fld := ⟨0x080010, 17, 16⟩
def F.STR_AGC_CFG : Fld := ⟨0x080014, 31, 0⟩
def F.STR_AGC_CFG_TARGET : Fld := ⟨0x080014, 7, 0⟩
def F.STR_AFC_CFG : Fld := ⟨0x080018, 31, 0⟩
def F.STR_AFC_CFG_LIMIT : Fld := ⟨0x080018, 5, 0⟩
def F.STR_AFC_CFG_EN : Fld := ⟨0x080018, 8, 8⟩
def F.STR_MARGINS : Fld := ⟨0x08001C, 31, 0⟩
def F.STR_MARGINS_RELOCK_DB : Fld := ⟨0x08001C, 4, 0⟩
def F.STR_MARGINS_CAPTURE_DB : Fld := ⟨0x08001C, 12, 8⟩
def F.STR_CAL : Fld := ⟨0x080020, 31, 0⟩
def F.STR_CAL_OFFSET : Fld := ⟨0x080020, 11, 0⟩
def F.STR_CAL_DELAY : Fld := ⟨0x080020, 31, 16⟩
def F.STR_STATUS : Fld := ⟨0x080024, 31, 0⟩
def F.STR_STATUS_STATE : Fld := ⟨0x080024, 2, 0⟩
def F.STR_STATUS_REPLAY : Fld := ⟨0x080024, 4, 4⟩
def F.STR_STATUS_LISTEN : Fld := ⟨0x080024, 5, 5⟩
def F.STR_STATUS_FROZEN : Fld := ⟨0x080024, 6, 6⟩
def F.STR_STATUS_AGC_CODE : Fld := ⟨0x080024, 24, 16⟩
def F.STR_AFC_EST : Fld := ⟨0x080028, 31, 0⟩
def F.STR_AFC_EST_C : Fld := ⟨0x080028, 31, 0⟩
def F.STR_LAST_RX : Fld := ⟨0x08002C, 31, 0⟩
def F.STR_LAST_RX_STATUS : Fld := ⟨0x08002C, 3, 0⟩
def F.STR_LAST_RX_SYNC_ERRS : Fld := ⟨0x08002C, 5, 4⟩
def F.STR_LAST_RX_REPLAYED : Fld := ⟨0x08002C, 6, 6⟩
def F.STR_LAST_RX_COLLISION : Fld := ⟨0x08002C, 7, 7⟩
def F.STR_LAST_RX_STEP_APPLIED : Fld := ⟨0x08002C, 8, 8⟩
def F.STR_LAST_RX_EXCURSION : Fld := ⟨0x08002C, 9, 9⟩
def F.STR_LAST_RX_AFC_CLAMPED : Fld := ⟨0x08002C, 10, 10⟩
def F.STR_LAST_RX_STEP_CODES : Fld := ⟨0x08002C, 23, 16⟩
def F.STR_LAST_LEVEL : Fld := ⟨0x080030, 31, 0⟩
def F.STR_LAST_LEVEL_RSSI : Fld := ⟨0x080030, 11, 0⟩
def F.STR_LAST_LEVEL_SNR : Fld := ⟨0x080030, 25, 16⟩
def F.STR_LAST_TIME_LO : Fld := ⟨0x080034, 31, 0⟩
def F.STR_LAST_TIME_LO_TICK : Fld := ⟨0x080034, 31, 0⟩
def F.STR_LAST_TIME_HI : Fld := ⟨0x080038, 31, 0⟩
def F.STR_LAST_TIME_HI_TICK : Fld := ⟨0x080038, 31, 0⟩
def F.STR_CNT_DET : Fld := ⟨0x08003C, 31, 0⟩
def F.STR_CNT_DET_DETECT : Fld := ⟨0x08003C, 15, 0⟩
def F.STR_CNT_DET_QUAL_PASS : Fld := ⟨0x08003C, 31, 16⟩
def F.STR_CNT_SYNC : Fld := ⟨0x080040, 31, 0⟩
def F.STR_CNT_SYNC_SYNC : Fld := ⟨0x080040, 15, 0⟩
def F.STR_CNT_SYNC_HDR_FAIL : Fld := ⟨0x080040, 31, 16⟩
def F.STR_CNT_REPLAY : Fld := ⟨0x080044, 31, 0⟩
def F.STR_CNT_REPLAY_REPLAY_START : Fld := ⟨0x080044, 15, 0⟩
def F.STR_CNT_REPLAY_REPLAY_FOUND : Fld := ⟨0x080044, 31, 16⟩
def F.STR_CNT_CAP : Fld := ⟨0x080048, 31, 0⟩
def F.STR_CNT_CAP_RELOCK : Fld := ⟨0x080048, 15, 0⟩
def F.STR_CNT_CAP_CAPTURE : Fld := ⟨0x080048, 31, 16⟩
def F.STR_CNT_MISC : Fld := ⟨0x08004C, 31, 0⟩
def F.STR_CNT_MISC_COLLISION : Fld := ⟨0x08004C, 7, 0⟩
def F.STR_CNT_MISC_STEP : Fld := ⟨0x08004C, 15, 8⟩
def F.STR_CNT_MISC_LEVEL_LOST : Fld := ⟨0x08004C, 23, 16⟩
def F.STR_CNT_MISC_PREEMPT : Fld := ⟨0x08004C, 31, 24⟩
def F.STR_PORT_VIEW : Fld := ⟨0x080050, 31, 0⟩
def F.STR_PORT_VIEW_PGA_CODE : Fld := ⟨0x080050, 2, 0⟩
def F.STR_PORT_VIEW_REF_CODE : Fld := ⟨0x080050, 6, 4⟩
def F.STR_PORT_VIEW_WAITING : Fld := ⟨0x080050, 9, 8⟩
def F.STR_PORT_VIEW_HOLDERS : Fld := ⟨0x080050, 15, 12⟩
def F.STR_COMMIT : Fld := ⟨0x0B0000, 31, 0⟩
def F.STR_COMMIT_RECEIVER : Fld := ⟨0x0B0000, 9, 0⟩
def F.STR_COMMIT_SCOPE : Fld := ⟨0x0B0000, 17, 16⟩
def F.STR_COMMIT_STAT : Fld := ⟨0x0B0004, 31, 0⟩
def F.STR_COMMIT_STAT_PENDING : Fld := ⟨0x0B0004, 0, 0⟩
def F.STR_CNT_CLR : Fld := ⟨0x0B0008, 31, 0⟩
def F.STR_CNT_CLR_RECEIVER : Fld := ⟨0x0B0008, 9, 0⟩
def F.STR_CNT_CLR_ALL : Fld := ⟨0x0B0008, 16, 16⟩
def F.STR_EV_SRC : Fld := ⟨0x0B0040, 31, 0⟩
def F.STR_EV_SRC_RECEIVER : Fld := ⟨0x0B0040, 9, 0⟩
def F.STR_TONE_CENTRE : Fld := ⟨0x080058, 31, 0⟩
def F.STR_TONE_CENTRE_CENTRE : Fld := ⟨0x080058, 20, 0⟩
def F.STR_TONE_SPACING : Fld := ⟨0x08005C, 31, 0⟩
def F.STR_TONE_SPACING_SPACING : Fld := ⟨0x08005C, 15, 0⟩
def F.STR_TONE_SPACING_EN : Fld := ⟨0x08005C, 31, 31⟩
def F.STR_TX_CFG : Fld := ⟨0x080060, 31, 0⟩
def F.STR_TX_CFG_TX_RATE : Fld := ⟨0x080060, 2, 0⟩
def F.STR_TX_CFG_TX_LEVELS : Fld := ⟨0x080060, 3, 3⟩
def F.STR_TX_CFG_BT : Fld := ⟨0x080060, 5, 4⟩
def F.STR_TX_CFG_CODING : Fld := ⟨0x080060, 7, 6⟩
def F.STR_TX_CFG_PREAMBLE : Fld := ⟨0x080060, 12, 8⟩
def F.STR_TX_CFG_LEVEL : Fld := ⟨0x080060, 22, 16⟩
def F.STR_FRM_CFG : Fld := ⟨0x080064, 31, 0⟩
def F.STR_FRM_CFG_RX_RATE : Fld := ⟨0x080064, 2, 0⟩
def F.STR_FRM_LAST : Fld := ⟨0x080068, 31, 0⟩
def F.STR_FRM_LAST_VERDICT : Fld := ⟨0x080068, 3, 0⟩
def F.STR_FRM_LAST_CODING : Fld := ⟨0x080068, 5, 4⟩
def F.STR_FRM_LAST_VERSION : Fld := ⟨0x080068, 7, 6⟩
def F.STR_FRM_LAST_BLOCK : Fld := ⟨0x080068, 8, 8⟩
def F.STR_FRM_LAST_SECURED : Fld := ⟨0x080068, 9, 9⟩
def F.STR_FRM_LAST_TYPE : Fld := ⟨0x080068, 13, 10⟩
def F.STR_FRM_LAST_LENGTH : Fld := ⟨0x080068, 26, 16⟩
def F.STR_FRM_CNT_A : Fld := ⟨0x08006C, 31, 0⟩
def F.STR_FRM_CNT_A_ACCEPTED : Fld := ⟨0x08006C, 15, 0⟩
def F.STR_FRM_CNT_A_REJECTED : Fld := ⟨0x08006C, 31, 16⟩
def F.STR_FRM_CNT_B : Fld := ⟨0x080070, 31, 0⟩
def F.STR_FRM_CNT_B_FCS_ONLY : Fld := ⟨0x080070, 15, 0⟩
def F.STR_FRM_CNT_B_TX_FRAMES : Fld := ⟨0x080070, 31, 16⟩
def F.STR_FRM_LAST2 : Fld := ⟨0x080074, 31, 0⟩
def F.STR_FRM_LAST2_BLOCKS_GOOD : Fld := ⟨0x080074, 7, 0⟩
def F.STR_FRM_LAST2_ERASED_PCT : Fld := ⟨0x080074, 14, 8⟩
def F.STR_FRM_POLICY : Fld := ⟨0x0B0100, 31, 0⟩
def F.STR_FRM_POLICY_UNSEC_TYPES : Fld := ⟨0x0B0100, 11, 0⟩
def F.STR_VIT_STAT : Fld := ⟨0x0B0104, 31, 0⟩
def F.STR_VIT_STAT_QUEUED : Fld := ⟨0x0B0104, 7, 0⟩
def F.STR_VIT_STAT_BUSY : Fld := ⟨0x0B0104, 9, 8⟩
def F.STR_VIT_STAT_QUEUED_MAX : Fld := ⟨0x0B0104, 23, 16⟩
def F.STR_EV_SRC_96 : Fld := ⟨0x0B0140, 31, 0⟩
def F.STR_EV_SRC_96_RECEIVER : Fld := ⟨0x0B0140, 9, 0⟩
def F.LP_CREST : Fld := ⟨0x040024, 31, 0⟩
def F.LP_CREST_LIMIT : Fld := ⟨0x040024, 6, 0⟩
def F.LP_CREST_EN : Fld := ⟨0x040024, 8, 8⟩
def F.LP_CREST_STAT : Fld := ⟨0x040028, 31, 0⟩
def F.LP_CREST_STAT_LIMITED : Fld := ⟨0x040028, 15, 0⟩
def F.LP_CREST_STAT_MAX_CUT : Fld := ⟨0x040028, 23, 16⟩
def F.LP_CREST_STAT_DAC_CLIP : Fld := ⟨0x040028, 31, 24⟩
def F.LP_SHAPE : Fld := ⟨0x04002C, 31, 0⟩
def F.LP_SHAPE_SET : Fld := ⟨0x04002C, 5, 0⟩
def F.LP_SHAPE_EN : Fld := ⟨0x04002C, 8, 8⟩
def F.LP_MASK_CFG : Fld := ⟨0x040030, 31, 0⟩
def F.LP_MASK_CFG_EN : Fld := ⟨0x040030, 0, 0⟩
def F.LP_MASK_CFG_ACTION : Fld := ⟨0x040030, 1, 1⟩
def F.LP_MASK_CFG_COUNT : Fld := ⟨0x040030, 7, 4⟩
def F.LP_MASK_STAT : Fld := ⟨0x040034, 31, 0⟩
def F.LP_MASK_STAT_POINT : Fld := ⟨0x040034, 5, 0⟩
def F.LP_MASK_STAT_EXCESS : Fld := ⟨0x040034, 15, 8⟩
def F.LP_MASK_STAT_BLOCKS : Fld := ⟨0x040034, 31, 16⟩
def F.LP_MASK : Fld := ⟨0x050100, 31, 0⟩
def F.LP_MASK_LIMIT : Fld := ⟨0x050100, 8, 0⟩
def F.MNS_MAP_CFG : Fld := ⟨0x0C0000, 31, 0⟩
def F.MNS_MAP_CFG_TAU_LOG2 : Fld := ⟨0x0C0000, 3, 0⟩
def F.MNS_MAP_CFG_IMP_K : Fld := ⟨0x0C0000, 8, 4⟩
def F.MNS_MAP_CFG_CORD_TX_EXCL : Fld := ⟨0x0C0000, 12, 12⟩
def F.MNS_WEIGHT_CFG : Fld := ⟨0x0C0004, 31, 0⟩
def F.MNS_WEIGHT_CFG_MAP_WEIGHT : Fld := ⟨0x0C0004, 0, 0⟩
def F.MNS_WEIGHT_CFG_MIN_SEEN : Fld := ⟨0x0C0004, 11, 8⟩
def F.MNS_PHASE_CFG : Fld := ⟨0x0C0008, 31, 0⟩
def F.MNS_PHASE_CFG_OFFSET : Fld := ⟨0x0C0008, 15, 0⟩
def F.MNS_PHASE_CFG_V1_MARGIN : Fld := ⟨0x0C0008, 19, 16⟩
def F.MNS_PHASE_CFG_AGREE : Fld := ⟨0x0C0008, 22, 20⟩
def F.MNS_COMB_CFG : Fld := ⟨0x0C000C, 31, 0⟩
def F.MNS_COMB_CFG_MIN_SNR : Fld := ⟨0x0C000C, 9, 0⟩
def F.MNS_COMB_CFG_TRIPLE_AUTO : Fld := ⟨0x0C000C, 16, 16⟩
def F.MNS_COMMIT : Fld := ⟨0x0C0010, 31, 0⟩
def F.MNS_COMMIT_CORDS : Fld := ⟨0x0C0010, 8, 0⟩
def F.MNS_COMMIT_STAT : Fld := ⟨0x0C0014, 31, 0⟩
def F.MNS_COMMIT_STAT_PENDING : Fld := ⟨0x0C0014, 8, 0⟩
def F.MNS_PHASE_LAST : Fld := ⟨0x0C0018, 31, 0⟩
def F.MNS_PHASE_LAST_SESSION : Fld := ⟨0x0C0018, 15, 0⟩
def F.MNS_PHASE_LAST_RESULT : Fld := ⟨0x0C0018, 19, 16⟩
def F.MNS_PHASE_LAST_CONF : Fld := ⟨0x0C0018, 21, 20⟩
def F.MNS_PHASE_LAST_DELTA : Fld := ⟨0x0C0018, 31, 22⟩
def F.MNS_COMB_CNT : Fld := ⟨0x0C001C, 31, 0⟩
def F.MNS_COMB_CNT_DROPS : Fld := ⟨0x0C001C, 15, 0⟩
def F.MNS_COMB_CNT_DUPLICATES : Fld := ⟨0x0C001C, 31, 16⟩
def F.MNS_EV_SRC : Fld := ⟨0x0C0040, 31, 0⟩
def F.MNS_EV_SRC_SOURCE : Fld := ⟨0x0C0040, 15, 0⟩
def F.MNS_TRIPLE_MAP : Fld := ⟨0x0C0200, 31, 0⟩
def F.MNS_TRIPLE_MAP_PHASE00 : Fld := ⟨0x0C0200, 1, 0⟩
def F.MNS_TRIPLE_MAP_PHASE01 : Fld := ⟨0x0C0200, 3, 2⟩
def F.MNS_TRIPLE_MAP_PHASE02 : Fld := ⟨0x0C0200, 5, 4⟩
def F.MNS_TRIPLE_MAP_PHASE10 : Fld := ⟨0x0C0200, 7, 6⟩
def F.MNS_TRIPLE_MAP_PHASE11 : Fld := ⟨0x0C0200, 9, 8⟩
def F.MNS_TRIPLE_MAP_PHASE12 : Fld := ⟨0x0C0200, 11, 10⟩
def F.MNS_TRIPLE_MAP_PHASE20 : Fld := ⟨0x0C0200, 13, 12⟩
def F.MNS_TRIPLE_MAP_PHASE21 : Fld := ⟨0x0C0200, 15, 14⟩
def F.MNS_TRIPLE_MAP_PHASE22 : Fld := ⟨0x0C0200, 17, 16⟩
def F.MNS_TRIPLE_MAP_PHASE30 : Fld := ⟨0x0C0200, 19, 18⟩
def F.MNS_TRIPLE_MAP_PHASE31 : Fld := ⟨0x0C0200, 21, 20⟩
def F.MNS_TRIPLE_MAP_PHASE32 : Fld := ⟨0x0C0200, 23, 22⟩
def F.MNS_TRIPLE_MAP_PHASE40 : Fld := ⟨0x0C0200, 25, 24⟩
def F.MNS_TRIPLE_MAP_PHASE41 : Fld := ⟨0x0C0200, 27, 26⟩
def F.MNS_TRIPLE_MAP_PHASE42 : Fld := ⟨0x0C0200, 29, 28⟩
def F.MNS_SET_STAT : Fld := ⟨0x0C0100, 31, 0⟩
def F.MNS_SET_STAT_STATE : Fld := ⟨0x0C0100, 1, 0⟩
def F.MNS_SET_STAT_PRESENT : Fld := ⟨0x0C0100, 4, 2⟩
def F.MNS_SET_STAT_ROTATION : Fld := ⟨0x0C0100, 6, 5⟩
def F.MNS_SET_STAT_COAST_CYCLES : Fld := ⟨0x0C0100, 31, 16⟩
def F.MNS_PERIOD : Fld := ⟨0x0C0104, 31, 0⟩
def F.MNS_PERIOD_TICKS : Fld := ⟨0x0C0104, 19, 0⟩
def F.MNS_ZC_CFG : Fld := ⟨0x0C0108, 31, 0⟩
def F.MNS_ZC_CFG_DELAY : Fld := ⟨0x0C0108, 15, 0⟩
def F.MNS_ZC_CFG_HYST : Fld := ⟨0x0C0108, 31, 16⟩
def F.MNS_CYCLES : Fld := ⟨0x0C010C, 31, 0⟩
def F.MNS_CYCLES_COUNT : Fld := ⟨0x0C010C, 31, 0⟩
def F.MNS_ZC_TIME_LO : Fld := ⟨0x0C0110, 31, 0⟩
def F.MNS_ZC_TIME_LO_TICK : Fld := ⟨0x0C0110, 31, 0⟩
def F.MNS_ZC_TIME_HI : Fld := ⟨0x0C0114, 31, 0⟩
def F.MNS_ZC_TIME_HI_TICK : Fld := ⟨0x0C0114, 31, 0⟩
def F.MNS_PORT_CTL : Fld := ⟨0x0C1000, 31, 0⟩
def F.MNS_PORT_CTL_FREEZE : Fld := ⟨0x0C1000, 0, 0⟩
def F.MNS_PORT_CTL_CLEAR : Fld := ⟨0x0C1000, 1, 1⟩
def F.MNS_PORT_STAT : Fld := ⟨0x0C1004, 31, 0⟩
def F.MNS_PORT_STAT_BIN : Fld := ⟨0x0C1004, 6, 0⟩
def F.MNS_PORT_STAT_UPDATING : Fld := ⟨0x0C1004, 7, 7⟩
def F.MNS_PORT_STAT_CYCLES : Fld := ⟨0x0C1004, 31, 16⟩
def F.MNS_BLANK_CFG : Fld := ⟨0x0C4000, 31, 0⟩
def F.MNS_BLANK_CFG_K : Fld := ⟨0x0C4000, 4, 0⟩
def F.MNS_BLANK_CFG_GUARD : Fld := ⟨0x0C4000, 12, 8⟩
def F.MNS_BLANK_CFG_RMS_SHIFT : Fld := ⟨0x0C4000, 19, 16⟩
def F.MNS_BLANK_CFG_FORCE : Fld := ⟨0x0C4000, 25, 24⟩
def F.MNS_BLANK_STAT : Fld := ⟨0x0C4004, 31, 0⟩
def F.MNS_BLANK_STAT_MODE : Fld := ⟨0x0C4004, 0, 0⟩
def F.MNS_BLANK_STAT_LAST_PCT : Fld := ⟨0x0C4004, 14, 8⟩
def F.MNS_BLANK_STAT_IMPULSES : Fld := ⟨0x0C4004, 31, 16⟩
def F.MNS_NOISE_RMS : Fld := ⟨0x0C4008, 31, 0⟩
def F.MNS_NOISE_RMS_SIGMA : Fld := ⟨0x0C4008, 11, 0⟩
def F.MNS_COMB_GRP : Fld := ⟨0x0C8000, 31, 0⟩
def F.MNS_COMB_GRP_PORT0 : Fld := ⟨0x0C8000, 3, 0⟩
def F.MNS_COMB_GRP_STRAND0 : Fld := ⟨0x0C8000, 5, 4⟩
def F.MNS_COMB_GRP_VALID0 : Fld := ⟨0x0C8000, 7, 7⟩
def F.MNS_COMB_GRP_PORT1 : Fld := ⟨0x0C8000, 11, 8⟩
def F.MNS_COMB_GRP_STRAND1 : Fld := ⟨0x0C8000, 13, 12⟩
def F.MNS_COMB_GRP_VALID1 : Fld := ⟨0x0C8000, 15, 15⟩
def F.MNS_COMB_GRP_PORT2 : Fld := ⟨0x0C8000, 19, 16⟩
def F.MNS_COMB_GRP_STRAND2 : Fld := ⟨0x0C8000, 21, 20⟩
def F.MNS_COMB_GRP_VALID2 : Fld := ⟨0x0C8000, 23, 23⟩
def F.MNS_COMB_GRP_PORT3 : Fld := ⟨0x0C8000, 27, 24⟩
def F.MNS_COMB_GRP_STRAND3 : Fld := ⟨0x0C8000, 29, 28⟩
def F.MNS_COMB_GRP_VALID3 : Fld := ⟨0x0C8000, 31, 31⟩
def F.MNS_COMB_STAT : Fld := ⟨0x0C8004, 31, 0⟩
def F.MNS_COMB_STAT_JOINED : Fld := ⟨0x0C8004, 3, 0⟩
def F.MNS_COMB_STAT_DROPPED : Fld := ⟨0x0C8004, 7, 4⟩
def F.MNS_COMB_STAT_REF : Fld := ⟨0x0C8004, 9, 8⟩
def F.MNS_COMB_STAT_COMB_SNR : Fld := ⟨0x0C8004, 27, 16⟩
def F.MNS_COMB_W01 : Fld := ⟨0x0C8008, 31, 0⟩
def F.MNS_COMB_W01_W0 : Fld := ⟨0x0C8008, 11, 0⟩
def F.MNS_COMB_W01_W1 : Fld := ⟨0x0C8008, 27, 16⟩
def F.MNS_COMB_W23 : Fld := ⟨0x0C800C, 31, 0⟩
def F.MNS_COMB_W23_W2 : Fld := ⟨0x0C800C, 11, 0⟩
def F.MNS_COMB_W23_W3 : Fld := ⟨0x0C800C, 27, 16⟩
def F.PLN_CTRL : Fld := ⟨0x0D0000, 31, 0⟩
def F.PLN_CTRL_CLASS_EN : Fld := ⟨0x0D0000, 5, 0⟩
def F.PLN_CTRL_SUSPEND : Fld := ⟨0x0D0000, 8, 8⟩
def F.PLN_TIMING : Fld := ⟨0x0D0004, 31, 0⟩
def F.PLN_TIMING_TA_GUARD : Fld := ⟨0x0D0004, 7, 0⟩
def F.PLN_TIMING_GAP : Fld := ⟨0x0D0004, 15, 8⟩
def F.PLN_RATE : Fld := ⟨0x0D0008, 31, 0⟩
def F.PLN_RATE_UP_DB : Fld := ⟨0x0D0008, 5, 0⟩
def F.PLN_RATE_DOWN_DB : Fld := ⟨0x0D0008, 13, 8⟩
def F.PLN_RATE_UP_COUNT : Fld := ⟨0x0D0008, 19, 16⟩
def F.PLN_RATE_AVG_SHIFT : Fld := ⟨0x0D0008, 23, 20⟩
def F.PLN_WIN : Fld := ⟨0x0D000C, 31, 0⟩
def F.PLN_WIN_SLACK_BINS : Fld := ⟨0x0D000C, 4, 0⟩
def F.PLN_WIN_MIN_GAIN : Fld := ⟨0x0D000C, 11, 8⟩
def F.PLN_WIN_MIN_SEEN : Fld := ⟨0x0D000C, 19, 16⟩
def F.PLN_WIN_FREE_MARGIN : Fld := ⟨0x0D000C, 29, 24⟩
def F.PLN_COMB : Fld := ⟨0x0D0010, 31, 0⟩
def F.PLN_COMB_SPREAD : Fld := ⟨0x0D0010, 5, 0⟩
def F.PLN_COMB_MARGIN : Fld := ⟨0x0D0010, 13, 8⟩
def F.PLN_COMB_EN : Fld := ⟨0x0D0010, 16, 16⟩
def F.PLN_COMB_JOIN_MIN_SNR : Fld := ⟨0x0D0010, 29, 24⟩
def F.PLN_DISC : Fld := ⟨0x0D0014, 31, 0⟩
def F.PLN_DISC_PERIOD : Fld := ⟨0x0D0014, 15, 0⟩
def F.PLN_DISC_SLOTS_MIN : Fld := ⟨0x0D0014, 22, 16⟩
def F.PLN_DISC_SLOTS_MAX : Fld := ⟨0x0D0014, 30, 24⟩
def F.PLN_DISC2 : Fld := ⟨0x0D0018, 31, 0⟩
def F.PLN_DISC2_RATE : Fld := ⟨0x0D0018, 2, 0⟩
def F.PLN_DISC2_PERMIT : Fld := ⟨0x0D0018, 15, 8⟩
def F.PLN_DISC2_CAP : Fld := ⟨0x0D0018, 23, 16⟩
def F.PLN_ASSOC : Fld := ⟨0x0D001C, 31, 0⟩
def F.PLN_ASSOC_ADDR_BASE : Fld := ⟨0x0D001C, 15, 0⟩
def F.PLN_ASSOC_REFUSE_HOLD : Fld := ⟨0x0D001C, 23, 16⟩
def F.PLN_ASSOC_ASSIGN_TRIES : Fld := ⟨0x0D001C, 27, 24⟩
def F.PLN_PHASE : Fld := ⟨0x0D0020, 31, 0⟩
def F.PLN_PHASE_INTERVAL : Fld := ⟨0x0D0020, 15, 0⟩
def F.PLN_PHASE_CAP : Fld := ⟨0x0D0020, 23, 16⟩
def F.PLN_RETRY : Fld := ⟨0x0D0024, 31, 0⟩
def F.PLN_RETRY_BLOCK_ROUNDS : Fld := ⟨0x0D0024, 3, 0⟩
def F.PLN_RETRY_RETRY_MAX_PRIO : Fld := ⟨0x0D0024, 11, 8⟩
def F.PLN_RETRY_FORCE_BLOCK : Fld := ⟨0x0D0024, 16, 16⟩
def F.PLN_COMMIT : Fld := ⟨0x0D0028, 31, 0⟩
def F.PLN_COMMIT_GROUPS : Fld := ⟨0x0D0028, 7, 0⟩
def F.PLN_COMMIT_RATE : Fld := ⟨0x0D0028, 8, 8⟩
def F.PLN_COMMIT_LIMITS : Fld := ⟨0x0D0028, 9, 9⟩
def F.PLN_COMMIT_STAT : Fld := ⟨0x0D002C, 31, 0⟩
def F.PLN_COMMIT_STAT_PENDING : Fld := ⟨0x0D002C, 0, 0⟩
def F.PLN_STAT : Fld := ⟨0x0D0030, 31, 0⟩
def F.PLN_STAT_UNREACHABLE : Fld := ⟨0x0D0030, 15, 0⟩
def F.PLN_STAT_OVERDUE : Fld := ⟨0x0D0030, 31, 16⟩
def F.PLN_KLP : Fld := ⟨0x0D0034, 31, 0⟩
def F.PLN_KLP_FLOOR : Fld := ⟨0x0D0034, 1, 0⟩
def F.PLN_KLP_MAX : Fld := ⟨0x0D0034, 3, 2⟩
def F.PLN_BAND : Fld := ⟨0x0D0038, 31, 0⟩
def F.PLN_BAND_LOW_KHZ : Fld := ⟨0x0D0038, 8, 0⟩
def F.PLN_BAND_HIGH_KHZ : Fld := ⟨0x0D0038, 24, 16⟩
def F.PLN_GRP_A : Fld := ⟨0x0D0040, 31, 0⟩
def F.PLN_GRP_A_INTERVAL : Fld := ⟨0x0D0040, 15, 0⟩
def F.PLN_GRP_A_RETRY_MAX : Fld := ⟨0x0D0040, 19, 16⟩
def F.PLN_GRP_A_LOST_MISSES : Fld := ⟨0x0D0040, 27, 24⟩
def F.PLN_GRP_B : Fld := ⟨0x0D0044, 31, 0⟩
def F.PLN_GRP_B_MIN_RATE : Fld := ⟨0x0D0044, 2, 0⟩
def F.PLN_GRP_B_MAX_RATE : Fld := ⟨0x0D0044, 6, 4⟩
def F.PLN_GRP_B_ALLOW_4FSK : Fld := ⟨0x0D0044, 8, 8⟩
def F.PLN_GRP_B_ALLOW_CODING : Fld := ⟨0x0D0044, 11, 9⟩
def F.PLN_GRP_B_WINDOW_EN : Fld := ⟨0x0D0044, 12, 12⟩
def F.PLN_GRP_B_COMB_EN : Fld := ⟨0x0D0044, 13, 13⟩
def F.PLN_PIN_SESSION : Fld := ⟨0x0D0100, 31, 0⟩
def F.PLN_PIN_SESSION_SESSION : Fld := ⟨0x0D0100, 15, 0⟩
def F.PLN_PIN_PLACE : Fld := ⟨0x0D0104, 31, 0⟩
def F.PLN_PIN_PLACE_PORT_MASK : Fld := ⟨0x0D0104, 15, 0⟩
def F.PLN_PIN_PLACE_CORD : Fld := ⟨0x0D0104, 19, 16⟩
def F.PLN_PIN_PLACE_SLOT : Fld := ⟨0x0D0104, 21, 20⟩
def F.PLN_PIN_MODE : Fld := ⟨0x0D0108, 31, 0⟩
def F.PLN_PIN_MODE_RATE : Fld := ⟨0x0D0108, 2, 0⟩
def F.PLN_PIN_MODE_LEVELS : Fld := ⟨0x0D0108, 3, 3⟩
def F.PLN_PIN_MODE_CODING : Fld := ⟨0x0D0108, 5, 4⟩
def F.PLN_PIN_MODE_WIN_FIRST : Fld := ⟨0x0D0108, 14, 8⟩
def F.PLN_PIN_MODE_WIN_LAST : Fld := ⟨0x0D0108, 22, 16⟩
def F.PLN_PIN_CMD : Fld := ⟨0x0D010C, 31, 0⟩
def F.PLN_PIN_CMD_SET : Fld := ⟨0x0D010C, 4, 0⟩
def F.PLN_PIN_CMD_CLEAR_ALL : Fld := ⟨0x0D010C, 8, 8⟩
def F.PLN_PIN_CMD_READ : Fld := ⟨0x0D010C, 9, 9⟩
def F.PLN_PIN_STAT : Fld := ⟨0x0D0110, 31, 0⟩
def F.PLN_PIN_STAT_PINNED : Fld := ⟨0x0D0110, 4, 0⟩
def F.PLN_PIN_STAT_BUSY : Fld := ⟨0x0D0110, 8, 8⟩
def F.PLN_PIN_STAT_CONFLICT : Fld := ⟨0x0D0110, 9, 9⟩
def F.PLN_CORD_LOAD : Fld := ⟨0x0D0200, 31, 0⟩
def F.PLN_CORD_LOAD_LINE_PCT : Fld := ⟨0x0D0200, 7, 0⟩
def F.PLN_CORD_LOAD_DISC_PCT : Fld := ⟨0x0D0200, 15, 8⟩
def F.PLN_CORD_LOAD_ROUNDS_4 : Fld := ⟨0x0D0200, 23, 16⟩
def F.PLN_CORD_EXCH : Fld := ⟨0x0D0204, 31, 0⟩
def F.PLN_CORD_EXCH_COUNT : Fld := ⟨0x0D0204, 31, 0⟩
def F.PLN_CORD_FAIL : Fld := ⟨0x0D0208, 31, 0⟩
def F.PLN_CORD_FAIL_COUNT : Fld := ⟨0x0D0208, 31, 0⟩
def F.PLN_CORD_LAST : Fld := ⟨0x0D020C, 31, 0⟩
def F.PLN_CORD_LAST_SESSION : Fld := ⟨0x0D020C, 15, 0⟩
def F.PLN_CORD_LAST_OUTCOME : Fld := ⟨0x0D020C, 19, 16⟩
def F.PLN_CORD_LAST_CLASS : Fld := ⟨0x0D020C, 22, 20⟩
def F.PLN_CORD_LAST_ATTEMPT : Fld := ⟨0x0D020C, 27, 24⟩
def F.PLN_EV_SRC : Fld := ⟨0x0D0300, 31, 0⟩
def F.PLN_EV_SRC_SOURCE : Fld := ⟨0x0D0300, 15, 0⟩
def F.SES_CTRL : Fld := ⟨0x100000, 31, 0⟩
def F.SES_CTRL_AUTO_RETURN : Fld := ⟨0x100000, 0, 0⟩
def F.SES_STATUS : Fld := ⟨0x100004, 31, 0⟩
def F.SES_STATUS_MODE : Fld := ⟨0x100004, 1, 0⟩
def F.SES_STATUS_RESTORE_SRC : Fld := ⟨0x100004, 3, 2⟩
def F.SES_STATUS_SPOOL_HIGH : Fld := ⟨0x100004, 4, 4⟩
def F.SES_STATUS_SPOOL_FULL : Fld := ⟨0x100004, 5, 5⟩
def F.SES_STATUS_JOURNAL_HIGH : Fld := ⟨0x100004, 6, 6⟩
def F.SES_COUNTS : Fld := ⟨0x100008, 31, 0⟩
def F.SES_COUNTS_ACTIVE : Fld := ⟨0x100008, 15, 0⟩
def F.SES_COUNTS_PRIO : Fld := ⟨0x100008, 26, 16⟩
def F.SES_PARKED : Fld := ⟨0x10000C, 31, 0⟩
def F.SES_PARKED_PARKED : Fld := ⟨0x10000C, 15, 0⟩
def F.SES_PARKED_PROVISIONAL : Fld := ⟨0x10000C, 31, 16⟩
def F.SES_CACHE_STAT : Fld := ⟨0x100010, 31, 0⟩
def F.SES_CACHE_STAT_USED : Fld := ⟨0x100010, 12, 0⟩
def F.SES_CACHE_STAT_LEASED : Fld := ⟨0x100010, 28, 16⟩
def F.SES_CACHE_CNT : Fld := ⟨0x100014, 31, 0⟩
def F.SES_CACHE_CNT_FILLS : Fld := ⟨0x100014, 15, 0⟩
def F.SES_CACHE_CNT_EVICTIONS : Fld := ⟨0x100014, 31, 16⟩
def F.SES_LEASE_CFG : Fld := ⟨0x100018, 31, 0⟩
def F.SES_LEASE_CFG_TIME : Fld := ⟨0x100018, 7, 0⟩
def F.SES_LEASE_CFG_WAIT_MAX : Fld := ⟨0x100018, 15, 8⟩
def F.SES_LEASE_CNT : Fld := ⟨0x10001C, 31, 0⟩
def F.SES_LEASE_CNT_REVOKED : Fld := ⟨0x10001C, 15, 0⟩
def F.SES_LEASE_CNT_REFUSED : Fld := ⟨0x10001C, 31, 16⟩
def F.SES_JRN_CFG : Fld := ⟨0x100020, 31, 0⟩
def F.SES_JRN_CFG_HIGH : Fld := ⟨0x100020, 6, 0⟩
def F.SES_JRN_STAT : Fld := ⟨0x100024, 31, 0⟩
def F.SES_JRN_STAT_FILL : Fld := ⟨0x100024, 6, 0⟩
def F.SES_JRN_STAT_REBUILDS : Fld := ⟨0x100024, 31, 16⟩
def F.SES_SPOOL_CFG : Fld := ⟨0x100028, 31, 0⟩
def F.SES_SPOOL_CFG_HIGH : Fld := ⟨0x100028, 6, 0⟩
def F.SES_SPOOL_CFG_HYST : Fld := ⟨0x100028, 11, 8⟩
def F.SES_SPOOL_CFG_LOG_EVERY : Fld := ⟨0x100028, 31, 16⟩
def F.SES_SPOOL_STAT : Fld := ⟨0x10002C, 31, 0⟩
def F.SES_SPOOL_STAT_FILL : Fld := ⟨0x10002C, 9, 0⟩
def F.SES_SPOOL_STAT_DROPS : Fld := ⟨0x10002C, 31, 16⟩
def F.SES_CREDIT : Fld := ⟨0x100030, 31, 0⟩
def F.SES_CREDIT_BALANCE : Fld := ⟨0x100030, 23, 0⟩
def F.SES_DRAIN_CFG : Fld := ⟨0x100034, 31, 0⟩
def F.SES_DRAIN_CFG_ACK_TIMEOUT : Fld := ⟨0x100034, 15, 0⟩
def F.SES_DRAIN_CFG_STALL : Fld := ⟨0x100034, 31, 16⟩
def F.SES_DRAIN_CNT : Fld := ⟨0x100038, 31, 0⟩
def F.SES_DRAIN_CNT_REWINDS : Fld := ⟨0x100038, 15, 0⟩
def F.SES_DRAIN_CNT_STALLS : Fld := ⟨0x100038, 31, 16⟩
def F.SES_FLOW_CNT : Fld := ⟨0x10003C, 31, 0⟩
def F.SES_FLOW_CNT_PARKED_DROP : Fld := ⟨0x10003C, 15, 0⟩
def F.SES_FLOW_CNT_LEASE_DROP : Fld := ⟨0x10003C, 31, 16⟩
def F.SES_CMD : Fld := ⟨0x100040, 31, 0⟩
def F.SES_CMD_SESSION : Fld := ⟨0x100040, 15, 0⟩
def F.SES_CMD_OP : Fld := ⟨0x100040, 19, 16⟩
def F.SES_CMD_STAT : Fld := ⟨0x100044, 31, 0⟩
def F.SES_CMD_STAT_BUSY : Fld := ⟨0x100044, 0, 0⟩
def F.SES_CMD_STAT_RESULT : Fld := ⟨0x100044, 7, 4⟩
def F.SES_CMD_STAT_SESSION : Fld := ⟨0x100044, 31, 16⟩
def F.SES_RESTORE_CFG : Fld := ⟨0x100048, 31, 0⟩
def F.SES_RESTORE_CFG_HEADEND_WAIT : Fld := ⟨0x100048, 15, 0⟩
def F.SES_RESTORE_STAT : Fld := ⟨0x10004C, 31, 0⟩
def F.SES_RESTORE_STAT_RESTORED : Fld := ⟨0x10004C, 15, 0⟩
def F.SES_RESTORE_STAT_REMAINING : Fld := ⟨0x10004C, 31, 16⟩
def F.SES_SPOOL_RES : Fld := ⟨0x100050, 31, 0⟩
def F.SES_SPOOL_RES_PAGES : Fld := ⟨0x100050, 15, 0⟩
def F.SES_SPOOL_USED : Fld := ⟨0x100070, 31, 0⟩
def F.SES_SPOOL_USED_PAGES : Fld := ⟨0x100070, 23, 0⟩
def F.SES_SPOOL_NEXT : Fld := ⟨0x100090, 31, 0⟩
def F.SES_SPOOL_NEXT_SEQ : Fld := ⟨0x100090, 31, 0⟩
def F.SES_SPOOL_ACK : Fld := ⟨0x100094, 31, 0⟩
def F.SES_SPOOL_ACK_SEQ : Fld := ⟨0x100094, 31, 0⟩
def F.SES_EV_SRC : Fld := ⟨0x1000C0, 31, 0⟩
def F.SES_EV_SRC_SOURCE : Fld := ⟨0x1000C0, 15, 0⟩
def F.SES_CTX_WINDOW : Fld := ⟨0x108000, 31, 0⟩
def F.SES_CTX_WINDOW_DATA : Fld := ⟨0x108000, 31, 0⟩
def F.CXL_CTRL : Fld := ⟨0x104000, 31, 0⟩
def F.CXL_CTRL_RETRAIN : Fld := ⟨0x104000, 0, 0⟩
def F.CXL_LINK_STAT : Fld := ⟨0x104004, 31, 0⟩
def F.CXL_LINK_STAT_STATE : Fld := ⟨0x104004, 2, 0⟩
def F.CXL_LINK_STAT_WIDTH : Fld := ⟨0x104004, 6, 4⟩
def F.CXL_LINK_STAT_SPEED : Fld := ⟨0x104004, 9, 8⟩
def F.CXL_LINK_STAT_RETAINED : Fld := ⟨0x104004, 16, 16⟩
def F.CXL_DEV_SIZE : Fld := ⟨0x104008, 31, 0⟩
def F.CXL_DEV_SIZE_UNITS : Fld := ⟨0x104008, 15, 0⟩
def F.CXL_ERR_CFG : Fld := ⟨0x10400C, 31, 0⟩
def F.CXL_ERR_CFG_CE_THRESH : Fld := ⟨0x10400C, 15, 0⟩
def F.CXL_ERR_CFG_UE_LIMIT : Fld := ⟨0x10400C, 23, 16⟩
def F.CXL_ERR_CNT : Fld := ⟨0x104010, 31, 0⟩
def F.CXL_ERR_CNT_CE : Fld := ⟨0x104010, 15, 0⟩
def F.CXL_ERR_CNT_UE : Fld := ⟨0x104010, 31, 16⟩
def F.CXL_LINK_CNT : Fld := ⟨0x104014, 31, 0⟩
def F.CXL_LINK_CNT_DOWNS : Fld := ⟨0x104014, 15, 0⟩
def F.CXL_LINK_CNT_RETRAINS : Fld := ⟨0x104014, 31, 16⟩
def F.CXL_ERR_ADDR_LO : Fld := ⟨0x104018, 31, 0⟩
def F.CXL_ERR_ADDR_LO_ADDR : Fld := ⟨0x104018, 31, 0⟩
def F.CXL_ERR_ADDR_HI : Fld := ⟨0x10401C, 31, 0⟩
def F.CXL_ERR_ADDR_HI_ADDR : Fld := ⟨0x10401C, 31, 0⟩
def F.CXL_GENERATION : Fld := ⟨0x104020, 31, 0⟩
def F.CXL_GENERATION_GEN : Fld := ⟨0x104020, 31, 0⟩
def F.RFS_UP_CNT : Fld := ⟨0x0E0080, 31, 0⟩
def F.RFS_UP_CNT_HEARD : Fld := ⟨0x0E0080, 15, 0⟩
def F.RFS_UP_CNT_MISSED : Fld := ⟨0x0E0080, 31, 16⟩
def F.RFS_DOWN_CNT : Fld := ⟨0x0E0084, 31, 0⟩
def F.RFS_DOWN_CNT_SENT : Fld := ⟨0x0E0084, 15, 0⟩
def F.RFS_DOWN_CNT_REFUSED : Fld := ⟨0x0E0084, 31, 16⟩
def F.RFS_LAST_PAIR : Fld := ⟨0x0E0088, 31, 0⟩
def F.RFS_LAST_PAIR_SESSION : Fld := ⟨0x0E0088, 15, 0⟩
def F.RFS_LAST_PAIR_SLOT : Fld := ⟨0x0E0088, 21, 16⟩
def F.RFS_LAST_PAIR_OUTCOME : Fld := ⟨0x0E0088, 26, 24⟩
def F.RFS_HEAD_CFG : Fld := ⟨0x0E2000, 31, 0⟩
def F.RFS_HEAD_CFG_ENABLE : Fld := ⟨0x0E2000, 0, 0⟩
def F.RFS_HEAD_CFG_TX_EN : Fld := ⟨0x0E2000, 1, 1⟩
def F.RFS_HEAD_STAT : Fld := ⟨0x0E2004, 31, 0⟩
def F.RFS_HEAD_STAT_LINK : Fld := ⟨0x0E2004, 2, 0⟩
def F.RFS_HEAD_STAT_TX : Fld := ⟨0x0E2004, 3, 3⟩
def F.RFS_HEAD_STAT_GAIN_ENTRY : Fld := ⟨0x0E2004, 7, 4⟩
def F.RFS_HEAD_STAT_LINK_ERRS : Fld := ⟨0x0E2004, 31, 16⟩
def F.RFS_HEAD_TX : Fld := ⟨0x0E2008, 31, 0⟩
def F.RFS_HEAD_TX_LIMIT : Fld := ⟨0x0E2008, 6, 0⟩
def F.RFS_HEAD_TX_EN : Fld := ⟨0x0E2008, 8, 8⟩
def F.RFS_HEAD_TX_STAT : Fld := ⟨0x0E200C, 31, 0⟩
def F.RFS_HEAD_TX_STAT_LIMITED : Fld := ⟨0x0E200C, 15, 0⟩
def F.RFS_HEAD_TX_STAT_MAX_CUT : Fld := ⟨0x0E200C, 23, 16⟩
def F.RFS_GAIN_TBL : Fld := ⟨0x0E2040, 31, 0⟩
def F.RFS_GAIN_TBL_FS_DBM : Fld := ⟨0x0E2040, 11, 0⟩
def F.RFS_GAIN_TBL_VALID : Fld := ⟨0x0E2040, 16, 16⟩
def F.MAC_CTRL : Fld := ⟨0x0E4000, 31, 0⟩
def F.MAC_CTRL_RUN : Fld := ⟨0x0E4000, 0, 0⟩
def F.MAC_CTRL_SUBORD : Fld := ⟨0x0E4000, 1, 1⟩
def F.MAC_CTRL_ASSOC_EN : Fld := ⟨0x0E4000, 2, 2⟩
def F.MAC_STATUS : Fld := ⟨0x0E4004, 31, 0⟩
def F.MAC_STATUS_MODE : Fld := ⟨0x0E4004, 1, 0⟩
def F.MAC_STATUS_OFFSET : Fld := ⟨0x0E4004, 13, 8⟩
def F.MAC_STATUS_PARENT_MISS : Fld := ⟨0x0E4004, 23, 16⟩
def F.MAC_SFN : Fld := ⟨0x0E4008, 31, 0⟩
def F.MAC_SFN_SFN : Fld := ⟨0x0E4008, 31, 0⟩
def F.MAC_SF_START_LO : Fld := ⟨0x0E400C, 31, 0⟩
def F.MAC_SF_START_LO_TICK : Fld := ⟨0x0E400C, 31, 0⟩
def F.MAC_SF_START_HI : Fld := ⟨0x0E4010, 31, 0⟩
def F.MAC_SF_START_HI_TICK : Fld := ⟨0x0E4010, 31, 0⟩
def F.MAC_SF_CFG : Fld := ⟨0x0E4014, 31, 0⟩
def F.MAC_SF_CFG_SLOT_MS : Fld := ⟨0x0E4014, 6, 0⟩
def F.MAC_SF_CFG_GUARD : Fld := ⟨0x0E4014, 15, 8⟩
def F.MAC_SF_CFG_P2_MS : Fld := ⟨0x0E4014, 22, 16⟩
def F.MAC_SF_CFG_RTA : Fld := ⟨0x0E4014, 31, 24⟩
def F.MAC_CONT : Fld := ⟨0x0E4018, 31, 0⟩
def F.MAC_CONT_CONT_FIRST : Fld := ⟨0x0E4018, 5, 0⟩
def F.MAC_CONT_CONT_COUNT : Fld := ⟨0x0E4018, 11, 8⟩
def F.MAC_CONT_PERMIT : Fld := ⟨0x0E4018, 23, 16⟩
def F.MAC_CONT_BEACON_HEADS : Fld := ⟨0x0E4018, 27, 24⟩
def F.MAC_HOP : Fld := ⟨0x0E401C, 31, 0⟩
def F.MAC_HOP_LEN : Fld := ⟨0x0E401C, 6, 0⟩
def F.MAC_RASTER : Fld := ⟨0x0E4020, 31, 0⟩
def F.MAC_RASTER_BASE_KHZ : Fld := ⟨0x0E4020, 19, 0⟩
def F.MAC_RASTER_STEP : Fld := ⟨0x0E4020, 27, 20⟩
def F.MAC_BAND : Fld := ⟨0x0E4024, 31, 0⟩
def F.MAC_BAND_LOW_MHZ : Fld := ⟨0x0E4024, 9, 0⟩
def F.MAC_BAND_HIGH_MHZ : Fld := ⟨0x0E4024, 25, 16⟩
def F.MAC_RX : Fld := ⟨0x0E4028, 31, 0⟩
def F.MAC_RX_HEADROOM : Fld := ⟨0x0E4028, 4, 0⟩
def F.MAC_RX_CONT_ENTRY : Fld := ⟨0x0E4028, 11, 8⟩
def F.MAC_DWELL : Fld := ⟨0x0E402C, 31, 0⟩
def F.MAC_DWELL_EN : Fld := ⟨0x0E402C, 0, 0⟩
def F.MAC_DWELL_WINDOW_S : Fld := ⟨0x0E402C, 13, 8⟩
def F.MAC_DWELL_LIMIT_MS : Fld := ⟨0x0E402C, 31, 16⟩
def F.MAC_ASSOC : Fld := ⟨0x0E4030, 31, 0⟩
def F.MAC_ASSOC_PERIOD : Fld := ⟨0x0E4030, 2, 0⟩
def F.MAC_ASSOC_CMD_TRIES : Fld := ⟨0x0E4030, 11, 8⟩
def F.MAC_SUB : Fld := ⟨0x0E4034, 31, 0⟩
def F.MAC_SUB_PARENT_ID : Fld := ⟨0x0E4034, 5, 0⟩
def F.MAC_SUB_OFFSET_SLOTS : Fld := ⟨0x0E4034, 13, 8⟩
def F.MAC_SUB_LISTEN_HEAD : Fld := ⟨0x0E4034, 17, 16⟩
def F.MAC_SUB_SLEW : Fld := ⟨0x0E4034, 31, 24⟩
def F.MAC_SPI_CFG : Fld := ⟨0x0E4038, 31, 0⟩
def F.MAC_SPI_CFG_DIV : Fld := ⟨0x0E4038, 3, 0⟩
def F.MAC_SCRIPT_ADDR : Fld := ⟨0x0E403C, 31, 0⟩
def F.MAC_SCRIPT_ADDR_BYTE : Fld := ⟨0x0E403C, 14, 0⟩
def F.MAC_SCRIPT_ADDR_AUTO_INC : Fld := ⟨0x0E403C, 16, 16⟩
def F.MAC_SCRIPT_DATA : Fld := ⟨0x0E4040, 31, 0⟩
def F.MAC_SCRIPT_DATA_DATA : Fld := ⟨0x0E4040, 31, 0⟩
def F.MAC_COMMIT : Fld := ⟨0x0E4044, 31, 0⟩
def F.MAC_COMMIT_GO : Fld := ⟨0x0E4044, 0, 0⟩
def F.MAC_COMMIT_STAT : Fld := ⟨0x0E4048, 31, 0⟩
def F.MAC_COMMIT_STAT_PENDING : Fld := ⟨0x0E4048, 0, 0⟩
def F.MAC_PAIR_STAT : Fld := ⟨0x0E404C, 31, 0⟩
def F.MAC_PAIR_STAT_ASSIGNED : Fld := ⟨0x0E404C, 15, 0⟩
def F.MAC_PAIR_STAT_DRIFT_LOST : Fld := ⟨0x0E404C, 31, 16⟩
def F.MAC_DWELL_STAT : Fld := ⟨0x0E4050, 31, 0⟩
def F.MAC_DWELL_STAT_REFUSALS : Fld := ⟨0x0E4050, 15, 0⟩
def F.MAC_DWELL_STAT_CHANNEL : Fld := ⟨0x0E4050, 23, 16⟩
def F.MAC_DWELL_STAT_HEAD : Fld := ⟨0x0E4050, 25, 24⟩
def F.MAC_DWELL_STAT_CAUSE : Fld := ⟨0x0E4050, 26, 26⟩
def F.MAC_HOP_TBL : Fld := ⟨0x0E4100, 31, 0⟩
def F.MAC_HOP_TBL_CENTRE0 : Fld := ⟨0x0E4100, 7, 0⟩
def F.MAC_HOP_TBL_CENTRE1 : Fld := ⟨0x0E4100, 15, 8⟩
def F.MAC_HOP_TBL_CENTRE2 : Fld := ⟨0x0E4100, 23, 16⟩
def F.MAC_HOP_TBL_CENTRE3 : Fld := ⟨0x0E4100, 31, 24⟩
def F.MAC_SUBBAND_A : Fld := ⟨0x0E4200, 31, 0⟩
def F.MAC_SUBBAND_A_LOW_KHZ : Fld := ⟨0x0E4200, 19, 0⟩
def F.MAC_SUBBAND_B : Fld := ⟨0x0E4204, 31, 0⟩
def F.MAC_SUBBAND_B_WIDTH : Fld := ⟨0x0E4204, 11, 0⟩
def F.MAC_SUBBAND_B_DUTY : Fld := ⟨0x0E4204, 25, 12⟩
def F.MAC_DUTY_USED : Fld := ⟨0x0E4240, 31, 0⟩
def F.MAC_DUTY_USED_PERMILLE : Fld := ⟨0x0E4240, 9, 0⟩
def F.MAC_OBS : Fld := ⟨0x0E4300, 31, 0⟩
def F.MAC_OBS_NODE : Fld := ⟨0x0E4300, 5, 0⟩
def F.MAC_OBS_VALID : Fld := ⟨0x0E4300, 6, 6⟩
def F.MAC_OBS_OFFSET : Fld := ⟨0x0E4300, 13, 8⟩
def F.MAC_OBS_AGE : Fld := ⟨0x0E4300, 31, 16⟩
def F.MAC_EV_SRC : Fld := ⟨0x0E4400, 31, 0⟩
def F.MAC_EV_SRC_SOURCE : Fld := ⟨0x0E4400, 15, 0⟩
def F.MSH_CTRL : Fld := ⟨0x0F0000, 31, 0⟩
def F.MSH_CTRL_HANDOFF_EN : Fld := ⟨0x0F0000, 0, 0⟩
def F.MSH_CTRL_ASSIST_EN : Fld := ⟨0x0F0000, 1, 1⟩
def F.MSH_CTRL_LEARN_EN : Fld := ⟨0x0F0000, 2, 2⟩
def F.MSH_CFG : Fld := ⟨0x0F0004, 31, 0⟩
def F.MSH_CFG_TTL_DEFAULT : Fld := ⟨0x0F0004, 3, 0⟩
def F.MSH_CFG_TTL_BCAST : Fld := ⟨0x0F0004, 7, 4⟩
def F.MSH_CFG_ASSIST_HEADS : Fld := ⟨0x0F0004, 11, 8⟩
def F.MSH_CFG_ROUTE_MAX_AGE : Fld := ⟨0x0F0004, 31, 16⟩
def F.MSH_TIMING : Fld := ⟨0x0F0008, 31, 0⟩
def F.MSH_TIMING_RESEND_SF : Fld := ⟨0x0F0008, 7, 0⟩
def F.MSH_COMMIT : Fld := ⟨0x0F000C, 31, 0⟩
def F.MSH_COMMIT_GO : Fld := ⟨0x0F000C, 0, 0⟩
def F.MSH_COMMIT_STAT : Fld := ⟨0x0F0010, 31, 0⟩
def F.MSH_COMMIT_STAT_PENDING : Fld := ⟨0x0F0010, 0, 0⟩
def F.MSH_STAT : Fld := ⟨0x0F0014, 31, 0⟩
def F.MSH_STAT_ROUTES : Fld := ⟨0x0F0014, 13, 0⟩
def F.MSH_STAT_SEEN : Fld := ⟨0x0F0014, 28, 16⟩
def F.MSH_CNT_OUT : Fld := ⟨0x0F0018, 31, 0⟩
def F.MSH_CNT_OUT_HANDOFF_SENT : Fld := ⟨0x0F0018, 15, 0⟩
def F.MSH_CNT_OUT_HANDOFF_RCVD : Fld := ⟨0x0F0018, 31, 16⟩
def F.MSH_CNT_DROP : Fld := ⟨0x0F001C, 31, 0⟩
def F.MSH_CNT_DROP_DUP : Fld := ⟨0x0F001C, 7, 0⟩
def F.MSH_CNT_DROP_ECHO : Fld := ⟨0x0F001C, 15, 8⟩
def F.MSH_CNT_DROP_BAD_RT : Fld := ⟨0x0F001C, 23, 16⟩
def F.MSH_CNT_DROP_HANDOFF_DROP : Fld := ⟨0x0F001C, 31, 24⟩
def F.MSH_CNT_ROUTE : Fld := ⟨0x0F0020, 31, 0⟩
def F.MSH_CNT_ROUTE_MISSES : Fld := ⟨0x0F0020, 15, 0⟩
def F.MSH_CNT_ROUTE_FLOODS_SENT : Fld := ⟨0x0F0020, 31, 16⟩
def F.MSH_ROUTE_CMD : Fld := ⟨0x0F0024, 31, 0⟩
def F.MSH_ROUTE_CMD_DEST : Fld := ⟨0x0F0024, 15, 0⟩
def F.MSH_ROUTE_CMD_CLEAR_ONE : Fld := ⟨0x0F0024, 16, 16⟩
def F.MSH_ROUTE_CMD_CLEAR_ALL : Fld := ⟨0x0F0024, 17, 17⟩
def F.MSH_FSEQ : Fld := ⟨0x0F0028, 31, 0⟩
def F.MSH_FSEQ_NEXT : Fld := ⟨0x0F0028, 15, 0⟩
def F.MSH_EV_SRC : Fld := ⟨0x0F0100, 31, 0⟩
def F.MSH_EV_SRC_SOURCE : Fld := ⟨0x0F0100, 15, 0⟩
def F.CIP_CTRL : Fld := ⟨0x110000, 31, 0⟩
def F.CIP_CTRL_PREFETCH : Fld := ⟨0x110000, 0, 0⟩
def F.CIP_CTRL_AUTO_UNFENCE : Fld := ⟨0x110000, 1, 1⟩
def F.CIP_CTRL_RAW_EV : Fld := ⟨0x110000, 2, 2⟩
def F.CIP_STATUS : Fld := ⟨0x110004, 31, 0⟩
def F.CIP_STATUS_ANCHOR : Fld := ⟨0x110004, 0, 0⟩
def F.CIP_STATUS_FENCED : Fld := ⟨0x110004, 1, 1⟩
def F.CIP_STATUS_ENTROPY_OK : Fld := ⟨0x110004, 2, 2⟩
def F.CIP_STATUS_RAW_BUSY : Fld := ⟨0x110004, 3, 3⟩
def F.CIP_STATUS_FENCES : Fld := ⟨0x110004, 7, 4⟩
def F.CIP_CFG : Fld := ⟨0x110008, 31, 0⟩
def F.CIP_CFG_AHEAD : Fld := ⟨0x110008, 11, 0⟩
def F.CIP_COMMIT : Fld := ⟨0x11000C, 31, 0⟩
def F.CIP_COMMIT_GO : Fld := ⟨0x11000C, 0, 0⟩
def F.CIP_COMMIT_STAT : Fld := ⟨0x110010, 31, 0⟩
def F.CIP_COMMIT_STAT_PENDING : Fld := ⟨0x110010, 0, 0⟩
def F.CIP_FINGERPRINT_LO : Fld := ⟨0x110014, 31, 0⟩
def F.CIP_FINGERPRINT_LO_FP : Fld := ⟨0x110014, 31, 0⟩
def F.CIP_FINGERPRINT_HI : Fld := ⟨0x110018, 31, 0⟩
def F.CIP_FINGERPRINT_HI_FP : Fld := ⟨0x110018, 31, 0⟩
def F.CIP_ANCHOR_CMD : Fld := ⟨0x11001C, 31, 0⟩
def F.CIP_ANCHOR_CMD_KEY : Fld := ⟨0x11001C, 7, 0⟩
def F.CIP_ANCHOR_CMD_PROGRAM : Fld := ⟨0x11001C, 8, 8⟩
def F.CIP_ANCHOR_STAT : Fld := ⟨0x110020, 31, 0⟩
def F.CIP_ANCHOR_STAT_BUSY : Fld := ⟨0x110020, 0, 0⟩
def F.CIP_ANCHOR_STAT_RESULT : Fld := ⟨0x110020, 3, 1⟩
def F.CIP_KCACHE_CMD : Fld := ⟨0x110024, 31, 0⟩
def F.CIP_KCACHE_CMD_FLUSH : Fld := ⟨0x110024, 0, 0⟩
def F.CIP_KCACHE_STAT : Fld := ⟨0x110028, 31, 0⟩
def F.CIP_KCACHE_STAT_HITS : Fld := ⟨0x110028, 15, 0⟩
def F.CIP_KCACHE_STAT_MISSES : Fld := ⟨0x110028, 31, 16⟩
def F.CIP_CNT_A : Fld := ⟨0x11002C, 31, 0⟩
def F.CIP_CNT_A_MIC_FAIL : Fld := ⟨0x11002C, 15, 0⟩
def F.CIP_CNT_A_REPLAY : Fld := ⟨0x11002C, 31, 16⟩
def F.CIP_CNT_B : Fld := ⟨0x110030, 31, 0⟩
def F.CIP_CNT_B_REPEAT : Fld := ⟨0x110030, 15, 0⟩
def F.CIP_CNT_B_EPOCH_MISS : Fld := ⟨0x110030, 31, 16⟩
def F.CIP_CNT_C : Fld := ⟨0x110034, 31, 0⟩
def F.CIP_CNT_C_FAULTS : Fld := ⟨0x110034, 15, 0⟩
def F.CIP_CNT_C_FENCED_DROP : Fld := ⟨0x110034, 31, 16⟩
def F.CIP_VAULT_STAT : Fld := ⟨0x110038, 31, 0⟩
def F.CIP_VAULT_STAT_WEAR : Fld := ⟨0x110038, 9, 0⟩
def F.CIP_VAULT_STAT_WRITE_FAULTS : Fld := ⟨0x110038, 23, 16⟩
def F.CIP_VAULT_CNT : Fld := ⟨0x11003C, 31, 0⟩
def F.CIP_VAULT_CNT_WRITES : Fld := ⟨0x11003C, 31, 0⟩
def F.CIP_ANCHOR_DATA : Fld := ⟨0x110040, 31, 0⟩
def F.CIP_ANCHOR_DATA_DATA : Fld := ⟨0x110040, 31, 0⟩
def F.CIP_ENTROPY_STAT : Fld := ⟨0x110060, 31, 0⟩
def F.CIP_ENTROPY_STAT_FAILS : Fld := ⟨0x110060, 15, 0⟩
def F.CIP_REKEY_STAT : Fld := ⟨0x110064, 31, 0⟩
def F.CIP_REKEY_STAT_DUE : Fld := ⟨0x110064, 15, 0⟩
def F.CIP_REKEY_STAT_REQUIRED : Fld := ⟨0x110064, 31, 16⟩
def F.CIP_SES_CMD : Fld := ⟨0x110080, 31, 0⟩
def F.CIP_SES_CMD_SESSION : Fld := ⟨0x110080, 15, 0⟩
def F.CIP_SES_CMD_OP : Fld := ⟨0x110080, 19, 16⟩
def F.CIP_SES_STAT : Fld := ⟨0x110084, 31, 0⟩
def F.CIP_SES_STAT_BUSY : Fld := ⟨0x110084, 0, 0⟩
def F.CIP_SES_STAT_RESULT : Fld := ⟨0x110084, 3, 1⟩
def F.CIP_SES_STAT_SESSION : Fld := ⟨0x110084, 31, 16⟩
def F.CIP_SES_KEY : Fld := ⟨0x110088, 31, 0⟩
def F.CIP_SES_KEY_EPOCH : Fld := ⟨0x110088, 15, 0⟩
def F.CIP_SES_KEY_PROV : Fld := ⟨0x110088, 31, 16⟩
def F.CIP_SES_FLAGS : Fld := ⟨0x11008C, 31, 0⟩
def F.CIP_SES_FLAGS_CSTATE : Fld := ⟨0x11008C, 2, 0⟩
def F.CIP_SES_FLAGS_RX_INEXACT : Fld := ⟨0x11008C, 3, 3⟩
def F.CIP_SES_FLAGS_MIRROR : Fld := ⟨0x11008C, 4, 4⟩
def F.CIP_SES_FLAGS_REKEY_SENT : Fld := ⟨0x11008C, 27, 16⟩
def F.CIP_SES_TX_NEXT : Fld := ⟨0x110090, 31, 0⟩
def F.CIP_SES_TX_NEXT_VALUE : Fld := ⟨0x110090, 31, 0⟩
def F.CIP_SES_TXC : Fld := ⟨0x110094, 31, 0⟩
def F.CIP_SES_TXC_VALUE : Fld := ⟨0x110094, 31, 0⟩
def F.CIP_SES_RX_NEXT : Fld := ⟨0x110098, 31, 0⟩
def F.CIP_SES_RX_NEXT_VALUE : Fld := ⟨0x110098, 31, 0⟩
def F.CIP_SES_RXM : Fld := ⟨0x11009C, 31, 0⟩
def F.CIP_SES_RXM_VALUE : Fld := ⟨0x11009C, 31, 0⟩
def F.CIP_EV_SRC : Fld := ⟨0x1100C0, 31, 0⟩
def F.CIP_EV_SRC_SOURCE : Fld := ⟨0x1100C0, 15, 0⟩
def F.CIP_RAW_CFG : Fld := ⟨0x110100, 31, 0⟩
def F.CIP_RAW_CFG_MODE : Fld := ⟨0x110100, 2, 0⟩
def F.CIP_RAW_CFG_DECRYPT : Fld := ⟨0x110100, 3, 3⟩
def F.CIP_RAW_CFG_KEY_SRC : Fld := ⟨0x110100, 4, 4⟩
def F.CIP_RAW_CFG_KEY_256 : Fld := ⟨0x110100, 5, 5⟩
def F.CIP_RAW_CFG_TAG_LEN : Fld := ⟨0x110100, 12, 8⟩
def F.CIP_RAW_CFG_NONCE_LEN : Fld := ⟨0x110100, 19, 16⟩
def F.CIP_RAW_CFG_PURPOSE : Fld := ⟨0x110100, 21, 20⟩
def F.CIP_RAW_CFG_DIR : Fld := ⟨0x110100, 22, 22⟩
def F.CIP_RAW_LEN : Fld := ⟨0x110104, 31, 0⟩
def F.CIP_RAW_LEN_DATA_LEN : Fld := ⟨0x110104, 14, 0⟩
def F.CIP_RAW_LEN_AAD_LEN : Fld := ⟨0x110104, 30, 16⟩
def F.CIP_RAW_SESSION : Fld := ⟨0x110108, 31, 0⟩
def F.CIP_RAW_SESSION_SESSION : Fld := ⟨0x110108, 15, 0⟩
def F.CIP_RAW_SESSION_EPOCH : Fld := ⟨0x110108, 31, 16⟩
def F.CIP_RAW_CMD : Fld := ⟨0x11010C, 31, 0⟩
def F.CIP_RAW_CMD_GO : Fld := ⟨0x11010C, 0, 0⟩
def F.CIP_RAW_CMD_ABORT : Fld := ⟨0x11010C, 1, 1⟩
def F.CIP_RAW_STAT : Fld := ⟨0x110110, 31, 0⟩
def F.CIP_RAW_STAT_BUSY : Fld := ⟨0x110110, 0, 0⟩
def F.CIP_RAW_STAT_RESULT : Fld := ⟨0x110110, 3, 1⟩
def F.CIP_RAW_STAT_OUT_LEN : Fld := ⟨0x110110, 30, 16⟩
def F.CIP_RAW_IV : Fld := ⟨0x110120, 31, 0⟩
def F.CIP_RAW_IV_DATA : Fld := ⟨0x110120, 31, 0⟩
def F.CIP_RAW_TAG : Fld := ⟨0x110130, 31, 0⟩
def F.CIP_RAW_TAG_DATA : Fld := ⟨0x110130, 31, 0⟩
def F.CIP_RAW_KEY : Fld := ⟨0x110140, 31, 0⟩
def F.CIP_RAW_KEY_DATA : Fld := ⟨0x110140, 31, 0⟩
def F.CIP_RAW_BUF : Fld := ⟨0x114000, 31, 0⟩
def F.CIP_RAW_BUF_DATA : Fld := ⟨0x114000, 31, 0⟩
def F.CHK_CFG : Fld := ⟨0x118000, 31, 0⟩
def F.CHK_CFG_STREAM : Fld := ⟨0x118000, 3, 0⟩
def F.CHK_CFG_ALG : Fld := ⟨0x118000, 6, 4⟩
def F.CHK_CFG_WIN_MODE : Fld := ⟨0x118000, 8, 8⟩
def F.CHK_CFG_REPEAT : Fld := ⟨0x118000, 9, 9⟩
def F.CHK_CFG_DONE_EV : Fld := ⟨0x118000, 10, 10⟩
def F.CHK_SEL : Fld := ⟨0x118004, 31, 0⟩
def F.CHK_SEL_SELECT : Fld := ⟨0x118004, 15, 0⟩
def F.CHK_POLY : Fld := ⟨0x118008, 31, 0⟩
def F.CHK_POLY_POLY : Fld := ⟨0x118008, 31, 0⟩
def F.CHK_PARAM : Fld := ⟨0x11800C, 31, 0⟩
def F.CHK_PARAM_WIDTH : Fld := ⟨0x11800C, 5, 0⟩
def F.CHK_PARAM_REFIN : Fld := ⟨0x11800C, 8, 8⟩
def F.CHK_PARAM_REFOUT : Fld := ⟨0x11800C, 9, 9⟩
def F.CHK_INIT : Fld := ⟨0x118010, 31, 0⟩
def F.CHK_INIT_INIT : Fld := ⟨0x118010, 31, 0⟩
def F.CHK_XOROUT : Fld := ⟨0x118014, 31, 0⟩
def F.CHK_XOROUT_XOROUT : Fld := ⟨0x118014, 31, 0⟩
def F.CHK_WINDOW : Fld := ⟨0x118018, 31, 0⟩
def F.CHK_WINDOW_WINDOW : Fld := ⟨0x118018, 31, 0⟩
def F.CHK_ADDR_LO : Fld := ⟨0x11801C, 31, 0⟩
def F.CHK_ADDR_LO_ADDR : Fld := ⟨0x11801C, 31, 0⟩
def F.CHK_ADDR_HI : Fld := ⟨0x118020, 31, 0⟩
def F.CHK_ADDR_HI_ADDR : Fld := ⟨0x118020, 5, 0⟩
def F.CHK_EXPECT : Fld := ⟨0x118024, 31, 0⟩
def F.CHK_EXPECT_EXPECT : Fld := ⟨0x118024, 31, 0⟩
def F.CHK_CMD : Fld := ⟨0x118028, 31, 0⟩
def F.CHK_CMD_ARM : Fld := ⟨0x118028, 0, 0⟩
def F.CHK_CMD_STOP : Fld := ⟨0x118028, 1, 1⟩
def F.CHK_CMD_CLR_EXPECT : Fld := ⟨0x118028, 2, 2⟩
def F.CHK_STATUS : Fld := ⟨0x11802C, 31, 0⟩
def F.CHK_STATUS_STATE : Fld := ⟨0x11802C, 1, 0⟩
def F.CHK_STATUS_EXPECT_VALID : Fld := ⟨0x11802C, 2, 2⟩
def F.CHK_STATUS_OUTCOME : Fld := ⟨0x11802C, 6, 4⟩
def F.CHK_STATUS_CAUSE : Fld := ⟨0x11802C, 9, 8⟩
def F.CHK_STATUS_OWNER : Fld := ⟨0x11802C, 13, 12⟩
def F.CHK_RESULT : Fld := ⟨0x118030, 31, 0⟩
def F.CHK_RESULT_RESULT : Fld := ⟨0x118030, 31, 0⟩
def F.CHK_BYTES : Fld := ⟨0x118034, 31, 0⟩
def F.CHK_BYTES_BYTES : Fld := ⟨0x118034, 31, 0⟩
def F.CHK_CNT : Fld := ⟨0x118038, 31, 0⟩
def F.CHK_CNT_WINDOWS : Fld := ⟨0x118038, 15, 0⟩
def F.CHK_CNT_MISMATCHES : Fld := ⟨0x118038, 31, 16⟩
def F.CHK_COMMIT : Fld := ⟨0x118400, 31, 0⟩
def F.CHK_COMMIT_UNITS : Fld := ⟨0x118400, 15, 0⟩
def F.CHK_COMMIT_STAT : Fld := ⟨0x118404, 31, 0⟩
def F.CHK_COMMIT_STAT_PENDING : Fld := ⟨0x118404, 15, 0⟩
def F.CHK_JOB_UNITS : Fld := ⟨0x118408, 31, 0⟩
def F.CHK_JOB_UNITS_UNITS : Fld := ⟨0x118408, 15, 1⟩
def F.CHK_PEND : Fld := ⟨0x11840C, 31, 0⟩
def F.CHK_PEND_MISMATCH : Fld := ⟨0x11840C, 15, 0⟩
def F.CHK_EV_SRC : Fld := ⟨0x118440, 31, 0⟩
def F.CHK_EV_SRC_UNIT : Fld := ⟨0x118440, 3, 0⟩
def F.SPL_CTRL : Fld := ⟨0x128000, 31, 0⟩
def F.SPL_CTRL_EN : Fld := ⟨0x128000, 0, 0⟩
def F.SPL_CTRL_TAKEOVER_EN : Fld := ⟨0x128000, 1, 1⟩
def F.SPL_CFG : Fld := ⟨0x128004, 31, 0⟩
def F.SPL_CFG_VER_MIN : Fld := ⟨0x128004, 1, 0⟩
def F.SPL_CFG_VER_MAX : Fld := ⟨0x128004, 3, 2⟩
def F.SPL_CFG_AUDIT_STEP : Fld := ⟨0x128004, 15, 8⟩
def F.SPL_CFG_START_WAIT : Fld := ⟨0x128004, 23, 16⟩
def F.SPL_CMD : Fld := ⟨0x128008, 31, 0⟩
def F.SPL_CMD_SWITCHOVER : Fld := ⟨0x128008, 0, 0⟩
def F.SPL_CMD_UNPAIR : Fld := ⟨0x128008, 1, 1⟩
def F.SPL_CMD_RESYNC : Fld := ⟨0x128008, 2, 2⟩
def F.SPL_STATUS : Fld := ⟨0x12800C, 31, 0⟩
def F.SPL_STATUS_ROLE : Fld := ⟨0x12800C, 2, 0⟩
def F.SPL_STATUS_LINK : Fld := ⟨0x12800C, 5, 4⟩
def F.SPL_STATUS_LANES : Fld := ⟨0x12800C, 7, 6⟩
def F.SPL_STATUS_VERSION : Fld := ⟨0x12800C, 8, 8⟩
def F.SPL_STATUS_OWN_IN : Fld := ⟨0x12800C, 9, 9⟩
def F.SPL_STATUS_OWN_OUT : Fld := ⟨0x12800C, 10, 10⟩
def F.SPL_STATUS_PAIRED : Fld := ⟨0x12800C, 11, 11⟩
def F.SPL_STATUS_CMD_REFUSED : Fld := ⟨0x12800C, 12, 12⟩
def F.SPL_STATUS_CAUSE : Fld := ⟨0x12800C, 15, 13⟩
def F.SPL_PARTNER_LO : Fld := ⟨0x128010, 31, 0⟩
def F.SPL_PARTNER_LO_SERIAL : Fld := ⟨0x128010, 31, 0⟩
def F.SPL_PARTNER_HI : Fld := ⟨0x128014, 31, 0⟩
def F.SPL_PARTNER_HI_SERIAL : Fld := ⟨0x128014, 31, 0⟩
def F.SPL_OWN_TERM : Fld := ⟨0x128018, 31, 0⟩
def F.SPL_OWN_TERM_TERM : Fld := ⟨0x128018, 31, 0⟩
def F.SPL_MIRROR_STAT : Fld := ⟨0x12801C, 31, 0⟩
def F.SPL_MIRROR_STAT_UNACKED : Fld := ⟨0x12801C, 15, 0⟩
def F.SPL_MIRROR_STAT_LAG_US : Fld := ⟨0x12801C, 31, 16⟩
def F.SPL_SYNC_STAT : Fld := ⟨0x128020, 31, 0⟩
def F.SPL_SYNC_STAT_CONTEXTS : Fld := ⟨0x128020, 16, 0⟩
def F.SPL_SYNC_STAT_VAULT_DONE : Fld := ⟨0x128020, 17, 17⟩
def F.SPL_CNT_A : Fld := ⟨0x128024, 31, 0⟩
def F.SPL_CNT_A_TAKEOVERS : Fld := ⟨0x128024, 7, 0⟩
def F.SPL_CNT_A_SPLIT_CLAIMS : Fld := ⟨0x128024, 15, 8⟩
def F.SPL_CNT_A_TAG_FAILS : Fld := ⟨0x128024, 31, 16⟩
def F.SPL_CNT_B : Fld := ⟨0x128028, 31, 0⟩
def F.SPL_CNT_B_AUDIT_MISMATCH : Fld := ⟨0x128028, 15, 0⟩
def F.SPL_CNT_B_AUDIT_STEPS : Fld := ⟨0x128028, 31, 16⟩
def F.SPL_COMMIT : Fld := ⟨0x12802C, 31, 0⟩
def F.SPL_COMMIT_GO : Fld := ⟨0x12802C, 0, 0⟩
def F.SPL_COMMIT_STAT : Fld := ⟨0x128030, 31, 0⟩
def F.SPL_COMMIT_STAT_PENDING : Fld := ⟨0x128030, 0, 0⟩
def F.SPL_EV_SRC : Fld := ⟨0x128040, 31, 0⟩
def F.SPL_EV_SRC_SOURCE : Fld := ⟨0x128040, 15, 0⟩
def F.BRD_CTRL : Fld := ⟨0x120000, 31, 0⟩
def F.BRD_CTRL_EN : Fld := ⟨0x120000, 0, 0⟩
def F.BRD_CTRL_LEAVE : Fld := ⟨0x120000, 1, 1⟩
def F.BRD_CTRL_HO_EN : Fld := ⟨0x120000, 2, 2⟩
def F.BRD_CTRL_TIME_EN : Fld := ⟨0x120000, 3, 3⟩
def F.BRD_CFG : Fld := ⟨0x120004, 31, 0⟩
def F.BRD_CFG_VER_MIN : Fld := ⟨0x120004, 1, 0⟩
def F.BRD_CFG_VER_MAX : Fld := ⟨0x120004, 3, 2⟩
def F.BRD_CFG_FIXED_ID : Fld := ⟨0x120004, 13, 8⟩
def F.BRD_CFG_FIXED_EN : Fld := ⟨0x120004, 14, 14⟩
def F.BRD_HO_CFG : Fld := ⟨0x120008, 31, 0⟩
def F.BRD_HO_CFG_HO_MARGIN : Fld := ⟨0x120008, 5, 0⟩
def F.BRD_HO_CFG_HO_COUNT : Fld := ⟨0x120008, 11, 8⟩
def F.BRD_HO_CFG_HO_MIN_SIGHT : Fld := ⟨0x120008, 23, 16⟩
def F.BRD_TIME_CFG : Fld := ⟨0x12000C, 31, 0⟩
def F.BRD_TIME_CFG_INTERVAL : Fld := ⟨0x12000C, 7, 0⟩
def F.BRD_TIME_CFG_MASTER_EN : Fld := ⟨0x12000C, 8, 8⟩
def F.BRD_STATUS : Fld := ⟨0x120010, 31, 0⟩
def F.BRD_STATUS_NODE_ID : Fld := ⟨0x120010, 5, 0⟩
def F.BRD_STATUS_ID_VALID : Fld := ⟨0x120010, 6, 6⟩
def F.BRD_STATUS_KNOT_ID : Fld := ⟨0x120010, 13, 8⟩
def F.BRD_STATUS_KNOT : Fld := ⟨0x120010, 14, 14⟩
def F.BRD_STATUS_RING : Fld := ⟨0x120010, 17, 16⟩
def F.BRD_STATUS_NODES : Fld := ⟨0x120010, 30, 24⟩
def F.BRD_PORT_STAT : Fld := ⟨0x120014, 31, 0⟩
def F.BRD_PORT_STAT_LINK : Fld := ⟨0x120014, 1, 0⟩
def F.BRD_PORT_STAT_LANES : Fld := ⟨0x120014, 3, 2⟩
def F.BRD_PORT_STAT_VERSION : Fld := ⟨0x120014, 5, 4⟩
def F.BRD_PORT_STAT_WRAP : Fld := ⟨0x120014, 7, 7⟩
def F.BRD_PORT_STAT_NEIGHBOUR : Fld := ⟨0x120014, 13, 8⟩
def F.BRD_PORT_STAT_CAUSE : Fld := ⟨0x120014, 15, 14⟩
def F.BRD_PORT_STAT_DELAY : Fld := ⟨0x120014, 31, 16⟩
def F.BRD_BIGHT_STAT : Fld := ⟨0x12001C, 31, 0⟩
def F.BRD_BIGHT_STAT_STATE : Fld := ⟨0x12001C, 1, 0⟩
def F.BRD_BIGHT_STAT_HOLD : Fld := ⟨0x12001C, 2, 2⟩
def F.BRD_BIGHT_STAT_WEAR : Fld := ⟨0x12001C, 25, 16⟩
def F.BRD_BIGHT_OPS_LO : Fld := ⟨0x120020, 31, 0⟩
def F.BRD_BIGHT_OPS_LO_OPS : Fld := ⟨0x120020, 31, 0⟩
def F.BRD_BIGHT_OPS_HI : Fld := ⟨0x120024, 31, 0⟩
def F.BRD_BIGHT_OPS_HI_OPS : Fld := ⟨0x120024, 31, 0⟩
def F.BRD_TIME_OFS : Fld := ⟨0x120028, 31, 0⟩
def F.BRD_TIME_OFS_OFFSET : Fld := ⟨0x120028, 31, 0⟩
def F.BRD_TIME_STAT : Fld := ⟨0x12002C, 31, 0⟩
def F.BRD_TIME_STAT_MASTER_ID : Fld := ⟨0x12002C, 5, 0⟩
def F.BRD_TIME_STAT_VALID : Fld := ⟨0x12002C, 6, 6⟩
def F.BRD_TIME_STAT_HOPS : Fld := ⟨0x12002C, 13, 8⟩
def F.BRD_TIME_STAT_MASTER_PPS : Fld := ⟨0x12002C, 16, 16⟩
def F.BRD_TIME_STAT_IS_MASTER : Fld := ⟨0x12002C, 17, 17⟩
def F.BRD_HO_CMD : Fld := ⟨0x120030, 31, 0⟩
def F.BRD_HO_CMD_SESSION : Fld := ⟨0x120030, 15, 0⟩
def F.BRD_HO_CMD_TARGET : Fld := ⟨0x120030, 21, 16⟩
def F.BRD_HO_CMD_GO : Fld := ⟨0x120030, 24, 24⟩
def F.BRD_HO_STAT : Fld := ⟨0x120034, 31, 0⟩
def F.BRD_HO_STAT_SESSION : Fld := ⟨0x120034, 15, 0⟩
def F.BRD_HO_STAT_NODE : Fld := ⟨0x120034, 21, 16⟩
def F.BRD_HO_STAT_RESULT : Fld := ⟨0x120034, 26, 24⟩
def F.BRD_HO_STAT_REFUSE_CAUSE : Fld := ⟨0x120034, 29, 28⟩
def F.BRD_CNT_A : Fld := ⟨0x120038, 31, 0⟩
def F.BRD_CNT_A_TAG_FAILS : Fld := ⟨0x120038, 15, 0⟩
def F.BRD_CNT_A_DROPS : Fld := ⟨0x120038, 31, 16⟩
def F.BRD_CNT_B : Fld := ⟨0x12003C, 31, 0⟩
def F.BRD_CNT_B_WRAPS : Fld := ⟨0x12003C, 7, 0⟩
def F.BRD_CNT_B_INSERT_FAILS : Fld := ⟨0x12003C, 15, 8⟩
def F.BRD_CNT_B_HANDOVERS : Fld := ⟨0x12003C, 31, 16⟩
def F.BRD_COMMIT : Fld := ⟨0x120040, 31, 0⟩
def F.BRD_COMMIT_GO : Fld := ⟨0x120040, 0, 0⟩
def F.BRD_COMMIT_STAT : Fld := ⟨0x120044, 31, 0⟩
def F.BRD_COMMIT_STAT_PENDING : Fld := ⟨0x120044, 0, 0⟩
def F.BRD_BCAST_CMD : Fld := ⟨0x120048, 31, 0⟩
def F.BRD_BCAST_CMD_LENGTH : Fld := ⟨0x120048, 13, 0⟩
def F.BRD_BCAST_CMD_GO : Fld := ⟨0x120048, 16, 16⟩
def F.BRD_EV_SRC : Fld := ⟨0x120080, 31, 0⟩
def F.BRD_EV_SRC_SOURCE : Fld := ⟨0x120080, 15, 0⟩
def F.BRD_NODE_TBL_LO : Fld := ⟨0x120100, 31, 0⟩
def F.BRD_NODE_TBL_LO_POS : Fld := ⟨0x120100, 7, 0⟩
def F.BRD_NODE_TBL_LO_HOPS_E : Fld := ⟨0x120100, 13, 8⟩
def F.BRD_NODE_TBL_LO_HOPS_W : Fld := ⟨0x120100, 21, 16⟩
def F.BRD_NODE_TBL_LO_VALID : Fld := ⟨0x120100, 31, 31⟩
def F.BRD_NODE_TBL_HI : Fld := ⟨0x120104, 31, 0⟩
def F.BRD_NODE_TBL_HI_SERIAL : Fld := ⟨0x120104, 31, 0⟩
def F.HAL_CTRL : Fld := ⟨0x130000, 31, 0⟩
def F.HAL_CTRL_EN : Fld := ⟨0x130000, 0, 0⟩
def F.HAL_CFG : Fld := ⟨0x130004, 31, 0⟩
def F.HAL_CFG_PORTS : Fld := ⟨0x130004, 1, 0⟩
def F.HAL_CFG_UDP : Fld := ⟨0x130004, 2, 2⟩
def F.HAL_CFG_JUMBO : Fld := ⟨0x130004, 3, 3⟩
def F.HAL_CFG_VER_MIN : Fld := ⟨0x130004, 5, 4⟩
def F.HAL_CFG_VER_MAX : Fld := ⟨0x130004, 7, 6⟩
def F.HAL_CFG_HOP_LIMIT : Fld := ⟨0x130004, 15, 8⟩
def F.HAL_MAC_LO : Fld := ⟨0x130008, 31, 0⟩
def F.HAL_MAC_LO_MAC : Fld := ⟨0x130008, 31, 0⟩
def F.HAL_MAC_HI : Fld := ⟨0x13000C, 31, 0⟩
def F.HAL_MAC_HI_MAC : Fld := ⟨0x13000C, 15, 0⟩
def F.HAL_PEER_MAC_LO : Fld := ⟨0x130010, 31, 0⟩
def F.HAL_PEER_MAC_LO_MAC : Fld := ⟨0x130010, 31, 0⟩
def F.HAL_PEER_MAC_HI : Fld := ⟨0x130014, 31, 0⟩
def F.HAL_PEER_MAC_HI_MAC : Fld := ⟨0x130014, 15, 0⟩
def F.HAL_ETHERTYPE : Fld := ⟨0x130018, 31, 0⟩
def F.HAL_ETHERTYPE_TYPE : Fld := ⟨0x130018, 15, 0⟩
def F.HAL_UDP : Fld := ⟨0x13001C, 31, 0⟩
def F.HAL_UDP_LOCAL_PORT : Fld := ⟨0x13001C, 15, 0⟩
def F.HAL_UDP_PEER_PORT : Fld := ⟨0x13001C, 31, 16⟩
def F.HAL_IP6_SRC : Fld := ⟨0x130020, 31, 0⟩
def F.HAL_IP6_SRC_ADDR : Fld := ⟨0x130020, 31, 0⟩
def F.HAL_IP6_DST : Fld := ⟨0x130030, 31, 0⟩
def F.HAL_IP6_DST_ADDR : Fld := ⟨0x130030, 31, 0⟩
def F.HAL_COMMIT : Fld := ⟨0x130040, 31, 0⟩
def F.HAL_COMMIT_GO : Fld := ⟨0x130040, 0, 0⟩
def F.HAL_COMMIT_STAT : Fld := ⟨0x130044, 31, 0⟩
def F.HAL_COMMIT_STAT_PENDING : Fld := ⟨0x130044, 0, 0⟩
def F.HAL_STATUS : Fld := ⟨0x130048, 31, 0⟩
def F.HAL_STATUS_LINK : Fld := ⟨0x130048, 1, 0⟩
def F.HAL_STATUS_SENDING : Fld := ⟨0x130048, 3, 2⟩
def F.HAL_STATUS_VERSION : Fld := ⟨0x130048, 5, 4⟩
def F.HAL_STATUS_NEGOTIATED : Fld := ⟨0x130048, 6, 6⟩
def F.HAL_STATUS_CMD_QUEUE : Fld := ⟨0x130048, 14, 8⟩
def F.HAL_CNT_TX : Fld := ⟨0x13004C, 31, 0⟩
def F.HAL_CNT_TX_RECORDS : Fld := ⟨0x13004C, 31, 0⟩
def F.HAL_CNT_RX : Fld := ⟨0x130050, 31, 0⟩
def F.HAL_CNT_RX_RECORDS : Fld := ⟨0x130050, 31, 0⟩
def F.HAL_CNT_DROP : Fld := ⟨0x130054, 31, 0⟩
def F.HAL_CNT_DROP_CRC : Fld := ⟨0x130054, 7, 0⟩
def F.HAL_CNT_DROP_FORMAT : Fld := ⟨0x130054, 15, 8⟩
def F.HAL_CNT_DROP_NOT_NEGOTIATED : Fld := ⟨0x130054, 23, 16⟩
def F.HAL_CNT_DROP_FILTER : Fld := ⟨0x130054, 31, 24⟩
def F.HAL_EV_SRC : Fld := ⟨0x130060, 31, 0⟩
def F.HAL_EV_SRC_SOURCE : Fld := ⟨0x130060, 15, 0⟩
def F.HAL_EV_SRC251 : Fld := ⟨0x130070, 31, 0⟩
def F.HAL_EV_SRC251_SOURCE : Fld := ⟨0x130070, 15, 0⟩
def F.HAL_MSEC_CFG : Fld := ⟨0x130100, 31, 0⟩
def F.HAL_MSEC_CFG_EN : Fld := ⟨0x130100, 0, 0⟩
def F.HAL_MSEC_CFG_XPN : Fld := ⟨0x130100, 1, 1⟩
def F.HAL_MSEC_CFG_REPLAY_EN : Fld := ⟨0x130100, 2, 2⟩
def F.HAL_MSEC_WINDOW : Fld := ⟨0x130104, 31, 0⟩
def F.HAL_MSEC_WINDOW_WINDOW : Fld := ⟨0x130104, 31, 0⟩
def F.HAL_MSEC_RX_SCI_LO : Fld := ⟨0x130108, 31, 0⟩
def F.HAL_MSEC_RX_SCI_LO_SCI : Fld := ⟨0x130108, 31, 0⟩
def F.HAL_MSEC_RX_SCI_HI : Fld := ⟨0x13010C, 31, 0⟩
def F.HAL_MSEC_RX_SCI_HI_SCI : Fld := ⟨0x13010C, 31, 0⟩
def F.HAL_MSEC_SA_SEL : Fld := ⟨0x130110, 31, 0⟩
def F.HAL_MSEC_SA_SEL_AN : Fld := ⟨0x130110, 1, 0⟩
def F.HAL_MSEC_SA_SEL_DIR : Fld := ⟨0x130110, 4, 4⟩
def F.HAL_MSEC_SSCI : Fld := ⟨0x130114, 31, 0⟩
def F.HAL_MSEC_SSCI_SSCI : Fld := ⟨0x130114, 31, 0⟩
def F.HAL_MSEC_PN_LO : Fld := ⟨0x130118, 31, 0⟩
def F.HAL_MSEC_PN_LO_PN : Fld := ⟨0x130118, 31, 0⟩
def F.HAL_MSEC_PN_HI : Fld := ⟨0x13011C, 31, 0⟩
def F.HAL_MSEC_PN_HI_PN : Fld := ⟨0x13011C, 31, 0⟩
def F.HAL_MSEC_KEY : Fld := ⟨0x130120, 31, 0⟩
def F.HAL_MSEC_KEY_DATA : Fld := ⟨0x130120, 31, 0⟩
def F.HAL_MSEC_SALT : Fld := ⟨0x130140, 31, 0⟩
def F.HAL_MSEC_SALT_DATA : Fld := ⟨0x130140, 31, 0⟩
def F.HAL_MSEC_SA_CMD : Fld := ⟨0x13014C, 31, 0⟩
def F.HAL_MSEC_SA_CMD_INSTALL : Fld := ⟨0x13014C, 0, 0⟩
def F.HAL_MSEC_SA_CMD_ENABLE : Fld := ⟨0x13014C, 1, 1⟩
def F.HAL_MSEC_SA_CMD_DISABLE : Fld := ⟨0x13014C, 2, 2⟩
def F.HAL_MSEC_STAT : Fld := ⟨0x130150, 31, 0⟩
def F.HAL_MSEC_STAT_TX_AN : Fld := ⟨0x130150, 1, 0⟩
def F.HAL_MSEC_STAT_TX_VALID : Fld := ⟨0x130150, 2, 2⟩
def F.HAL_MSEC_STAT_RX_AN : Fld := ⟨0x130150, 7, 4⟩
def F.HAL_MSEC_STAT_PN_HIGH : Fld := ⟨0x130150, 8, 8⟩
def F.HAL_MSEC_STAT_PN_EXHAUSTED : Fld := ⟨0x130150, 9, 9⟩
def F.HAL_MSEC_CNT : Fld := ⟨0x130154, 31, 0⟩
def F.HAL_MSEC_CNT_ICV_FAIL : Fld := ⟨0x130154, 15, 0⟩
def F.HAL_MSEC_CNT_OTHER : Fld := ⟨0x130154, 31, 16⟩
def F.MGT_CFG : Fld := ⟨0x134000, 31, 0⟩
def F.MGT_CFG_DUMMY : Fld := ⟨0x134000, 3, 0⟩
def F.MGT_STATUS : Fld := ⟨0x134004, 31, 0⟩
def F.MGT_STATUS_READY : Fld := ⟨0x134004, 0, 0⟩
def F.MGT_STATUS_ERROR : Fld := ⟨0x134004, 1, 1⟩
def F.MGT_STATUS_CAUSE : Fld := ⟨0x134004, 4, 2⟩
def F.MGT_CNT : Fld := ⟨0x134008, 31, 0⟩
def F.MGT_CNT_TRANSACTIONS : Fld := ⟨0x134008, 15, 0⟩
def F.MGT_CNT_ERRORS : Fld := ⟨0x134008, 31, 16⟩
def F.MGT_WLOG_STAT : Fld := ⟨0x13400C, 31, 0⟩
def F.MGT_WLOG_STAT_OPEN : Fld := ⟨0x13400C, 4, 0⟩
def F.MGT_WLOG_STAT_WRITTEN : Fld := ⟨0x13400C, 31, 16⟩
def F.MGT_EV_SRC254 : Fld := ⟨0x134010, 31, 0⟩
def F.MGT_EV_SRC254_CAUSE : Fld := ⟨0x134010, 2, 0⟩
def F.EVC_LATCH : Fld := ⟨0x010000, 31, 0⟩
def F.EVC_ENABLE : Fld := ⟨0x010020, 31, 0⟩
def F.EVC_CLASS : Fld := ⟨0x010040, 31, 0⟩
def F.EVC_ROUTE : Fld := ⟨0x010080, 31, 0⟩
def F.EVC_ROUTE_IRQ_CLASSES : Fld := ⟨0x010080, 3, 0⟩
def F.EVC_ROUTE_HAL_CLASSES : Fld := ⟨0x010080, 7, 4⟩
def F.EVC_ROUTE_LOG_CLASSES : Fld := ⟨0x010080, 11, 8⟩
def F.EVC_RATE : Fld := ⟨0x010084, 31, 0⟩
def F.EVC_RATE_RATE_MS : Fld := ⟨0x010084, 15, 0⟩
def F.EVC_STATUS : Fld := ⟨0x010088, 31, 0⟩
def F.EVC_STATUS_IRQ : Fld := ⟨0x010088, 0, 0⟩
def F.EVC_STATUS_TOP : Fld := ⟨0x010088, 11, 4⟩
def F.EVC_STATUS_TOP_VALID : Fld := ⟨0x010088, 12, 12⟩
def F.EVC_STATUS_PENDING : Fld := ⟨0x010088, 24, 16⟩
def F.EVC_LAST : Fld := ⟨0x01008C, 31, 0⟩
def F.EVC_LAST_EVENT : Fld := ⟨0x01008C, 7, 0⟩
def F.EVC_LAST_RAISES : Fld := ⟨0x01008C, 31, 16⟩
def F.EVC_LAST_TIME_LO : Fld := ⟨0x010090, 31, 0⟩
def F.EVC_LAST_TIME_LO_TICK : Fld := ⟨0x010090, 31, 0⟩
def F.EVC_LAST_TIME_HI : Fld := ⟨0x010094, 31, 0⟩
def F.EVC_LAST_TIME_HI_TICK : Fld := ⟨0x010094, 31, 0⟩
def F.BLY_CTRL : Fld := ⟨0x138000, 31, 0⟩
def F.BLY_CTRL_PAUSE : Fld := ⟨0x138000, 0, 0⟩
def F.BLY_CFG : Fld := ⟨0x138004, 31, 0⟩
def F.BLY_CFG_DUTY : Fld := ⟨0x138004, 6, 0⟩
def F.BLY_CFG_STATUS_S : Fld := ⟨0x138004, 15, 8⟩
def F.BLY_PARAM : Fld := ⟨0x138008, 31, 0⟩
def F.BLY_PARAM_PARAM : Fld := ⟨0x138008, 31, 0⟩
def F.BLY_START : Fld := ⟨0x138018, 31, 0⟩
def F.BLY_START_KIND : Fld := ⟨0x138018, 3, 0⟩
def F.BLY_START_PRIORITY : Fld := ⟨0x138018, 5, 4⟩
def F.BLY_START_GO : Fld := ⟨0x138018, 8, 8⟩
def F.BLY_START_STAT : Fld := ⟨0x13801C, 31, 0⟩
def F.BLY_START_STAT_SLOT : Fld := ⟨0x13801C, 3, 0⟩
def F.BLY_START_STAT_VALID : Fld := ⟨0x13801C, 4, 4⟩
def F.BLY_START_STAT_RESULT : Fld := ⟨0x13801C, 11, 8⟩
def F.BLY_CANCEL : Fld := ⟨0x138020, 31, 0⟩
def F.BLY_CANCEL_SLOT : Fld := ⟨0x138020, 3, 0⟩
def F.BLY_CANCEL_GO : Fld := ⟨0x138020, 8, 8⟩
def F.BLY_STAT : Fld := ⟨0x138024, 31, 0⟩
def F.BLY_STAT_BUSY : Fld := ⟨0x138024, 15, 0⟩
def F.BLY_CNT : Fld := ⟨0x138028, 31, 0⟩
def F.BLY_CNT_OVERRUNS : Fld := ⟨0x138028, 15, 0⟩
def F.BLY_CNT_JOBS : Fld := ⟨0x138028, 31, 16⟩
def F.BLY_EV_SRC : Fld := ⟨0x138040, 31, 0⟩
def F.BLY_EV_SRC_SLOT : Fld := ⟨0x138040, 3, 0⟩
def F.BLY_SLOT_STAT : Fld := ⟨0x138100, 31, 0⟩
def F.BLY_SLOT_STAT_STATE : Fld := ⟨0x138100, 3, 0⟩
def F.BLY_SLOT_STAT_KIND : Fld := ⟨0x138100, 11, 8⟩
def F.BLY_SLOT_STAT_RESULT : Fld := ⟨0x138100, 15, 12⟩
def F.BLY_SLOT_STAT_PRIORITY : Fld := ⟨0x138100, 17, 16⟩
def F.BLY_SLOT_STAT_ORIGIN : Fld := ⟨0x138100, 31, 24⟩
def F.BLY_SLOT_DONE : Fld := ⟨0x138104, 31, 0⟩
def F.BLY_SLOT_DONE_VALUE : Fld := ⟨0x138104, 31, 0⟩
def F.BLY_SLOT_TOTAL : Fld := ⟨0x138108, 31, 0⟩
def F.BLY_SLOT_TOTAL_VALUE : Fld := ⟨0x138108, 31, 0⟩
def F.BLY_SLOT_ID : Fld := ⟨0x13810C, 31, 0⟩
def F.BLY_SLOT_ID_VALUE : Fld := ⟨0x13810C, 31, 0⟩
def F.BLY_SLOT_DATA : Fld := ⟨0x138110, 31, 0⟩
def F.BLY_SLOT_DATA_VALUE : Fld := ⟨0x138110, 31, 0⟩
def F.BLY_NVM_BUF : Fld := ⟨0x139000, 31, 0⟩
def F.BLY_NVM_BUF_DATA : Fld := ⟨0x139000, 31, 0⟩
def F.PWR_RESET_CAUSE : Fld := ⟨0x020000, 31, 0⟩
def F.PWR_RESET_CAUSE_CAUSE : Fld := ⟨0x020000, 1, 0⟩
def F.PWR_RESET_CAUSE_WARM_RESETS : Fld := ⟨0x020000, 31, 16⟩
def F.PWR_START_STAT : Fld := ⟨0x020004, 31, 0⟩
def F.PWR_START_STAT_STEP : Fld := ⟨0x020004, 3, 0⟩
def F.PWR_START_STAT_IMAGE : Fld := ⟨0x020004, 5, 4⟩
def F.PWR_START_STAT_FAIL_CAUSE : Fld := ⟨0x020004, 11, 8⟩
def F.PWR_START_STAT_START_MS : Fld := ⟨0x020004, 31, 16⟩
def F.PWR_IMAGE_VER : Fld := ⟨0x020008, 31, 0⟩
def F.PWR_IMAGE_VER_VERSION : Fld := ⟨0x020008, 31, 0⟩
def F.PWR_SUPPLY : Fld := ⟨0x02000C, 31, 0⟩
def F.PWR_SUPPLY_VIN : Fld := ⟨0x02000C, 10, 0⟩
def F.PWR_SUPPLY_TEMP : Fld := ⟨0x02000C, 27, 16⟩
def F.PWR_THERM_CFG : Fld := ⟨0x020010, 31, 0⟩
def F.PWR_THERM_CFG_HIGH_C : Fld := ⟨0x020010, 7, 0⟩
def F.PWR_THERM_CFG_CRIT_C : Fld := ⟨0x020010, 15, 8⟩
def F.PWR_SLEEP_CFG : Fld := ⟨0x020014, 31, 0⟩
def F.PWR_SLEEP_CFG_CORD_IDLE : Fld := ⟨0x020014, 7, 0⟩
def F.PWR_SLEEP_CFG_CXL_IDLE : Fld := ⟨0x020014, 15, 8⟩
def F.PWR_SLEEP_CFG_SLEEP_EN : Fld := ⟨0x020014, 16, 16⟩
def F.PWR_DOMAIN_STAT : Fld := ⟨0x020018, 31, 0⟩
def F.PWR_DOMAIN_STAT_CE_RUN : Fld := ⟨0x020018, 9, 0⟩
def F.PWR_DOMAIN_STAT_DECODE : Fld := ⟨0x020018, 12, 12⟩
def F.PWR_DOMAIN_STAT_CIPHER : Fld := ⟨0x020018, 13, 13⟩
def F.PWR_DOMAIN_STAT_RADIO : Fld := ⟨0x020018, 14, 14⟩
def F.PWR_DOMAIN_STAT_CXL_L1 : Fld := ⟨0x020018, 15, 15⟩
def F.PWR_DOMAIN_STAT_THERM_STOP : Fld := ⟨0x020018, 16, 16⟩
def F.PWR_DOMAIN_STAT_FALLBACK : Fld := ⟨0x020018, 17, 17⟩
def F.PWR_CXL_CFG : Fld := ⟨0x02001C, 31, 0⟩
def F.PWR_CXL_CFG_PERST_MIN : Fld := ⟨0x02001C, 7, 0⟩
def F.PWR_WAKE_CNT : Fld := ⟨0x020020, 31, 0⟩
def F.PWR_WAKE_CNT_ENERGY : Fld := ⟨0x020020, 15, 0⟩
def F.PWR_WAKE_CNT_PLANNED : Fld := ⟨0x020020, 31, 16⟩
def F.PWR_PROF_STAT : Fld := ⟨0x020024, 31, 0⟩
def F.PWR_PROF_STAT_PINS : Fld := ⟨0x020024, 1, 0⟩
def F.PWR_PROF_STAT_PRESENT : Fld := ⟨0x020024, 7, 4⟩
def F.PWR_EV_SRC : Fld := ⟨0x020040, 31, 0⟩
def F.PWR_EV_SRC_SOURCE : Fld := ⟨0x020040, 15, 0⟩
def F.CLK_STATUS : Fld := ⟨0x020800, 31, 0⟩
def F.CLK_STATUS_PLL_LOCK : Fld := ⟨0x020800, 0, 0⟩
def F.CLK_STATUS_REFCLK_OK : Fld := ⟨0x020800, 1, 1⟩
def F.CLK_STATUS_XT32_OK : Fld := ⟨0x020800, 2, 2⟩
def F.CLK_STATUS_SOURCE : Fld := ⟨0x020800, 5, 4⟩
def F.CLK_STATUS_PPS_LOCK : Fld := ⟨0x020800, 6, 6⟩
def F.CLK_PPS_CFG : Fld := ⟨0x020804, 31, 0⟩
def F.CLK_PPS_CFG_EN : Fld := ⟨0x020804, 0, 0⟩
def F.CLK_PPS_CFG_STEP_EN : Fld := ⟨0x020804, 1, 1⟩
def F.CLK_PPS_CFG_LOCK_TICKS : Fld := ⟨0x020804, 15, 8⟩
def F.CLK_PPS_CFG_STEP_LIMIT : Fld := ⟨0x020804, 31, 16⟩
def F.CLK_DISC_CFG : Fld := ⟨0x020808, 31, 0⟩
def F.CLK_DISC_CFG_SLEW_PPM : Fld := ⟨0x020808, 8, 0⟩
def F.CLK_DISC_CFG_BRAID_EN : Fld := ⟨0x020808, 12, 12⟩
def F.CLK_DISC_CFG_TC : Fld := ⟨0x020808, 23, 16⟩
def F.CLK_PPS_OUT : Fld := ⟨0x02080C, 31, 0⟩
def F.CLK_PPS_OUT_EN : Fld := ⟨0x02080C, 0, 0⟩
def F.CLK_PPS_OUT_WIDTH_MS : Fld := ⟨0x02080C, 15, 8⟩
def F.CLK_PPS_ERR : Fld := ⟨0x020810, 31, 0⟩
def F.CLK_PPS_ERR_E : Fld := ⟨0x020810, 31, 0⟩
def F.CLK_RATE : Fld := ⟨0x020814, 31, 0⟩
def F.CLK_RATE_RHO : Fld := ⟨0x020814, 31, 0⟩
def F.CLK_CNT : Fld := ⟨0x020818, 31, 0⟩
def F.CLK_CNT_EDGES : Fld := ⟨0x020818, 15, 0⟩
def F.CLK_CNT_STEPS : Fld := ⟨0x020818, 23, 16⟩
def F.CLK_CNT_GLITCHES : Fld := ⟨0x020818, 31, 24⟩
def F.CLK_COMMIT : Fld := ⟨0x02081C, 31, 0⟩
def F.CLK_COMMIT_GO : Fld := ⟨0x02081C, 0, 0⟩
def F.CLK_COMMIT_STAT : Fld := ⟨0x020820, 31, 0⟩
def F.CLK_COMMIT_STAT_PENDING : Fld := ⟨0x020820, 0, 0⟩
def F.BST_CFG : Fld := ⟨0x030000, 31, 0⟩
def F.BST_CFG_PERIOD_H : Fld := ⟨0x030000, 7, 0⟩
def F.BST_CFG_AUTO_EN : Fld := ⟨0x030000, 8, 8⟩
def F.BST_TARGETS : Fld := ⟨0x030004, 31, 0⟩
def F.BST_TARGETS_TARGETS : Fld := ⟨0x030004, 22, 0⟩
def F.BST_TARGETS_TARGET25 : Fld := ⟨0x030004, 25, 25⟩
def F.BST_CMD : Fld := ⟨0x030008, 31, 0⟩
def F.BST_CMD_TARGET : Fld := ⟨0x030008, 4, 0⟩
def F.BST_CMD_CLEAR_MARK : Fld := ⟨0x030008, 8, 8⟩
def F.BST_STATUS : Fld := ⟨0x03000C, 31, 0⟩
def F.BST_STATUS_RUNNING : Fld := ⟨0x03000C, 0, 0⟩
def F.BST_STATUS_TARGET : Fld := ⟨0x03000C, 12, 8⟩
def F.BST_STATUS_SUSPENDS : Fld := ⟨0x03000C, 19, 16⟩
def F.BST_STATUS_QUICK_DONE : Fld := ⟨0x03000C, 24, 24⟩
def F.BST_SIG_LO : Fld := ⟨0x030010, 31, 0⟩
def F.BST_SIG_LO_SIG : Fld := ⟨0x030010, 31, 0⟩
def F.BST_SIG_HI : Fld := ⟨0x030014, 31, 0⟩
def F.BST_SIG_HI_SIG : Fld := ⟨0x030014, 31, 0⟩
def F.BST_SIG_COUNT : Fld := ⟨0x030018, 31, 0⟩
def F.BST_SIG_COUNT_COUNT : Fld := ⟨0x030018, 31, 0⟩
def F.BST_MARKED : Fld := ⟨0x03001C, 31, 0⟩
def F.BST_MARKED_TARGETS : Fld := ⟨0x03001C, 29, 0⟩
def F.BST_QUICK_FAIL : Fld := ⟨0x030020, 31, 0⟩
def F.BST_QUICK_FAIL_TARGETS : Fld := ⟨0x030020, 29, 0⟩
def F.BST_SUBST : Fld := ⟨0x030024, 31, 0⟩
def F.BST_SUBST_CORD : Fld := ⟨0x030024, 3, 0⟩
def F.BST_SUBST_VALID : Fld := ⟨0x030024, 4, 4⟩
def F.BST_SUBST_PERMANENT : Fld := ⟨0x030024, 5, 5⟩
def F.BST_REPLACE_CFG : Fld := ⟨0x030028, 31, 0⟩
def F.BST_REPLACE_CFG_REPEAT_MIN : Fld := ⟨0x030028, 7, 0⟩
def F.BST_REPLACE_STAT : Fld := ⟨0x03002C, 31, 0⟩
def F.BST_REPLACE_STAT_REASONS : Fld := ⟨0x03002C, 8, 0⟩
def F.BST_REPLACE_STAT_SERVICE : Fld := ⟨0x03002C, 16, 16⟩
def F.BST_REPLACE_STAT_REPEATS : Fld := ⟨0x03002C, 31, 24⟩
def F.BST_REPLACE_ACKED : Fld := ⟨0x030030, 31, 0⟩
def F.BST_REPLACE_ACKED_ACKED : Fld := ⟨0x030030, 8, 0⟩
def F.BST_REPLACE_ACK : Fld := ⟨0x030034, 31, 0⟩
def F.BST_REPLACE_ACK_REASONS : Fld := ⟨0x030034, 8, 0⟩
def F.BST_REPLACE_CLR : Fld := ⟨0x030038, 31, 0⟩
def F.BST_REPLACE_CLR_VAULT : Fld := ⟨0x030038, 4, 4⟩
def F.BST_RESULT : Fld := ⟨0x030040, 31, 0⟩
def F.BST_RESULT_OUTCOME : Fld := ⟨0x030040, 2, 0⟩
def F.BST_RESULT_GOLDEN : Fld := ⟨0x030040, 3, 3⟩
def F.BST_RESULT_SUSPENDS : Fld := ⟨0x030040, 7, 4⟩
def F.BST_RESULT_MARKED : Fld := ⟨0x030040, 8, 8⟩
def F.BST_RESULT_RUNS : Fld := ⟨0x030040, 31, 16⟩
def F.BST_EV_SRC14 : Fld := ⟨0x0300C0, 31, 0⟩
def F.BST_EV_SRC14_SOURCE : Fld := ⟨0x0300C0, 15, 0⟩
def F.BST_EV_SRC15 : Fld := ⟨0x0300C4, 31, 0⟩
def F.BST_EV_SRC15_SOURCE : Fld := ⟨0x0300C4, 15, 0⟩
def F.BST_EV_SRC : Fld := ⟨0x0300C8, 31, 0⟩
def F.BST_EV_SRC_SOURCE : Fld := ⟨0x0300C8, 15, 0⟩
def F.BST_EV_SRC250 : Fld := ⟨0x0300D4, 31, 0⟩
def F.BST_EV_SRC250_SOURCE : Fld := ⟨0x0300D4, 15, 0⟩
def F.BST_EV_SRC255 : Fld := ⟨0x0300D8, 31, 0⟩
def F.BST_EV_SRC255_SOURCE : Fld := ⟨0x0300D8, 15, 0⟩
def F.LOG_CFG : Fld := ⟨0x018000, 31, 0⟩
def F.LOG_CFG_NEAR_FULL : Fld := ⟨0x018000, 6, 0⟩
def F.LOG_CFG_AUTO_EXPORT : Fld := ⟨0x018000, 8, 8⟩
def F.LOG_STAT : Fld := ⟨0x018004, 31, 0⟩
def F.LOG_STAT_HEAD : Fld := ⟨0x018004, 12, 0⟩
def F.LOG_STAT_UNEXPORTED : Fld := ⟨0x018004, 28, 16⟩
def F.LOG_PROT_STAT : Fld := ⟨0x018008, 31, 0⟩
def F.LOG_PROT_STAT_COUNT : Fld := ⟨0x018008, 8, 0⟩
def F.LOG_PROT_STAT_FULL : Fld := ⟨0x018008, 16, 16⟩
def F.LOG_LOST : Fld := ⟨0x01800C, 31, 0⟩
def F.LOG_LOST_OVERWRITTEN : Fld := ⟨0x01800C, 15, 0⟩
def F.LOG_LOST_PROT_LOST : Fld := ⟨0x01800C, 31, 16⟩
def F.LOG_CMD : Fld := ⟨0x018010, 31, 0⟩
def F.LOG_CMD_CLEAR_PROT : Fld := ⟨0x018010, 0, 0⟩
def F.LOG_CMD_MARK_EXPORTED : Fld := ⟨0x018010, 1, 1⟩
def F.LOG_READ_IDX : Fld := ⟨0x018014, 31, 0⟩
def F.LOG_READ_IDX_INDEX : Fld := ⟨0x018014, 12, 0⟩
def F.LOG_READ_DATA : Fld := ⟨0x018020, 31, 0⟩
def F.LOG_READ_DATA_DATA : Fld := ⟨0x018020, 31, 0⟩
def F.LOG_EV_SRC252 : Fld := ⟨0x018040, 31, 0⟩
def F.LOG_EV_SRC252_SOURCE : Fld := ⟨0x018040, 12, 0⟩
def F.LOG_EV_SRC253 : Fld := ⟨0x018044, 31, 0⟩
def F.GLB_ID : Fld := ⟨0x000000, 31, 0⟩
def F.GLB_ID_PART : Fld := ⟨0x000000, 15, 0⟩
def F.GLB_ID_FAMILY : Fld := ⟨0x000000, 31, 16⟩
def F.GLB_REVISION : Fld := ⟨0x000004, 31, 0⟩
def F.GLB_REVISION_DIE_REV : Fld := ⟨0x000004, 7, 0⟩
def F.GLB_REVISION_ROM_REV : Fld := ⟨0x000004, 15, 8⟩
def F.GLB_REVISION_GRADE : Fld := ⟨0x000004, 17, 16⟩
def F.GLB_SERIAL_LO : Fld := ⟨0x000008, 31, 0⟩
def F.GLB_SERIAL_LO_SERIAL : Fld := ⟨0x000008, 31, 0⟩
def F.GLB_SERIAL_HI : Fld := ⟨0x00000C, 31, 0⟩
def F.GLB_SERIAL_HI_SERIAL : Fld := ⟨0x00000C, 31, 0⟩
def F.GLB_MAP_VER : Fld := ⟨0x000010, 31, 0⟩
def F.GLB_MAP_VER_MINOR : Fld := ⟨0x000010, 15, 0⟩
def F.GLB_MAP_VER_MAJOR : Fld := ⟨0x000010, 31, 16⟩
def F.GLB_STATUS : Fld := ⟨0x000020, 31, 0⟩
def F.GLB_STATUS_PROFILE : Fld := ⟨0x000020, 1, 0⟩
def F.GLB_STATUS_SWITCHING : Fld := ⟨0x000020, 2, 2⟩
def F.GLB_STATUS_READY : Fld := ⟨0x000020, 3, 3⟩
def F.GLB_STATUS_STARTED : Fld := ⟨0x000020, 4, 4⟩
def F.GLB_STATUS_NO_IMAGE : Fld := ⟨0x000020, 5, 5⟩
def F.GLB_STATUS_OWNER : Fld := ⟨0x000020, 6, 6⟩
def F.GLB_STATUS_CACHE_ONLY : Fld := ⟨0x000020, 7, 7⟩
def F.GLB_STATUS_FENCED : Fld := ⟨0x000020, 8, 8⟩
def F.GLB_STATUS_SERVICE : Fld := ⟨0x000020, 9, 9⟩
def F.GLB_STATUS_THERM_STOP : Fld := ⟨0x000020, 10, 10⟩
def F.GLB_STATUS_IRQ : Fld := ⟨0x000020, 11, 11⟩
def F.GLB_RESET : Fld := ⟨0x000024, 31, 0⟩
def F.GLB_RESET_KEY : Fld := ⟨0x000024, 7, 0⟩
def F.GLB_RESET_SOFT : Fld := ⟨0x000024, 8, 8⟩
def F.GLB_PROFILE_CMD : Fld := ⟨0x000028, 31, 0⟩
def F.GLB_PROFILE_CMD_PROFILE : Fld := ⟨0x000028, 1, 0⟩
def F.GLB_PROFILE_CMD_GO : Fld := ⟨0x000028, 8, 8⟩
def F.GLB_SCRATCH : Fld := ⟨0x000040, 31, 0⟩
def F.GLB_SCRATCH_DATA : Fld := ⟨0x000040, 31, 0⟩
def F.GLB_COMMIT : Fld := ⟨0x000100, 31, 0⟩
def F.GLB_COMMIT_BLOCKS : Fld := ⟨0x000100, 13, 1⟩
def F.GLB_COMMIT_REVERT : Fld := ⟨0x000100, 16, 16⟩
def F.GLB_COMMIT_STAT : Fld := ⟨0x000104, 31, 0⟩
def F.GLB_COMMIT_STAT_PENDING : Fld := ⟨0x000104, 0, 0⟩
def F.GLB_COMMIT_STAT_BLOCK_PENDING : Fld := ⟨0x000104, 13, 1⟩
def F.GLB_COMMIT_CNT : Fld := ⟨0x000108, 31, 0⟩
def F.GLB_COMMIT_CNT_APPLIED : Fld := ⟨0x000108, 15, 0⟩
def F.GLB_COMMIT_CNT_REJECTED : Fld := ⟨0x000108, 31, 16⟩
def F.GLB_EV_SRC3 : Fld := ⟨0x00010C, 31, 0⟩
def F.GLB_EV_SRC3_REASON : Fld := ⟨0x00010C, 7, 0⟩
def F.GLB_EV_SRC3_BLOCK : Fld := ⟨0x00010C, 11, 8⟩
def F.GLB_EV_SRC3_INDEX : Fld := ⟨0x00010C, 25, 16⟩
def F.GLB_TIME_LO : Fld := ⟨0x000200, 31, 0⟩
def F.GLB_TIME_LO_TICK : Fld := ⟨0x000200, 31, 0⟩
def F.GLB_TIME_HI : Fld := ⟨0x000204, 31, 0⟩
def F.GLB_TIME_HI_TICK : Fld := ⟨0x000204, 31, 0⟩
def F.GLB_TIME_CAP_CMD : Fld := ⟨0x000208, 31, 0⟩
def F.GLB_TIME_CAP_CMD_GO : Fld := ⟨0x000208, 0, 0⟩
def F.GLB_TIME_CAP_LO : Fld := ⟨0x00020C, 31, 0⟩
def F.GLB_TIME_CAP_LO_TICK : Fld := ⟨0x00020C, 31, 0⟩
def F.GLB_TIME_CAP_HI : Fld := ⟨0x000210, 31, 0⟩
def F.GLB_TIME_CAP_HI_TICK : Fld := ⟨0x000210, 31, 0⟩
def F.GLB_GPIO_FUNC : Fld := ⟨0x000300, 31, 0⟩
def F.GLB_GPIO_FUNC_OWN_OUT_EN : Fld := ⟨0x000300, 14, 14⟩
def F.GLB_GPIO_FUNC_OWN_IN_EN : Fld := ⟨0x000300, 15, 15⟩
def F.GLB_GPIO_DIR : Fld := ⟨0x000304, 31, 0⟩
def F.GLB_GPIO_DIR_DIR : Fld := ⟨0x000304, 15, 0⟩
def F.GLB_GPIO_OUT : Fld := ⟨0x000308, 31, 0⟩
def F.GLB_GPIO_OUT_OUT : Fld := ⟨0x000308, 15, 0⟩
def F.GLB_GPIO_IN : Fld := ⟨0x00030C, 31, 0⟩
def F.GLB_GPIO_IN_IN : Fld := ⟨0x00030C, 15, 0⟩
def F.GLB_GPIO_CAP_CFG : Fld := ⟨0x000310, 31, 0⟩
def F.GLB_GPIO_CAP_CFG_PIN0 : Fld := ⟨0x000310, 3, 0⟩
def F.GLB_GPIO_CAP_CFG_EDGE0 : Fld := ⟨0x000310, 5, 4⟩
def F.GLB_GPIO_CAP_CFG_PIN1 : Fld := ⟨0x000310, 11, 8⟩
def F.GLB_GPIO_CAP_CFG_EDGE1 : Fld := ⟨0x000310, 13, 12⟩
def F.GLB_GPIO_CAP_CFG_PIN2 : Fld := ⟨0x000310, 19, 16⟩
def F.GLB_GPIO_CAP_CFG_EDGE2 : Fld := ⟨0x000310, 21, 20⟩
def F.GLB_GPIO_CAP_CFG_PIN3 : Fld := ⟨0x000310, 27, 24⟩
def F.GLB_GPIO_CAP_CFG_EDGE3 : Fld := ⟨0x000310, 29, 28⟩
def F.GLB_GPIO_CAP_STAT : Fld := ⟨0x000314, 31, 0⟩
def F.GLB_GPIO_CAP_STAT_NEW : Fld := ⟨0x000314, 3, 0⟩
def F.GLB_GPIO_CAP_STAT_OVERRUN : Fld := ⟨0x000314, 7, 4⟩
def F.GLB_GPIO_CAP_LO : Fld := ⟨0x000320, 31, 0⟩
def F.GLB_GPIO_CAP_LO_TICK : Fld := ⟨0x000320, 31, 0⟩
def F.GLB_GPIO_CAP_HI : Fld := ⟨0x000324, 31, 0⟩
def F.GLB_GPIO_CAP_HI_TICK : Fld := ⟨0x000324, 31, 0⟩
def F.RFS_LINK_CFG : Fld := ⟨0x0E2400, 31, 0⟩
def F.RFS_LINK_CFG_SYSREF_CONT : Fld := ⟨0x0E2400, 0, 0⟩

/-! ### Rows, by region -/

def glbRows : List RegRow := [
  ⟨"GLB_ID", 0x000000, 1, 0x0, 1, 0x0, 0x4B4E1440#32, [⟨15, 0, .ro, []⟩, ⟨31, 16, .ro, []⟩]⟩,
  ⟨"GLB_REVISION", 0x000004, 1, 0x0, 1, 0x0, 0x0#32, [⟨7, 0, .ro, []⟩, ⟨15, 8, .ro, []⟩, ⟨17, 16, .ro, []⟩]⟩,
  ⟨"GLB_SERIAL_LO", 0x000008, 1, 0x0, 1, 0x0, 0x0#32, [⟨31, 0, .ro, []⟩]⟩,
  ⟨"GLB_SERIAL_HI", 0x00000C, 1, 0x0, 1, 0x0, 0x0#32, [⟨31, 0, .ro, []⟩]⟩,
  ⟨"GLB_MAP_VER", 0x000010, 1, 0x0, 1, 0x0, 0x10000#32, [⟨15, 0, .ro, []⟩, ⟨31, 16, .ro, []⟩]⟩,
  ⟨"GLB_STATUS", 0x000020, 1, 0x0, 1, 0x0, 0x0#32, [⟨1, 0, .ro, []⟩, ⟨2, 2, .ro, []⟩, ⟨3, 3, .ro, []⟩, ⟨4, 4, .ro, []⟩, ⟨5, 5, .ro, []⟩, ⟨6, 6, .ro, []⟩, ⟨7, 7, .ro, []⟩, ⟨8, 8, .ro, []⟩, ⟨9, 9, .ro, []⟩, ⟨10, 10, .ro, []⟩, ⟨11, 11, .ro, []⟩]⟩,
  ⟨"GLB_RESET", 0x000024, 1, 0x0, 1, 0x0, 0x0#32, [⟨7, 0, .wo, []⟩, ⟨8, 8, .wo, []⟩]⟩,
  ⟨"GLB_PROFILE_CMD", 0x000028, 1, 0x0, 1, 0x0, 0x0#32, [⟨1, 0, .wo, []⟩, ⟨8, 8, .wo, []⟩]⟩,
  ⟨"GLB_SCRATCH", 0x000040, 8, 0x4, 1, 0x0, 0x0#32, [⟨31, 0, .rw, []⟩]⟩,
  ⟨"GLB_COMMIT", 0x000100, 1, 0x0, 1, 0x0, 0x0#32, [⟨13, 1, .wo, []⟩, ⟨16, 16, .wo, []⟩]⟩,
  ⟨"GLB_COMMIT_STAT", 0x000104, 1, 0x0, 1, 0x0, 0x0#32, [⟨0, 0, .ro, []⟩, ⟨13, 1, .ro, []⟩]⟩,
  ⟨"GLB_COMMIT_CNT", 0x000108, 1, 0x0, 1, 0x0, 0x0#32, [⟨15, 0, .ro, []⟩, ⟨31, 16, .ro, []⟩]⟩,
  ⟨"GLB_EV_SRC3", 0x00010C, 1, 0x0, 1, 0x0, 0x0#32, [⟨7, 0, .ro, []⟩, ⟨11, 8, .ro, []⟩, ⟨25, 16, .ro, []⟩]⟩,
  ⟨"GLB_TIME_LO", 0x000200, 1, 0x0, 1, 0x0, 0x0#32, [⟨31, 0, .ro, []⟩]⟩,
  ⟨"GLB_TIME_HI", 0x000204, 1, 0x0, 1, 0x0, 0x0#32, [⟨31, 0, .ro, []⟩]⟩,
  ⟨"GLB_TIME_CAP_CMD", 0x000208, 1, 0x0, 1, 0x0, 0x0#32, [⟨0, 0, .wo, []⟩]⟩,
  ⟨"GLB_TIME_CAP_LO", 0x00020C, 1, 0x0, 1, 0x0, 0x0#32, [⟨31, 0, .ro, []⟩]⟩,
  ⟨"GLB_TIME_CAP_HI", 0x000210, 1, 0x0, 1, 0x0, 0x0#32, [⟨31, 0, .ro, []⟩]⟩,
  ⟨"GLB_GPIO_FUNC", 0x000300, 1, 0x0, 1, 0x0, 0xC000#32, [⟨14, 14, .rw, []⟩, ⟨15, 15, .rw, []⟩]⟩,
  ⟨"GLB_GPIO_DIR", 0x000304, 1, 0x0, 1, 0x0, 0x0#32, [⟨15, 0, .rw, []⟩]⟩,
  ⟨"GLB_GPIO_OUT", 0x000308, 1, 0x0, 1, 0x0, 0x0#32, [⟨15, 0, .rw, []⟩]⟩,
  ⟨"GLB_GPIO_IN", 0x00030C, 1, 0x0, 1, 0x0, 0x0#32, [⟨15, 0, .ro, []⟩]⟩,
  ⟨"GLB_GPIO_CAP_CFG", 0x000310, 1, 0x0, 1, 0x0, 0x0#32, [⟨3, 0, .rw, []⟩, ⟨5, 4, .rw, []⟩, ⟨11, 8, .rw, []⟩, ⟨13, 12, .rw, []⟩, ⟨19, 16, .rw, []⟩, ⟨21, 20, .rw, []⟩, ⟨27, 24, .rw, []⟩, ⟨29, 28, .rw, []⟩]⟩,
  ⟨"GLB_GPIO_CAP_STAT", 0x000314, 1, 0x0, 1, 0x0, 0x0#32, [⟨3, 0, .w1c, []⟩, ⟨7, 4, .w1c, []⟩]⟩,
  ⟨"GLB_GPIO_CAP_LO", 0x000320, 4, 0x8, 1, 0x0, 0x0#32, [⟨31, 0, .ro, []⟩]⟩,
  ⟨"GLB_GPIO_CAP_HI", 0x000324, 4, 0x8, 1, 0x0, 0x0#32, [⟨31, 0, .ro, []⟩]⟩]

def evcRows : List RegRow := [
  ⟨"EVC_LATCH", 0x010000, 1, 0x4, 1, 0x0, 0x0#32, [⟨15, 0, .w1c, []⟩]⟩,
  ⟨"EVC_LATCH", 0x010004, 1, 0x4, 1, 0x0, 0x0#32, [⟨5, 0, .w1c, []⟩, ⟨13, 8, .w1c, []⟩, ⟨20, 16, .w1c, []⟩]⟩,
  ⟨"EVC_LATCH", 0x010008, 1, 0x4, 1, 0x0, 0x0#32, [⟨10, 0, .w1c, []⟩]⟩,
  ⟨"EVC_LATCH", 0x01000C, 1, 0x4, 1, 0x0, 0x0#32, [⟨21, 0, .w1c, []⟩]⟩,
  ⟨"EVC_LATCH", 0x010010, 1, 0x4, 1, 0x0, 0x0#32, [⟨19, 0, .w1c, []⟩]⟩,
  ⟨"EVC_LATCH", 0x010014, 1, 0x4, 1, 0x0, 0x0#32, [⟨19, 0, .w1c, []⟩]⟩,
  ⟨"EVC_LATCH", 0x010018, 1, 0x4, 1, 0x0, 0x0#32, [⟨18, 0, .w1c, []⟩]⟩,
  ⟨"EVC_LATCH", 0x01001C, 1, 0x4, 1, 0x0, 0x0#32, [⟨31, 0, .w1c, []⟩]⟩,
  ⟨"EVC_ENABLE", 0x010020, 1, 0x4, 1, 0x0, 0xFFFF#32, [⟨15, 0, .rw, []⟩]⟩,
  ⟨"EVC_ENABLE", 0x010024, 1, 0x4, 1, 0x0, 0x1F3F3F#32, [⟨5, 0, .rw, []⟩, ⟨13, 8, .rw, []⟩, ⟨20, 16, .rw, []⟩]⟩,
  ⟨"EVC_ENABLE", 0x010028, 1, 0x4, 1, 0x0, 0x7FF#32, [⟨10, 0, .rw, []⟩]⟩,
  ⟨"EVC_ENABLE", 0x01002C, 1, 0x4, 1, 0x0, 0x3FFFFF#32, [⟨21, 0, .rw, []⟩]⟩,
  ⟨"EVC_ENABLE", 0x010030, 1, 0x4, 1, 0x0, 0xFFFFF#32, [⟨19, 0, .rw, []⟩]⟩,
  ⟨"EVC_ENABLE", 0x010034, 1, 0x4, 1, 0x0, 0xFFFFF#32, [⟨19, 0, .rw, []⟩]⟩,
  ⟨"EVC_ENABLE", 0x010038, 1, 0x4, 1, 0x0, 0x7FFFF#32, [⟨18, 0, .rw, []⟩]⟩,
  ⟨"EVC_ENABLE", 0x01003C, 1, 0x4, 1, 0x0, 0xFFFFFFFF#32, [⟨31, 0, .rw, []⟩]⟩,
  ⟨"EVC_CLASS", 0x010040, 1, 0x4, 1, 0x0, 0x416742B3#32, [⟨31, 0, .rw, []⟩]⟩,
  ⟨"EVC_CLASS", 0x010044, 1, 0x4, 1, 0x0, 0x0#32, []⟩,
  ⟨"EVC_CLASS", 0x010048, 1, 0x4, 1, 0x0, 0xBBE059F#32, [⟨11, 0, .rw, []⟩, ⟨27, 16, .rw, []⟩]⟩,
  ⟨"EVC_CLASS", 0x01004C, 1, 0x4, 1, 0x0, 0x397#32, [⟨9, 0, .rw, []⟩]⟩,
  ⟨"EVC_CLASS", 0x010050, 1, 0x4, 1, 0x0, 0x2FFBBF#32, [⟨21, 0, .rw, []⟩]⟩,
  ⟨"EVC_CLASS", 0x010054, 1, 0x4, 1, 0x0, 0x0#32, []⟩,
  ⟨"EVC_CLASS", 0x010058, 1, 0x4, 1, 0x0, 0xE6ADBEAE#32, [⟨31, 0, .rw, []⟩]⟩,
  ⟨"EVC_CLASS", 0x01005C, 1, 0x4, 1, 0x0, 0xBE6#32, [⟨11, 0, .rw, []⟩]⟩,
  ⟨"EVC_CLASS", 0x010060, 1, 0x4, 1, 0x0, 0x9174A547#32, [⟨31, 0, .rw, []⟩]⟩,
  ⟨"EVC_CLASS", 0x010064, 1, 0x4, 1, 0x0, 0x69#32, [⟨7, 0, .rw, []⟩]⟩,
  ⟨"EVC_CLASS", 0x010068, 1, 0x4, 1, 0x0, 0xEDAAD6ED#32, [⟨31, 0, .rw, []⟩]⟩,
  ⟨"EVC_CLASS", 0x01006C, 1, 0x4, 1, 0x0, 0xA7#32, [⟨7, 0, .rw, []⟩]⟩,
  ⟨"EVC_CLASS", 0x010070, 1, 0x4, 1, 0x0, 0xF45156F1#32, [⟨31, 0, .rw, []⟩]⟩,
  ⟨"EVC_CLASS", 0x010074, 1, 0x4, 1, 0x0, 0x29#32, [⟨5, 0, .rw, []⟩]⟩,
  ⟨"EVC_CLASS", 0x010078, 1, 0x4, 1, 0x0, 0xE57745D7#32, [⟨31, 0, .rw, []⟩]⟩,
  ⟨"EVC_CLASS", 0x01007C, 1, 0x4, 1, 0x0, 0xE589CE77#32, [⟨31, 0, .rw, []⟩]⟩,
  ⟨"EVC_ROUTE", 0x010080, 1, 0x0, 1, 0x0, 0x7F3#32, [⟨3, 0, .rw, []⟩, ⟨7, 4, .rw, []⟩, ⟨11, 8, .rw, []⟩]⟩,
  ⟨"EVC_RATE", 0x010084, 1, 0x0, 1, 0x0, 0x3E8#32, [⟨15, 0, .rw, []⟩]⟩,
  ⟨"EVC_STATUS", 0x010088, 1, 0x0, 1, 0x0, 0x0#32, [⟨0, 0, .ro, []⟩, ⟨11, 4, .ro, []⟩, ⟨12, 12, .ro, []⟩, ⟨24, 16, .ro, []⟩]⟩,
  ⟨"EVC_LAST", 0x01008C, 1, 0x0, 1, 0x0, 0x0#32, [⟨7, 0, .ro, []⟩, ⟨31, 16, .ro, []⟩]⟩,
  ⟨"EVC_LAST_TIME_LO", 0x010090, 1, 0x0, 1, 0x0, 0x0#32, [⟨31, 0, .ro, []⟩]⟩,
  ⟨"EVC_LAST_TIME_HI", 0x010094, 1, 0x0, 1, 0x0, 0x0#32, [⟨31, 0, .ro, []⟩]⟩]

def logRows : List RegRow := [
  ⟨"LOG_CFG", 0x018000, 1, 0x0, 1, 0x0, 0x14B#32, [⟨6, 0, .rw, [(50, 95)]⟩, ⟨8, 8, .rw, []⟩]⟩,
  ⟨"LOG_STAT", 0x018004, 1, 0x0, 1, 0x0, 0x0#32, [⟨12, 0, .ro, []⟩, ⟨28, 16, .ro, []⟩]⟩,
  ⟨"LOG_PROT_STAT", 0x018008, 1, 0x0, 1, 0x0, 0x0#32, [⟨8, 0, .ro, []⟩, ⟨16, 16, .ro, []⟩]⟩,
  ⟨"LOG_LOST", 0x01800C, 1, 0x0, 1, 0x0, 0x0#32, [⟨15, 0, .ro, []⟩, ⟨31, 16, .ro, []⟩]⟩,
  ⟨"LOG_CMD", 0x018010, 1, 0x0, 1, 0x0, 0x0#32, [⟨0, 0, .wo, []⟩, ⟨1, 1, .wo, []⟩]⟩,
  ⟨"LOG_READ_IDX", 0x018014, 1, 0x0, 1, 0x0, 0x0#32, [⟨12, 0, .rw, []⟩]⟩,
  ⟨"LOG_READ_DATA", 0x018020, 8, 0x4, 1, 0x0, 0x0#32, [⟨31, 0, .ro, []⟩]⟩,
  ⟨"LOG_EV_SRC252", 0x018040, 1, 0x0, 1, 0x0, 0x0#32, [⟨12, 0, .ro, []⟩]⟩,
  ⟨"LOG_EV_SRC253", 0x018044, 1, 0x0, 1, 0x0, 0x0#32, []⟩]

def pwrRows : List RegRow := [
  ⟨"PWR_RESET_CAUSE", 0x020000, 1, 0x0, 1, 0x0, 0x1#32, [⟨1, 0, .ro, []⟩, ⟨31, 16, .ro, []⟩]⟩,
  ⟨"PWR_START_STAT", 0x020004, 1, 0x0, 1, 0x0, 0x0#32, [⟨3, 0, .ro, []⟩, ⟨5, 4, .ro, []⟩, ⟨11, 8, .ro, []⟩, ⟨31, 16, .ro, []⟩]⟩,
  ⟨"PWR_IMAGE_VER", 0x020008, 1, 0x0, 1, 0x0, 0x0#32, [⟨31, 0, .ro, []⟩]⟩,
  ⟨"PWR_SUPPLY", 0x02000C, 1, 0x0, 1, 0x0, 0x0#32, [⟨10, 0, .ro, []⟩, ⟨27, 16, .ro, []⟩]⟩,
  ⟨"PWR_THERM_CFG", 0x020010, 1, 0x0, 1, 0x0, 0x877D#32, [⟨7, 0, .rw, [(80, 140)]⟩, ⟨15, 8, .rw, [(80, 145)]⟩]⟩,
  ⟨"PWR_SLEEP_CFG", 0x020014, 1, 0x0, 1, 0x0, 0x10A0A#32, [⟨7, 0, .rw, [(1, 255)]⟩, ⟨15, 8, .rw, [(1, 255)]⟩, ⟨16, 16, .rw, []⟩]⟩,
  ⟨"PWR_DOMAIN_STAT", 0x020018, 1, 0x0, 1, 0x0, 0x0#32, [⟨9, 0, .ro, []⟩, ⟨12, 12, .ro, []⟩, ⟨13, 13, .ro, []⟩, ⟨14, 14, .ro, []⟩, ⟨15, 15, .ro, []⟩, ⟨16, 16, .ro, []⟩, ⟨17, 17, .ro, []⟩]⟩,
  ⟨"PWR_CXL_CFG", 0x02001C, 1, 0x0, 1, 0x0, 0x64#32, [⟨7, 0, .rw, [(100, 255)]⟩]⟩,
  ⟨"PWR_WAKE_CNT", 0x020020, 1, 0x0, 1, 0x0, 0x0#32, [⟨15, 0, .ro, []⟩, ⟨31, 16, .ro, []⟩]⟩,
  ⟨"PWR_PROF_STAT", 0x020024, 1, 0x0, 1, 0x0, 0x0#32, [⟨1, 0, .ro, []⟩, ⟨7, 4, .ro, []⟩]⟩,
  ⟨"PWR_EV_SRC", 0x020040, 14, 0x4, 1, 0x0, 0x0#32, [⟨15, 0, .ro, []⟩]⟩,
  ⟨"CLK_STATUS", 0x020800, 1, 0x0, 1, 0x0, 0x0#32, [⟨0, 0, .ro, []⟩, ⟨1, 1, .ro, []⟩, ⟨2, 2, .ro, []⟩, ⟨5, 4, .ro, []⟩, ⟨6, 6, .ro, []⟩]⟩,
  ⟨"CLK_PPS_CFG", 0x020804, 1, 0x0, 1, 0x0, 0x3E81400#32, [⟨0, 0, .rws, []⟩, ⟨1, 1, .rws, []⟩, ⟨15, 8, .rws, [(1, 255)]⟩, ⟨31, 16, .rws, [(1, 65535)]⟩]⟩,
  ⟨"CLK_DISC_CFG", 0x020808, 1, 0x0, 1, 0x0, 0x101064#32, [⟨8, 0, .rws, [(1, 500)]⟩, ⟨12, 12, .rws, []⟩, ⟨23, 16, .rws, [(1, 255)]⟩]⟩,
  ⟨"CLK_PPS_OUT", 0x02080C, 1, 0x0, 1, 0x0, 0x6400#32, [⟨0, 0, .rw, []⟩, ⟨15, 8, .rw, [(1, 255)]⟩]⟩,
  ⟨"CLK_PPS_ERR", 0x020810, 1, 0x0, 1, 0x0, 0x0#32, [⟨31, 0, .ro, []⟩]⟩,
  ⟨"CLK_RATE", 0x020814, 1, 0x0, 1, 0x0, 0x0#32, [⟨31, 0, .ro, []⟩]⟩,
  ⟨"CLK_CNT", 0x020818, 1, 0x0, 1, 0x0, 0x0#32, [⟨15, 0, .ro, []⟩, ⟨23, 16, .ro, []⟩, ⟨31, 24, .ro, []⟩]⟩,
  ⟨"CLK_COMMIT", 0x02081C, 1, 0x0, 1, 0x0, 0x0#32, [⟨0, 0, .wo, []⟩]⟩,
  ⟨"CLK_COMMIT_STAT", 0x020820, 1, 0x0, 1, 0x0, 0x0#32, [⟨0, 0, .ro, []⟩]⟩]

def bstRows : List RegRow := [
  ⟨"BST_CFG", 0x030000, 1, 0x0, 1, 0x0, 0x118#32, [⟨7, 0, .rw, [(1, 255)]⟩, ⟨8, 8, .rw, []⟩]⟩,
  ⟨"BST_TARGETS", 0x030004, 1, 0x0, 1, 0x0, 0x27FFFFF#32, [⟨22, 0, .rw, []⟩, ⟨25, 25, .rw, []⟩]⟩,
  ⟨"BST_CMD", 0x030008, 1, 0x0, 1, 0x0, 0x0#32, [⟨4, 0, .wo, []⟩, ⟨8, 8, .wo, []⟩]⟩,
  ⟨"BST_STATUS", 0x03000C, 1, 0x0, 1, 0x0, 0x0#32, [⟨0, 0, .ro, []⟩, ⟨12, 8, .ro, []⟩, ⟨19, 16, .ro, []⟩, ⟨24, 24, .ro, []⟩]⟩,
  ⟨"BST_SIG_LO", 0x030010, 1, 0x0, 1, 0x0, 0x0#32, [⟨31, 0, .ro, []⟩]⟩,
  ⟨"BST_SIG_HI", 0x030014, 1, 0x0, 1, 0x0, 0x0#32, [⟨31, 0, .ro, []⟩]⟩,
  ⟨"BST_SIG_COUNT", 0x030018, 1, 0x0, 1, 0x0, 0x0#32, [⟨31, 0, .ro, []⟩]⟩,
  ⟨"BST_MARKED", 0x03001C, 1, 0x0, 1, 0x0, 0x0#32, [⟨29, 0, .ro, []⟩]⟩,
  ⟨"BST_QUICK_FAIL", 0x030020, 1, 0x0, 1, 0x0, 0x0#32, [⟨29, 0, .ro, []⟩]⟩,
  ⟨"BST_SUBST", 0x030024, 1, 0x0, 1, 0x0, 0x0#32, [⟨3, 0, .ro, []⟩, ⟨4, 4, .ro, []⟩, ⟨5, 5, .ro, []⟩]⟩,
  ⟨"BST_REPLACE_CFG", 0x030028, 1, 0x0, 1, 0x0, 0xF#32, [⟨7, 0, .rw, [(1, 255)]⟩]⟩,
  ⟨"BST_REPLACE_STAT", 0x03002C, 1, 0x0, 1, 0x0, 0x0#32, [⟨8, 0, .ro, []⟩, ⟨16, 16, .ro, []⟩, ⟨31, 24, .ro, []⟩]⟩,
  ⟨"BST_REPLACE_ACKED", 0x030030, 1, 0x0, 1, 0x0, 0x0#32, [⟨8, 0, .ro, []⟩]⟩,
  ⟨"BST_REPLACE_ACK", 0x030034, 1, 0x0, 1, 0x0, 0x0#32, [⟨8, 0, .wo, []⟩]⟩,
  ⟨"BST_REPLACE_CLR", 0x030038, 1, 0x0, 1, 0x0, 0x0#32, [⟨4, 4, .wo, []⟩]⟩,
  ⟨"BST_RESULT", 0x030040, 30, 0x4, 1, 0x0, 0x0#32, [⟨2, 0, .ro, []⟩, ⟨3, 3, .ro, []⟩, ⟨7, 4, .ro, []⟩, ⟨8, 8, .ro, []⟩, ⟨31, 16, .ro, []⟩]⟩,
  ⟨"BST_EV_SRC14", 0x0300C0, 1, 0x0, 1, 0x0, 0x0#32, [⟨15, 0, .ro, []⟩]⟩,
  ⟨"BST_EV_SRC15", 0x0300C4, 1, 0x0, 1, 0x0, 0x0#32, [⟨15, 0, .ro, []⟩]⟩,
  ⟨"BST_EV_SRC", 0x0300C8, 3, 0x4, 1, 0x0, 0x0#32, [⟨15, 0, .ro, []⟩]⟩,
  ⟨"BST_EV_SRC250", 0x0300D4, 1, 0x0, 1, 0x0, 0x0#32, [⟨15, 0, .ro, []⟩]⟩,
  ⟨"BST_EV_SRC255", 0x0300D8, 1, 0x0, 1, 0x0, 0x0#32, [⟨15, 0, .ro, []⟩]⟩]

def lpRows : List RegRow := [
  ⟨"LP_CFG", 0x040000, 144, 0x100, 1, 0x0, 0x0#32, [⟨2, 2, .rws, []⟩, ⟨1, 1, .rws, []⟩, ⟨0, 0, .rws, []⟩]⟩,
  ⟨"LP_PGA", 0x040004, 144, 0x100, 1, 0x0, 0x7000#32, [⟨14, 12, .rw, []⟩, ⟨10, 8, .rw, []⟩, ⟨4, 4, .rw, []⟩, ⟨2, 0, .rw, []⟩]⟩,
  ⟨"LP_PGA_CAL", 0x040008, 144, 0x100, 1, 0x0, 0x0#32, [⟨3, 0, .rw, []⟩, ⟨7, 4, .rw, []⟩, ⟨11, 8, .rw, []⟩, ⟨15, 12, .rw, []⟩, ⟨19, 16, .rw, []⟩, ⟨23, 20, .rw, []⟩, ⟨27, 24, .rw, []⟩]⟩,
  ⟨"LP_TX_CFG", 0x04000C, 144, 0x100, 1, 0x0, 0x0#32, [⟨6, 6, .rws, []⟩, ⟨5, 0, .rws, []⟩]⟩,
  ⟨"LP_WATCH", 0x040010, 144, 0x100, 1, 0x0, 0x220#32, [⟨12, 12, .rw, []⟩, ⟨11, 8, .rw, [(1, 15)]⟩, ⟨7, 0, .rw, [(0, 160)]⟩]⟩,
  ⟨"LP_MON_CFG", 0x040014, 144, 0x100, 1, 0x0, 0xFED3#32, [⟨15, 4, .rw, []⟩, ⟨3, 0, .rw, [(1, 15)]⟩]⟩,
  ⟨"LP_STATUS", 0x040018, 144, 0x100, 1, 0x0, 0x0#32, [⟨31, 20, .ro, []⟩, ⟨19, 12, .ro, []⟩, ⟨10, 8, .ro, []⟩, ⟨2, 0, .ro, []⟩]⟩,
  ⟨"LP_FLAGS", 0x04001C, 144, 0x100, 1, 0x0, 0x0#32, [⟨3, 3, .w1c, []⟩, ⟨2, 2, .w1c, []⟩, ⟨1, 1, .w1c, []⟩, ⟨0, 0, .w1c, []⟩]⟩,
  ⟨"LP_COUNTS", 0x040020, 144, 0x100, 1, 0x0, 0x0#32, [⟨31, 16, .ro, []⟩, ⟨15, 0, .ro, []⟩]⟩,
  ⟨"LP_AEN_CFG", 0x050000, 1, 0x0, 1, 0x0, 0xA14#32, [⟨15, 8, .rw, []⟩, ⟨7, 0, .rw, [(20, 255)]⟩]⟩,
  ⟨"LP_AEN_STAT", 0x050004, 1, 0x0, 1, 0x0, 0x0#32, [⟨31, 16, .ro, []⟩, ⟨15, 0, .ro, []⟩]⟩,
  ⟨"LP_AEN_WORD", 0x050008, 5, 0x4, 1, 0x0, 0x0#32, [⟨31, 0, .ro, []⟩]⟩,
  ⟨"LP_COMMIT", 0x05001C, 1, 0x0, 1, 0x0, 0x0#32, [⟨8, 0, .wo, []⟩]⟩,
  ⟨"LP_COMMIT_STAT", 0x050020, 1, 0x0, 1, 0x0, 0x0#32, [⟨8, 0, .ro, []⟩]⟩,
  ⟨"LP_LREF_STAT", 0x050024, 1, 0x0, 1, 0x0, 0x0#32, [⟨8, 0, .ro, []⟩]⟩,
  ⟨"LP_WATCH_BAND", 0x050028, 1, 0x0, 1, 0x0, 0x5B0024#32, [⟨8, 0, .rw, [(3, 490)]⟩, ⟨24, 16, .rw, [(3, 490)]⟩]⟩,
  ⟨"LP_CREST", 0x040024, 144, 0x100, 1, 0x0, 0x104#32, [⟨6, 0, .rw, []⟩, ⟨8, 8, .rw, []⟩]⟩,
  ⟨"LP_CREST_STAT", 0x040028, 144, 0x100, 1, 0x0, 0x0#32, [⟨15, 0, .ro, []⟩, ⟨23, 16, .ro, []⟩, ⟨31, 24, .ro, []⟩]⟩,
  ⟨"LP_SHAPE", 0x04002C, 144, 0x100, 1, 0x0, 0x0#32, [⟨5, 0, .rws, []⟩, ⟨8, 8, .rws, []⟩]⟩,
  ⟨"LP_MASK_CFG", 0x040030, 144, 0x100, 1, 0x0, 0x23#32, [⟨0, 0, .rw, []⟩, ⟨1, 1, .rw, []⟩, ⟨7, 4, .rw, [(1, 15)]⟩]⟩,
  ⟨"LP_MASK_STAT", 0x040034, 144, 0x100, 1, 0x0, 0x0#32, [⟨5, 0, .ro, []⟩, ⟨15, 8, .ro, []⟩, ⟨31, 16, .ro, []⟩]⟩,
  ⟨"LP_MASK", 0x050100, 64, 0x4, 1, 0x0, 0x0#32, [⟨8, 0, .rw, []⟩]⟩]

def fcRows : List RegRow := [
  ⟨"FC_CFG", 0x060000, 758, 0x80, 1, 0x0, 0x4001#32, [⟨12, 0, .rws, [(1, 4096)]⟩, ⟨20, 14, .rws, [(1, 64)]⟩, ⟨24, 21, .rws, []⟩, ⟨28, 25, .rws, []⟩]⟩,
  ⟨"FC_NCO", 0x060004, 758, 0x80, 1, 0x0, 0x0#32, [⟨31, 0, .rws, []⟩]⟩,
  ⟨"FC_THR_CFG", 0x060008, 758, 0x80, 1, 0x0, 0x10000#32, [⟨0, 0, .rws, []⟩, ⟨1, 1, .rws, []⟩, ⟨2, 2, .rws, []⟩, ⟨3, 3, .rws, []⟩, ⟨31, 16, .rws, [(1, 65535)]⟩]⟩,
  ⟨"FC_THR_UPPER", 0x06000C, 758, 0x80, 1, 0x0, 0x0#32, [⟨18, 0, .rws, []⟩]⟩,
  ⟨"FC_THR_LOWER", 0x060010, 758, 0x80, 1, 0x0, 0x0#32, [⟨18, 0, .rws, []⟩]⟩,
  ⟨"FC_THR_HYST", 0x060014, 758, 0x80, 1, 0x0, 0x0#32, [⟨17, 0, .rws, []⟩]⟩,
  ⟨"FC_BANK", 0x060018, 758, 0x80, 1, 0x0, 0x0#32, [⟨5, 0, .ro, []⟩, ⟨13, 8, .rw, []⟩, ⟨21, 16, .ro, []⟩, ⟨24, 24, .ro, []⟩, ⟨25, 25, .ro, []⟩]⟩,
  ⟨"FC_SWAP", 0x06001C, 758, 0x80, 1, 0x0, 0x0#32, [⟨0, 0, .wo, []⟩, ⟨1, 1, .wo, []⟩, ⟨28, 16, .wo, []⟩]⟩,
  ⟨"FC_STATUS", 0x060020, 758, 0x80, 1, 0x0, 0x0#32, [⟨0, 0, .ro, []⟩, ⟨1, 1, .ro, []⟩, ⟨2, 2, .ro, []⟩, ⟨31, 16, .ro, []⟩]⟩,
  ⟨"FC_FLAGS", 0x060024, 758, 0x80, 1, 0x0, 0x0#32, [⟨0, 0, .w1c, []⟩, ⟨1, 1, .w1c, []⟩, ⟨2, 2, .w1c, []⟩, ⟨3, 3, .w1c, []⟩]⟩,
  ⟨"FC_SAT_COUNT", 0x060028, 758, 0x80, 1, 0x0, 0x0#32, [⟨15, 0, .ro, []⟩]⟩,
  ⟨"FC_LOAD", 0x06002C, 758, 0x80, 1, 0x0, 0x0#32, [⟨19, 0, .ro, []⟩]⟩,
  ⟨"FC_SET_DIR", 0x078000, 11, 0x100, 64, 0x4, 0x0#32, [⟨15, 0, .rw, []⟩, ⟨25, 16, .rw, []⟩, ⟨31, 31, .rw, []⟩]⟩,
  ⟨"FC_COMMIT", 0x079000, 1, 0x0, 1, 0x0, 0x0#32, [⟨9, 0, .wo, []⟩, ⟨16, 16, .wo, []⟩]⟩,
  ⟨"FC_COMMIT_STAT", 0x079004, 1, 0x0, 1, 0x0, 0x0#32, [⟨0, 0, .ro, []⟩]⟩,
  ⟨"FC_SYNC_CMD", 0x079008, 1, 0x0, 1, 0x0, 0x0#32, [⟨15, 1, .wo, []⟩]⟩,
  ⟨"FC_SYNC_STAT", 0x07900C, 1, 0x0, 1, 0x0, 0x0#32, [⟨15, 1, .w1c, []⟩, ⟨31, 17, .w1c, []⟩]⟩,
  ⟨"FC_COEF_STAT", 0x079010, 1, 0x0, 1, 0x0, 0x0#32, [⟨15, 0, .ro, []⟩, ⟨19, 16, .ro, []⟩]⟩,
  ⟨"FC_AUX_ADDR", 0x079014, 1, 0x0, 1, 0x0, 0x0#32, [⟨12, 0, .rw, []⟩, ⟨16, 16, .rw, []⟩, ⟨17, 17, .rw, []⟩]⟩,
  ⟨"FC_AUX_DATA", 0x079018, 1, 0x0, 1, 0x0, 0x0#32, [⟨17, 0, .rw, []⟩]⟩,
  ⟨"FC_LAST_SWAP", 0x07901C, 1, 0x0, 1, 0x0, 0x0#32, [⟨9, 0, .ro, []⟩, ⟨25, 16, .ro, []⟩]⟩,
  ⟨"FC_SYNC_CFG", 0x079044, 15, 0x4, 1, 0x0, 0x0#32, [⟨1, 0, .rw, [(0, 2)]⟩, ⟨2, 2, .rw, []⟩, ⟨4, 3, .rw, [(0, 2)]⟩, ⟨5, 5, .rw, []⟩, ⟨6, 6, .rw, []⟩, ⟨7, 7, .rw, []⟩, ⟨8, 8, .rw, []⟩, ⟨31, 16, .rw, []⟩]⟩,
  ⟨"FC_SYNC_TIME_LO", 0x079088, 15, 0x8, 1, 0x0, 0x0#32, [⟨31, 0, .ro, []⟩]⟩,
  ⟨"FC_SYNC_TIME_HI", 0x07908C, 15, 0x8, 1, 0x0, 0x0#32, [⟨31, 0, .ro, []⟩]⟩,
  ⟨"FC_ENGINE_LOAD", 0x079100, 14, 0x4, 1, 0x0, 0x0#32, [⟨15, 0, .ro, []⟩, ⟨31, 16, .ro, []⟩]⟩,
  ⟨"FC_SAT_PEND", 0x079200, 23, 0x4, 1, 0x0, 0x0#32, [⟨31, 0, .w1c, []⟩]⟩,
  ⟨"FC_SAT_PEND", 0x07925C, 1, 0x4, 1, 0x0, 0x0#32, [⟨21, 0, .w1c, []⟩]⟩,
  ⟨"FC_THR_PEND", 0x079300, 23, 0x4, 1, 0x0, 0x0#32, [⟨31, 0, .w1c, []⟩]⟩,
  ⟨"FC_THR_PEND", 0x07935C, 1, 0x4, 1, 0x0, 0x0#32, [⟨21, 0, .w1c, []⟩]⟩]

def strRows : List RegRow := [
  ⟨"STR_CTRL", 0x080000, 576, 0x100, 1, 0x0, 0xD#32, [⟨0, 0, .rw, []⟩, ⟨1, 1, .rw, []⟩, ⟨2, 2, .rw, []⟩, ⟨3, 3, .rw, []⟩, ⟨4, 4, .rw, []⟩]⟩,
  ⟨"STR_SYM_CFG", 0x080004, 576, 0x100, 1, 0x0, 0x2800#32, [⟨15, 0, .rws, [(2048, 65535)]⟩, ⟨16, 16, .rws, []⟩, ⟨18, 17, .rws, [(0, 2)]⟩]⟩,
  ⟨"STR_SYNC_WORD", 0x080008, 576, 0x100, 1, 0x0, 0x0#32, [⟨31, 0, .rws, []⟩]⟩,
  ⟨"STR_DET", 0x08000C, 576, 0x100, 1, 0x0, 0x100C0034#32, [⟨9, 0, .rws, []⟩, ⟨21, 16, .rws, [(4, 32)]⟩, ⟨29, 24, .rws, [(8, 32)]⟩]⟩,
  ⟨"STR_SYNC_CFG", 0x080010, 576, 0x100, 1, 0x0, 0x10040#32, [⟨9, 0, .rws, [(1, 1023)]⟩, ⟨17, 16, .rws, []⟩]⟩,
  ⟨"STR_AGC_CFG", 0x080014, 576, 0x100, 1, 0x0, 0x30#32, [⟨7, 0, .rw, [(12, 96)]⟩]⟩,
  ⟨"STR_AFC_CFG", 0x080018, 576, 0x100, 1, 0x0, 0x110#32, [⟨5, 0, .rw, [(1, 32)]⟩, ⟨8, 8, .rw, []⟩]⟩,
  ⟨"STR_MARGINS", 0x08001C, 576, 0x100, 1, 0x0, 0x906#32, [⟨4, 0, .rw, [(3, 20)]⟩, ⟨12, 8, .rw, [(3, 20)]⟩]⟩,
  ⟨"STR_CAL", 0x080020, 576, 0x100, 1, 0x0, 0x0#32, [⟨11, 0, .rw, []⟩, ⟨31, 16, .rw, []⟩]⟩,
  ⟨"STR_STATUS", 0x080024, 576, 0x100, 1, 0x0, 0x0#32, [⟨2, 0, .ro, []⟩, ⟨4, 4, .ro, []⟩, ⟨5, 5, .ro, []⟩, ⟨6, 6, .ro, []⟩, ⟨24, 16, .ro, []⟩]⟩,
  ⟨"STR_AFC_EST", 0x080028, 576, 0x100, 1, 0x0, 0x0#32, [⟨31, 0, .ro, []⟩]⟩,
  ⟨"STR_LAST_RX", 0x08002C, 576, 0x100, 1, 0x0, 0x0#32, [⟨3, 0, .ro, []⟩, ⟨5, 4, .ro, []⟩, ⟨6, 6, .ro, []⟩, ⟨7, 7, .ro, []⟩, ⟨8, 8, .ro, []⟩, ⟨9, 9, .ro, []⟩, ⟨10, 10, .ro, []⟩, ⟨23, 16, .ro, []⟩]⟩,
  ⟨"STR_LAST_LEVEL", 0x080030, 576, 0x100, 1, 0x0, 0x0#32, [⟨11, 0, .ro, []⟩, ⟨25, 16, .ro, []⟩]⟩,
  ⟨"STR_LAST_TIME_LO", 0x080034, 576, 0x100, 1, 0x0, 0x0#32, [⟨31, 0, .ro, []⟩]⟩,
  ⟨"STR_LAST_TIME_HI", 0x080038, 576, 0x100, 1, 0x0, 0x0#32, [⟨31, 0, .ro, []⟩]⟩,
  ⟨"STR_CNT_DET", 0x08003C, 576, 0x100, 1, 0x0, 0x0#32, [⟨15, 0, .ro, []⟩, ⟨31, 16, .ro, []⟩]⟩,
  ⟨"STR_CNT_SYNC", 0x080040, 576, 0x100, 1, 0x0, 0x0#32, [⟨15, 0, .ro, []⟩, ⟨31, 16, .ro, []⟩]⟩,
  ⟨"STR_CNT_REPLAY", 0x080044, 576, 0x100, 1, 0x0, 0x0#32, [⟨15, 0, .ro, []⟩, ⟨31, 16, .ro, []⟩]⟩,
  ⟨"STR_CNT_CAP", 0x080048, 576, 0x100, 1, 0x0, 0x0#32, [⟨15, 0, .ro, []⟩, ⟨31, 16, .ro, []⟩]⟩,
  ⟨"STR_CNT_MISC", 0x08004C, 576, 0x100, 1, 0x0, 0x0#32, [⟨7, 0, .ro, []⟩, ⟨15, 8, .ro, []⟩, ⟨23, 16, .ro, []⟩, ⟨31, 24, .ro, []⟩]⟩,
  ⟨"STR_PORT_VIEW", 0x080050, 576, 0x100, 1, 0x0, 0x0#32, [⟨2, 0, .ro, []⟩, ⟨6, 4, .ro, []⟩, ⟨9, 8, .ro, []⟩, ⟨15, 12, .ro, []⟩]⟩,
  ⟨"STR_COMMIT", 0x0B0000, 1, 0x0, 1, 0x0, 0x0#32, [⟨9, 0, .wo, []⟩, ⟨17, 16, .wo, []⟩]⟩,
  ⟨"STR_COMMIT_STAT", 0x0B0004, 1, 0x0, 1, 0x0, 0x0#32, [⟨0, 0, .ro, []⟩]⟩,
  ⟨"STR_CNT_CLR", 0x0B0008, 1, 0x0, 1, 0x0, 0x0#32, [⟨9, 0, .wo, []⟩, ⟨16, 16, .wo, []⟩]⟩,
  ⟨"STR_EV_SRC", 0x0B0040, 11, 0x4, 1, 0x0, 0x0#32, [⟨9, 0, .ro, []⟩]⟩,
  ⟨"STR_TONE_CENTRE", 0x080058, 576, 0x100, 1, 0x0, 0x990#32, [⟨20, 0, .rws, [(120, 19600)]⟩]⟩,
  ⟨"STR_TONE_SPACING", 0x08005C, 576, 0x100, 1, 0x0, 0x60#32, [⟨15, 0, .rws, [(1, 65535)]⟩, ⟨31, 31, .rws, []⟩]⟩,
  ⟨"STR_TX_CFG", 0x080060, 576, 0x100, 1, 0x0, 0x180414#32, [⟨2, 0, .rws, [(0, 6)]⟩, ⟨3, 3, .rws, []⟩, ⟨5, 4, .rws, [(0, 2)]⟩, ⟨7, 6, .rws, [(0, 2)]⟩, ⟨12, 8, .rws, [(0, 0), (2, 31)]⟩, ⟨22, 16, .rws, []⟩]⟩,
  ⟨"STR_FRM_CFG", 0x080064, 576, 0x100, 1, 0x0, 0x4#32, [⟨2, 0, .rws, [(0, 6)]⟩]⟩,
  ⟨"STR_FRM_LAST", 0x080068, 576, 0x100, 1, 0x0, 0x0#32, [⟨3, 0, .ro, []⟩, ⟨5, 4, .ro, []⟩, ⟨7, 6, .ro, []⟩, ⟨8, 8, .ro, []⟩, ⟨9, 9, .ro, []⟩, ⟨13, 10, .ro, []⟩, ⟨26, 16, .ro, []⟩]⟩,
  ⟨"STR_FRM_CNT_A", 0x08006C, 576, 0x100, 1, 0x0, 0x0#32, [⟨15, 0, .ro, []⟩, ⟨31, 16, .ro, []⟩]⟩,
  ⟨"STR_FRM_CNT_B", 0x080070, 576, 0x100, 1, 0x0, 0x0#32, [⟨15, 0, .ro, []⟩, ⟨31, 16, .ro, []⟩]⟩,
  ⟨"STR_FRM_LAST2", 0x080074, 576, 0x100, 1, 0x0, 0x0#32, [⟨7, 0, .ro, []⟩, ⟨14, 8, .ro, []⟩]⟩,
  ⟨"STR_FRM_POLICY", 0x0B0100, 1, 0x0, 1, 0x0, 0x40#32, [⟨11, 0, .rw, []⟩]⟩,
  ⟨"STR_VIT_STAT", 0x0B0104, 1, 0x0, 1, 0x0, 0x0#32, [⟨7, 0, .ro, []⟩, ⟨9, 8, .ro, []⟩, ⟨23, 16, .ro, []⟩]⟩,
  ⟨"STR_EV_SRC", 0x0B0140, 11, 0x4, 1, 0x0, 0x0#32, [⟨9, 0, .ro, []⟩]⟩]

def mnsRows : List RegRow := [
  ⟨"MNS_MAP_CFG", 0x0C0000, 1, 0x0, 1, 0x0, 0x10C8#32, [⟨3, 0, .rw, [(4, 12)]⟩, ⟨8, 4, .rw, [(4, 31)]⟩, ⟨12, 12, .rw, []⟩]⟩,
  ⟨"MNS_WEIGHT_CFG", 0x0C0004, 1, 0x0, 1, 0x0, 0x401#32, [⟨0, 0, .rw, []⟩, ⟨11, 8, .rw, []⟩]⟩,
  ⟨"MNS_PHASE_CFG", 0x0C0008, 1, 0x0, 1, 0x0, 0x330000#32, [⟨15, 0, .rw, []⟩, ⟨19, 16, .rw, [(1, 15)]⟩, ⟨22, 20, .rw, [(1, 7)]⟩]⟩,
  ⟨"MNS_COMB_CFG", 0x0C000C, 1, 0x0, 1, 0x0, 0x10000#32, [⟨9, 0, .rw, []⟩, ⟨16, 16, .rw, []⟩]⟩,
  ⟨"MNS_COMMIT", 0x0C0010, 1, 0x0, 1, 0x0, 0x0#32, [⟨8, 0, .wo, []⟩]⟩,
  ⟨"MNS_COMMIT_STAT", 0x0C0014, 1, 0x0, 1, 0x0, 0x0#32, [⟨8, 0, .ro, []⟩]⟩,
  ⟨"MNS_PHASE_LAST", 0x0C0018, 1, 0x0, 1, 0x0, 0x0#32, [⟨15, 0, .ro, []⟩, ⟨19, 16, .ro, []⟩, ⟨21, 20, .ro, []⟩, ⟨31, 22, .ro, []⟩]⟩,
  ⟨"MNS_COMB_CNT", 0x0C001C, 1, 0x0, 1, 0x0, 0x0#32, [⟨15, 0, .ro, []⟩, ⟨31, 16, .ro, []⟩]⟩,
  ⟨"MNS_EV_SRC", 0x0C0040, 5, 0x4, 1, 0x0, 0x0#32, [⟨15, 0, .ro, []⟩]⟩,
  ⟨"MNS_TRIPLE_MAP", 0x0C0200, 9, 0x4, 1, 0x0, 0x24924924#32, [⟨1, 0, .rw, [(0, 2)]⟩, ⟨3, 2, .rw, [(0, 2)]⟩, ⟨5, 4, .rw, [(0, 2)]⟩, ⟨7, 6, .rw, [(0, 2)]⟩, ⟨9, 8, .rw, [(0, 2)]⟩, ⟨11, 10, .rw, [(0, 2)]⟩, ⟨13, 12, .rw, [(0, 2)]⟩, ⟨15, 14, .rw, [(0, 2)]⟩, ⟨17, 16, .rw, [(0, 2)]⟩, ⟨19, 18, .rw, [(0, 2)]⟩, ⟨21, 20, .rw, [(0, 2)]⟩, ⟨23, 22, .rw, [(0, 2)]⟩, ⟨25, 24, .rw, [(0, 2)]⟩, ⟨27, 26, .rw, [(0, 2)]⟩, ⟨29, 28, .rw, [(0, 2)]⟩]⟩,
  ⟨"MNS_SET_STAT", 0x0C0100, 2, 0x40, 1, 0x0, 0x0#32, [⟨1, 0, .ro, []⟩, ⟨4, 2, .ro, []⟩, ⟨6, 5, .ro, []⟩, ⟨31, 16, .ro, []⟩]⟩,
  ⟨"MNS_PERIOD", 0x0C0104, 2, 0x40, 1, 0x0, 0x0#32, [⟨19, 0, .ro, []⟩]⟩,
  ⟨"MNS_ZC_CFG", 0x0C0108, 2, 0x40, 1, 0x0, 0x51F0000#32, [⟨15, 0, .rw, []⟩, ⟨31, 16, .rw, []⟩]⟩,
  ⟨"MNS_CYCLES", 0x0C010C, 2, 0x40, 1, 0x0, 0x0#32, [⟨31, 0, .ro, []⟩]⟩,
  ⟨"MNS_ZC_TIME_LO", 0x0C0110, 2, 0x40, 6, 0x8, 0x0#32, [⟨31, 0, .ro, []⟩]⟩,
  ⟨"MNS_ZC_TIME_HI", 0x0C0114, 2, 0x40, 6, 0x8, 0x0#32, [⟨31, 0, .ro, []⟩]⟩,
  ⟨"MNS_PORT_CTL", 0x0C1000, 144, 0x10, 1, 0x0, 0x0#32, [⟨0, 0, .rw, []⟩, ⟨1, 1, .w1s, []⟩]⟩,
  ⟨"MNS_PORT_STAT", 0x0C1004, 144, 0x10, 1, 0x0, 0x0#32, [⟨6, 0, .ro, []⟩, ⟨7, 7, .ro, []⟩, ⟨31, 16, .ro, []⟩]⟩,
  ⟨"MNS_BLANK_CFG", 0x0C4000, 576, 0x10, 1, 0x0, 0xC080C#32, [⟨4, 0, .rw, [(4, 31)]⟩, ⟨12, 8, .rw, []⟩, ⟨19, 16, .rw, [(8, 15)]⟩, ⟨25, 24, .rw, [(0, 2)]⟩]⟩,
  ⟨"MNS_BLANK_STAT", 0x0C4004, 576, 0x10, 1, 0x0, 0x0#32, [⟨0, 0, .ro, []⟩, ⟨14, 8, .ro, []⟩, ⟨31, 16, .ro, []⟩]⟩,
  ⟨"MNS_NOISE_RMS", 0x0C4008, 576, 0x10, 1, 0x0, 0x0#32, [⟨11, 0, .ro, []⟩]⟩,
  ⟨"MNS_COMB_GRP", 0x0C8000, 144, 0x10, 1, 0x0, 0x0#32, [⟨3, 0, .rws, []⟩, ⟨5, 4, .rws, []⟩, ⟨7, 7, .rws, []⟩, ⟨11, 8, .rws, []⟩, ⟨13, 12, .rws, []⟩, ⟨15, 15, .rws, []⟩, ⟨19, 16, .rws, []⟩, ⟨21, 20, .rws, []⟩, ⟨23, 23, .rws, []⟩, ⟨27, 24, .rws, []⟩, ⟨29, 28, .rws, []⟩, ⟨31, 31, .rws, []⟩]⟩,
  ⟨"MNS_COMB_STAT", 0x0C8004, 144, 0x10, 1, 0x0, 0x0#32, [⟨3, 0, .ro, []⟩, ⟨7, 4, .ro, []⟩, ⟨9, 8, .ro, []⟩, ⟨27, 16, .ro, []⟩]⟩,
  ⟨"MNS_COMB_W01", 0x0C8008, 144, 0x10, 1, 0x0, 0x0#32, [⟨11, 0, .ro, []⟩, ⟨27, 16, .ro, []⟩]⟩,
  ⟨"MNS_COMB_W23", 0x0C800C, 144, 0x10, 1, 0x0, 0x0#32, [⟨11, 0, .ro, []⟩, ⟨27, 16, .ro, []⟩]⟩]

def plnRows : List RegRow := [
  ⟨"PLN_CTRL", 0x0D0000, 1, 0x0, 1, 0x0, 0x3F#32, [⟨5, 0, .rw, []⟩, ⟨8, 8, .rw, []⟩]⟩,
  ⟨"PLN_TIMING", 0x0D0004, 1, 0x0, 1, 0x0, 0xA0A#32, [⟨7, 0, .rw, [(1, 100)]⟩, ⟨15, 8, .rw, []⟩]⟩,
  ⟨"PLN_RATE", 0x0D0008, 1, 0x0, 1, 0x0, 0x24040C#32, [⟨5, 0, .rws, []⟩, ⟨13, 8, .rws, []⟩, ⟨19, 16, .rws, [(1, 15)]⟩, ⟨23, 20, .rws, [(0, 6)]⟩]⟩,
  ⟨"PLN_WIN", 0x0D000C, 1, 0x0, 1, 0x0, 0xC040301#32, [⟨4, 0, .rw, []⟩, ⟨11, 8, .rw, []⟩, ⟨19, 16, .rw, []⟩, ⟨29, 24, .rw, []⟩]⟩,
  ⟨"PLN_COMB", 0x0D0010, 1, 0x0, 1, 0x0, 0x8010C0C#32, [⟨5, 0, .rw, []⟩, ⟨13, 8, .rw, []⟩, ⟨16, 16, .rw, []⟩, ⟨29, 24, .rw, []⟩]⟩,
  ⟨"PLN_DISC", 0x0D0014, 1, 0x0, 1, 0x0, 0x40080384#32, [⟨15, 0, .rw, [(60, 65535)]⟩, ⟨22, 16, .rw, [(8, 64)]⟩, ⟨30, 24, .rw, [(8, 64)]⟩]⟩,
  ⟨"PLN_DISC2", 0x0D0018, 1, 0x0, 1, 0x0, 0x5FF04#32, [⟨2, 0, .rw, [(0, 6)]⟩, ⟨15, 8, .rw, []⟩, ⟨23, 16, .rw, [(0, 50)]⟩]⟩,
  ⟨"PLN_ASSOC", 0x0D001C, 1, 0x0, 1, 0x0, 0x33C0001#32, [⟨15, 0, .rw, [(1, 65533)]⟩, ⟨23, 16, .rw, []⟩, ⟨27, 24, .rw, [(1, 15)]⟩]⟩,
  ⟨"PLN_PHASE", 0x0D0020, 1, 0x0, 1, 0x0, 0x20018#32, [⟨15, 0, .rw, []⟩, ⟨23, 16, .rw, [(0, 50)]⟩]⟩,
  ⟨"PLN_RETRY", 0x0D0024, 1, 0x0, 1, 0x0, 0x502#32, [⟨3, 0, .rw, [(0, 7)]⟩, ⟨11, 8, .rw, []⟩, ⟨16, 16, .rw, []⟩]⟩,
  ⟨"PLN_COMMIT", 0x0D0028, 1, 0x0, 1, 0x0, 0x0#32, [⟨7, 0, .wo, []⟩, ⟨8, 8, .wo, []⟩, ⟨9, 9, .wo, []⟩]⟩,
  ⟨"PLN_COMMIT_STAT", 0x0D002C, 1, 0x0, 1, 0x0, 0x0#32, [⟨0, 0, .ro, []⟩]⟩,
  ⟨"PLN_STAT", 0x0D0030, 1, 0x0, 1, 0x0, 0x0#32, [⟨15, 0, .ro, []⟩, ⟨31, 16, .ro, []⟩]⟩,
  ⟨"PLN_KLP", 0x0D0034, 1, 0x0, 1, 0x0, 0xC#32, [⟨1, 0, .rws, []⟩, ⟨3, 2, .rws, []⟩]⟩,
  ⟨"PLN_BAND", 0x0D0038, 1, 0x0, 1, 0x0, 0x5B0024#32, [⟨8, 0, .rws, [(3, 490)]⟩, ⟨24, 16, .rws, [(3, 490)]⟩]⟩,
  ⟨"PLN_GRP_A", 0x0D0040, 8, 0x8, 1, 0x0, 0x803000F#32, [⟨15, 0, .rws, [(1, 65535)]⟩, ⟨19, 16, .rws, []⟩, ⟨27, 24, .rws, [(1, 15)]⟩]⟩,
  ⟨"PLN_GRP_B", 0x0D0044, 8, 0x8, 1, 0x0, 0x3F60#32, [⟨2, 0, .rws, [(0, 6)]⟩, ⟨6, 4, .rws, [(0, 6)]⟩, ⟨8, 8, .rws, []⟩, ⟨11, 9, .rws, []⟩, ⟨12, 12, .rws, []⟩, ⟨13, 13, .rws, []⟩]⟩,
  ⟨"PLN_PIN_SESSION", 0x0D0100, 1, 0x0, 1, 0x0, 0x0#32, [⟨15, 0, .rw, []⟩]⟩,
  ⟨"PLN_PIN_PLACE", 0x0D0104, 1, 0x0, 1, 0x0, 0x0#32, [⟨15, 0, .rw, []⟩, ⟨19, 16, .rw, [(0, 8)]⟩, ⟨21, 20, .rw, []⟩]⟩,
  ⟨"PLN_PIN_MODE", 0x0D0108, 1, 0x0, 1, 0x0, 0x0#32, [⟨2, 0, .rw, []⟩, ⟨3, 3, .rw, []⟩, ⟨5, 4, .rw, []⟩, ⟨14, 8, .rw, []⟩, ⟨22, 16, .rw, []⟩]⟩,
  ⟨"PLN_PIN_CMD", 0x0D010C, 1, 0x0, 1, 0x0, 0x0#32, [⟨4, 0, .wo, []⟩, ⟨8, 8, .wo, []⟩, ⟨9, 9, .wo, []⟩]⟩,
  ⟨"PLN_PIN_STAT", 0x0D0110, 1, 0x0, 1, 0x0, 0x0#32, [⟨4, 0, .ro, []⟩, ⟨8, 8, .ro, []⟩, ⟨9, 9, .ro, []⟩]⟩,
  ⟨"PLN_CORD_LOAD", 0x0D0200, 9, 0x10, 1, 0x0, 0x0#32, [⟨7, 0, .ro, []⟩, ⟨15, 8, .ro, []⟩, ⟨23, 16, .ro, []⟩]⟩,
  ⟨"PLN_CORD_EXCH", 0x0D0204, 9, 0x10, 1, 0x0, 0x0#32, [⟨31, 0, .ro, []⟩]⟩,
  ⟨"PLN_CORD_FAIL", 0x0D0208, 9, 0x10, 1, 0x0, 0x0#32, [⟨31, 0, .ro, []⟩]⟩,
  ⟨"PLN_CORD_LAST", 0x0D020C, 9, 0x10, 1, 0x0, 0x0#32, [⟨15, 0, .ro, []⟩, ⟨19, 16, .ro, []⟩, ⟨22, 20, .ro, []⟩, ⟨27, 24, .ro, []⟩]⟩,
  ⟨"PLN_EV_SRC", 0x0D0300, 11, 0x4, 1, 0x0, 0x0#32, [⟨15, 0, .ro, []⟩]⟩]

def macRows0 : List RegRow := [
  ⟨"RFS_UP_CNT", 0x0E0080, 32, 0x100, 1, 0x0, 0x0#32, [⟨15, 0, .ro, []⟩, ⟨31, 16, .ro, []⟩]⟩,
  ⟨"RFS_DOWN_CNT", 0x0E0084, 32, 0x100, 1, 0x0, 0x0#32, [⟨15, 0, .ro, []⟩, ⟨31, 16, .ro, []⟩]⟩,
  ⟨"RFS_LAST_PAIR", 0x0E0088, 32, 0x100, 1, 0x0, 0x0#32, [⟨15, 0, .ro, []⟩, ⟨21, 16, .ro, []⟩, ⟨26, 24, .ro, []⟩]⟩,
  ⟨"RFS_HEAD_CFG", 0x0E2000, 4, 0x100, 1, 0x0, 0x0#32, [⟨0, 0, .rws, []⟩, ⟨1, 1, .rws, []⟩]⟩,
  ⟨"RFS_HEAD_STAT", 0x0E2004, 4, 0x100, 1, 0x0, 0x0#32, [⟨2, 0, .ro, []⟩, ⟨3, 3, .ro, []⟩, ⟨7, 4, .ro, []⟩, ⟨31, 16, .ro, []⟩]⟩,
  ⟨"RFS_HEAD_TX", 0x0E2008, 4, 0x100, 1, 0x0, 0x104#32, [⟨6, 0, .rw, []⟩, ⟨8, 8, .rw, []⟩]⟩,
  ⟨"RFS_HEAD_TX_STAT", 0x0E200C, 4, 0x100, 1, 0x0, 0x0#32, [⟨15, 0, .ro, []⟩, ⟨23, 16, .ro, []⟩]⟩,
  ⟨"RFS_GAIN_TBL", 0x0E2040, 4, 0x100, 16, 0x4, 0x0#32, [⟨11, 0, .rw, []⟩, ⟨16, 16, .rw, []⟩]⟩,
  ⟨"MAC_CTRL", 0x0E4000, 1, 0x0, 1, 0x0, 0x0#32, [⟨0, 0, .rw, []⟩, ⟨1, 1, .rw, []⟩, ⟨2, 2, .rw, []⟩]⟩,
  ⟨"MAC_STATUS", 0x0E4004, 1, 0x0, 1, 0x0, 0x0#32, [⟨1, 0, .ro, []⟩, ⟨13, 8, .ro, []⟩, ⟨23, 16, .ro, []⟩]⟩,
  ⟨"MAC_SFN", 0x0E4008, 1, 0x0, 1, 0x0, 0x0#32, [⟨31, 0, .ro, []⟩]⟩,
  ⟨"MAC_SF_START_LO", 0x0E400C, 1, 0x0, 1, 0x0, 0x0#32, [⟨31, 0, .ro, []⟩]⟩,
  ⟨"MAC_SF_START_HI", 0x0E4010, 1, 0x0, 1, 0x0, 0x0#32, [⟨31, 0, .ro, []⟩]⟩,
  ⟨"MAC_SF_CFG", 0x0E4014, 1, 0x0, 1, 0x0, 0xA0F0F14#32, [⟨6, 0, .rws, [(5, 80)]⟩, ⟨15, 8, .rws, [(1, 100)]⟩, ⟨22, 16, .rws, []⟩, ⟨31, 24, .rws, [(5, 50)]⟩]⟩,
  ⟨"MAC_CONT", 0x0E4018, 1, 0x0, 1, 0x0, 0xFFF0201#32, [⟨5, 0, .rws, [(1, 63)]⟩, ⟨11, 8, .rws, [(0, 8)]⟩, ⟨23, 16, .rws, []⟩, ⟨27, 24, .rws, []⟩]⟩,
  ⟨"MAC_HOP", 0x0E401C, 1, 0x0, 1, 0x0, 0x1#32, [⟨6, 0, .rws, [(1, 64)]⟩]⟩,
  ⟨"MAC_RASTER", 0x0E4020, 1, 0x0, 1, 0x0, 0x8D2B18#32, [⟨19, 0, .rws, []⟩, ⟨27, 20, .rws, [(1, 255)]⟩]⟩,
  ⟨"MAC_BAND", 0x0E4024, 1, 0x0, 1, 0x0, 0x36C035F#32, [⟨9, 0, .rws, []⟩, ⟨25, 16, .rws, []⟩]⟩,
  ⟨"MAC_RX", 0x0E4028, 1, 0x0, 1, 0x0, 0xA#32, [⟨4, 0, .rw, []⟩, ⟨11, 8, .rw, []⟩]⟩,
  ⟨"MAC_DWELL", 0x0E402C, 1, 0x0, 1, 0x0, 0x1901401#32, [⟨0, 0, .rw, []⟩, ⟨13, 8, .rw, [(1, 60)]⟩, ⟨31, 16, .rw, []⟩]⟩,
  ⟨"MAC_ASSOC", 0x0E4030, 1, 0x0, 1, 0x0, 0x404#32, [⟨2, 0, .rw, [(0, 6)]⟩, ⟨11, 8, .rw, [(1, 15)]⟩]⟩,
  ⟨"MAC_SUB", 0x0E4034, 1, 0x0, 1, 0x0, 0x32000000#32, [⟨5, 0, .rws, []⟩, ⟨13, 8, .rws, []⟩, ⟨17, 16, .rws, []⟩, ⟨31, 24, .rws, [(1, 255)]⟩]⟩,
  ⟨"MAC_SPI_CFG", 0x0E4038, 1, 0x0, 1, 0x0, 0x1#32, [⟨3, 0, .rw, []⟩]⟩,
  ⟨"MAC_SCRIPT_ADDR", 0x0E403C, 1, 0x0, 1, 0x0, 0x0#32, [⟨14, 0, .rw, []⟩, ⟨16, 16, .rw, []⟩]⟩,
  ⟨"MAC_SCRIPT_DATA", 0x0E4040, 1, 0x0, 1, 0x0, 0x0#32, [⟨31, 0, .rw, []⟩]⟩,
  ⟨"MAC_COMMIT", 0x0E4044, 1, 0x0, 1, 0x0, 0x0#32, [⟨0, 0, .wo, []⟩]⟩,
  ⟨"MAC_COMMIT_STAT", 0x0E4048, 1, 0x0, 1, 0x0, 0x0#32, [⟨0, 0, .ro, []⟩]⟩,
  ⟨"MAC_PAIR_STAT", 0x0E404C, 1, 0x0, 1, 0x0, 0x0#32, [⟨15, 0, .ro, []⟩, ⟨31, 16, .ro, []⟩]⟩,
  ⟨"MAC_DWELL_STAT", 0x0E4050, 1, 0x0, 1, 0x0, 0x0#32, [⟨15, 0, .ro, []⟩, ⟨23, 16, .ro, []⟩, ⟨25, 24, .ro, []⟩, ⟨26, 26, .ro, []⟩]⟩,
  ⟨"MAC_HOP_TBL", 0x0E4100, 64, 0x4, 1, 0x0, 0x0#32, [⟨7, 0, .rws, []⟩, ⟨15, 8, .rws, []⟩, ⟨23, 16, .rws, []⟩, ⟨31, 24, .rws, []⟩]⟩,
  ⟨"MAC_SUBBAND_A", 0x0E4200, 8, 0x8, 1, 0x0, 0x0#32, [⟨19, 0, .rws, []⟩]⟩,
  ⟨"MAC_SUBBAND_B", 0x0E4204, 8, 0x8, 1, 0x0, 0x0#32, [⟨11, 0, .rws, []⟩, ⟨25, 12, .rws, [(0, 10000)]⟩]⟩,
  ⟨"MAC_DUTY_USED", 0x0E4240, 8, 0x4, 1, 0x0, 0x0#32, [⟨9, 0, .ro, []⟩]⟩,
  ⟨"MAC_OBS", 0x0E4300, 16, 0x4, 1, 0x0, 0x0#32, [⟨5, 0, .ro, []⟩, ⟨6, 6, .ro, []⟩, ⟨13, 8, .ro, []⟩, ⟨31, 16, .ro, []⟩]⟩,
  ⟨"MAC_EV_SRC", 0x0E4400, 15, 0x4, 1, 0x0, 0x0#32, [⟨15, 0, .ro, []⟩]⟩,
  ⟨"RFS_CTRL", 0x0E0000, 32, 0x100, 1, 0x0, 0xB#32, [⟨0, 0, .rw, []⟩, ⟨1, 1, .rw, []⟩, ⟨2, 2, .rw, []⟩, ⟨3, 3, .rw, []⟩, ⟨4, 4, .rw, []⟩]⟩,
  ⟨"RFS_SYM_CFG", 0x0E0004, 32, 0x100, 1, 0x0, 0x2800#32, [⟨15, 0, .rws, [(2048, 65535)]⟩, ⟨16, 16, .rws, []⟩, ⟨18, 17, .rws, [(0, 2)]⟩]⟩,
  ⟨"RFS_SYNC_WORD", 0x0E0008, 32, 0x100, 1, 0x0, 0x0#32, [⟨31, 0, .rws, []⟩]⟩,
  ⟨"RFS_DET", 0x0E000C, 32, 0x100, 1, 0x0, 0x100C0310#32, [⟨9, 0, .rws, []⟩, ⟨21, 16, .rws, [(4, 32)]⟩, ⟨29, 24, .rws, [(8, 32)]⟩]⟩,
  ⟨"RFS_SYNC_CFG", 0x0E0010, 32, 0x100, 1, 0x0, 0x10040#32, [⟨9, 0, .rws, [(1, 1023)]⟩, ⟨17, 16, .rws, []⟩]⟩]

def macRows1 : List RegRow := [
  ⟨"RFS_AGC_CFG", 0x0E0014, 32, 0x100, 1, 0x0, 0x30#32, [⟨7, 0, .rw, [(12, 96)]⟩]⟩,
  ⟨"RFS_AFC_CFG", 0x0E0018, 32, 0x100, 1, 0x0, 0x110#32, [⟨5, 0, .rw, [(1, 32)]⟩, ⟨8, 8, .rw, []⟩]⟩,
  ⟨"RFS_MARGINS", 0x0E001C, 32, 0x100, 1, 0x0, 0x906#32, [⟨4, 0, .rw, [(3, 20)]⟩, ⟨12, 8, .rw, [(3, 20)]⟩]⟩,
  ⟨"RFS_CAL", 0x0E0020, 32, 0x100, 1, 0x0, 0x0#32, [⟨11, 0, .rw, []⟩, ⟨31, 16, .rw, []⟩]⟩,
  ⟨"RFS_STATUS", 0x0E0024, 32, 0x100, 1, 0x0, 0x0#32, [⟨2, 0, .ro, []⟩, ⟨4, 4, .ro, []⟩, ⟨5, 5, .ro, []⟩, ⟨6, 6, .ro, []⟩, ⟨24, 16, .ro, []⟩]⟩,
  ⟨"RFS_AFC_EST", 0x0E0028, 32, 0x100, 1, 0x0, 0x0#32, [⟨31, 0, .ro, []⟩]⟩,
  ⟨"RFS_LAST_RX", 0x0E002C, 32, 0x100, 1, 0x0, 0x0#32, [⟨3, 0, .ro, []⟩, ⟨5, 4, .ro, []⟩, ⟨6, 6, .ro, []⟩, ⟨7, 7, .ro, []⟩, ⟨8, 8, .ro, []⟩, ⟨9, 9, .ro, []⟩, ⟨10, 10, .ro, []⟩, ⟨23, 16, .ro, []⟩]⟩,
  ⟨"RFS_LAST_LEVEL", 0x0E0030, 32, 0x100, 1, 0x0, 0x0#32, [⟨11, 0, .ro, []⟩, ⟨25, 16, .ro, []⟩]⟩,
  ⟨"RFS_LAST_TIME_LO", 0x0E0034, 32, 0x100, 1, 0x0, 0x0#32, [⟨31, 0, .ro, []⟩]⟩,
  ⟨"RFS_LAST_TIME_HI", 0x0E0038, 32, 0x100, 1, 0x0, 0x0#32, [⟨31, 0, .ro, []⟩]⟩,
  ⟨"RFS_CNT_DET", 0x0E003C, 32, 0x100, 1, 0x0, 0x0#32, [⟨15, 0, .ro, []⟩, ⟨31, 16, .ro, []⟩]⟩,
  ⟨"RFS_CNT_SYNC", 0x0E0040, 32, 0x100, 1, 0x0, 0x0#32, [⟨15, 0, .ro, []⟩, ⟨31, 16, .ro, []⟩]⟩,
  ⟨"RFS_CNT_REPLAY", 0x0E0044, 32, 0x100, 1, 0x0, 0x0#32, [⟨15, 0, .ro, []⟩, ⟨31, 16, .ro, []⟩]⟩,
  ⟨"RFS_CNT_CAP", 0x0E0048, 32, 0x100, 1, 0x0, 0x0#32, [⟨15, 0, .ro, []⟩, ⟨31, 16, .ro, []⟩]⟩,
  ⟨"RFS_CNT_MISC", 0x0E004C, 32, 0x100, 1, 0x0, 0x0#32, [⟨7, 0, .ro, []⟩, ⟨15, 8, .ro, []⟩, ⟨23, 16, .ro, []⟩, ⟨31, 24, .ro, []⟩]⟩,
  ⟨"RFS_PORT_VIEW", 0x0E0050, 32, 0x100, 1, 0x0, 0x0#32, [⟨2, 0, .ro, []⟩, ⟨6, 4, .ro, []⟩, ⟨9, 8, .ro, []⟩, ⟨15, 12, .ro, []⟩]⟩,
  ⟨"RFS_TONE_CENTRE", 0x0E0058, 32, 0x100, 1, 0x0, 0x990#32, [⟨20, 0, .rws, [(0, 64000), (2033152, 2097151)]⟩]⟩,
  ⟨"RFS_TONE_SPACING", 0x0E005C, 32, 0x100, 1, 0x0, 0x60#32, [⟨15, 0, .rws, [(1, 65535)]⟩, ⟨31, 31, .rws, []⟩]⟩,
  ⟨"RFS_TX_CFG", 0x0E0060, 32, 0x100, 1, 0x0, 0x180414#32, [⟨2, 0, .rws, [(0, 6)]⟩, ⟨3, 3, .rws, []⟩, ⟨5, 4, .rws, [(0, 2)]⟩, ⟨7, 6, .rws, [(0, 2)]⟩, ⟨12, 8, .rws, [(0, 0), (2, 31)]⟩, ⟨22, 16, .rws, []⟩]⟩,
  ⟨"RFS_FRM_CFG", 0x0E0064, 32, 0x100, 1, 0x0, 0x4#32, [⟨2, 0, .rws, [(0, 6)]⟩]⟩,
  ⟨"RFS_FRM_LAST", 0x0E0068, 32, 0x100, 1, 0x0, 0x0#32, [⟨3, 0, .ro, []⟩, ⟨5, 4, .ro, []⟩, ⟨7, 6, .ro, []⟩, ⟨8, 8, .ro, []⟩, ⟨9, 9, .ro, []⟩, ⟨13, 10, .ro, []⟩, ⟨26, 16, .ro, []⟩]⟩,
  ⟨"RFS_FRM_CNT_A", 0x0E006C, 32, 0x100, 1, 0x0, 0x0#32, [⟨15, 0, .ro, []⟩, ⟨31, 16, .ro, []⟩]⟩,
  ⟨"RFS_FRM_CNT_B", 0x0E0070, 32, 0x100, 1, 0x0, 0x0#32, [⟨15, 0, .ro, []⟩, ⟨31, 16, .ro, []⟩]⟩,
  ⟨"RFS_FRM_LAST2", 0x0E0074, 32, 0x100, 1, 0x0, 0x0#32, [⟨7, 0, .ro, []⟩, ⟨14, 8, .ro, []⟩]⟩,
  ⟨"RFS_LINK_CFG", 0x0E2400, 1, 0x0, 1, 0x0, 0x0#32, [⟨0, 0, .rw, []⟩]⟩]

def macRows : List RegRow := macRows0 ++ macRows1

def mshRows : List RegRow := [
  ⟨"MSH_CTRL", 0x0F0000, 1, 0x0, 1, 0x0, 0x7#32, [⟨0, 0, .rw, []⟩, ⟨1, 1, .rw, []⟩, ⟨2, 2, .rw, []⟩]⟩,
  ⟨"MSH_CFG", 0x0F0004, 1, 0x0, 1, 0x0, 0xE100F46#32, [⟨3, 0, .rws, [(1, 15)]⟩, ⟨7, 4, .rws, [(1, 15)]⟩, ⟨11, 8, .rws, []⟩, ⟨31, 16, .rws, [(60, 65535)]⟩]⟩,
  ⟨"MSH_TIMING", 0x0F0008, 1, 0x0, 1, 0x0, 0x4#32, [⟨7, 0, .rw, [(1, 255)]⟩]⟩,
  ⟨"MSH_COMMIT", 0x0F000C, 1, 0x0, 1, 0x0, 0x0#32, [⟨0, 0, .wo, []⟩]⟩,
  ⟨"MSH_COMMIT_STAT", 0x0F0010, 1, 0x0, 1, 0x0, 0x0#32, [⟨0, 0, .ro, []⟩]⟩,
  ⟨"MSH_STAT", 0x0F0014, 1, 0x0, 1, 0x0, 0x0#32, [⟨13, 0, .ro, []⟩, ⟨28, 16, .ro, []⟩]⟩,
  ⟨"MSH_CNT_OUT", 0x0F0018, 1, 0x0, 1, 0x0, 0x0#32, [⟨15, 0, .ro, []⟩, ⟨31, 16, .ro, []⟩]⟩,
  ⟨"MSH_CNT_DROP", 0x0F001C, 1, 0x0, 1, 0x0, 0x0#32, [⟨7, 0, .ro, []⟩, ⟨15, 8, .ro, []⟩, ⟨23, 16, .ro, []⟩, ⟨31, 24, .ro, []⟩]⟩,
  ⟨"MSH_CNT_ROUTE", 0x0F0020, 1, 0x0, 1, 0x0, 0x0#32, [⟨15, 0, .ro, []⟩, ⟨31, 16, .ro, []⟩]⟩,
  ⟨"MSH_ROUTE_CMD", 0x0F0024, 1, 0x0, 1, 0x0, 0x0#32, [⟨15, 0, .wo, []⟩, ⟨16, 16, .wo, []⟩, ⟨17, 17, .wo, []⟩]⟩,
  ⟨"MSH_FSEQ", 0x0F0028, 1, 0x0, 1, 0x0, 0x0#32, [⟨15, 0, .ro, []⟩]⟩,
  ⟨"MSH_EV_SRC", 0x0F0100, 5, 0x4, 1, 0x0, 0x0#32, [⟨15, 0, .ro, []⟩]⟩]

def sesRows : List RegRow := [
  ⟨"SES_CTRL", 0x100000, 1, 0x0, 1, 0x0, 0x1#32, [⟨0, 0, .rw, []⟩]⟩,
  ⟨"SES_STATUS", 0x100004, 1, 0x0, 1, 0x0, 0x0#32, [⟨1, 0, .ro, []⟩, ⟨3, 2, .ro, []⟩, ⟨4, 4, .ro, []⟩, ⟨5, 5, .ro, []⟩, ⟨6, 6, .ro, []⟩]⟩,
  ⟨"SES_COUNTS", 0x100008, 1, 0x0, 1, 0x0, 0x0#32, [⟨15, 0, .ro, []⟩, ⟨26, 16, .ro, []⟩]⟩,
  ⟨"SES_PARKED", 0x10000C, 1, 0x0, 1, 0x0, 0x0#32, [⟨15, 0, .ro, []⟩, ⟨31, 16, .ro, []⟩]⟩,
  ⟨"SES_CACHE_STAT", 0x100010, 1, 0x0, 1, 0x0, 0x0#32, [⟨12, 0, .ro, []⟩, ⟨28, 16, .ro, []⟩]⟩,
  ⟨"SES_CACHE_CNT", 0x100014, 1, 0x0, 1, 0x0, 0x0#32, [⟨15, 0, .ro, []⟩, ⟨31, 16, .ro, []⟩]⟩,
  ⟨"SES_LEASE_CFG", 0x100018, 1, 0x0, 1, 0x0, 0x3C32#32, [⟨7, 0, .rw, [(10, 200)]⟩, ⟨15, 8, .rw, []⟩]⟩,
  ⟨"SES_LEASE_CNT", 0x10001C, 1, 0x0, 1, 0x0, 0x0#32, [⟨15, 0, .ro, []⟩, ⟨31, 16, .ro, []⟩]⟩,
  ⟨"SES_JRN_CFG", 0x100020, 1, 0x0, 1, 0x0, 0x4B#32, [⟨6, 0, .rw, [(50, 95)]⟩]⟩,
  ⟨"SES_JRN_STAT", 0x100024, 1, 0x0, 1, 0x0, 0x0#32, [⟨6, 0, .ro, []⟩, ⟨31, 16, .ro, []⟩]⟩,
  ⟨"SES_SPOOL_CFG", 0x100028, 1, 0x0, 1, 0x0, 0x100055A#32, [⟨6, 0, .rw, [(50, 99)]⟩, ⟨11, 8, .rw, [(1, 15)]⟩, ⟨31, 16, .rw, [(1, 65535)]⟩]⟩,
  ⟨"SES_SPOOL_STAT", 0x10002C, 1, 0x0, 1, 0x0, 0x0#32, [⟨9, 0, .ro, []⟩, ⟨31, 16, .ro, []⟩]⟩,
  ⟨"SES_CREDIT", 0x100030, 1, 0x0, 1, 0x0, 0x0#32, [⟨23, 0, .ro, []⟩]⟩,
  ⟨"SES_DRAIN_CFG", 0x100034, 1, 0x0, 1, 0x0, 0x3C07D0#32, [⟨15, 0, .rw, [(100, 65535)]⟩, ⟨31, 16, .rw, [(1, 65535)]⟩]⟩,
  ⟨"SES_DRAIN_CNT", 0x100038, 1, 0x0, 1, 0x0, 0x0#32, [⟨15, 0, .ro, []⟩, ⟨31, 16, .ro, []⟩]⟩,
  ⟨"SES_FLOW_CNT", 0x10003C, 1, 0x0, 1, 0x0, 0x0#32, [⟨15, 0, .ro, []⟩, ⟨31, 16, .ro, []⟩]⟩,
  ⟨"SES_CMD", 0x100040, 1, 0x0, 1, 0x0, 0x0#32, [⟨15, 0, .wo, []⟩, ⟨19, 16, .wo, []⟩]⟩,
  ⟨"SES_CMD_STAT", 0x100044, 1, 0x0, 1, 0x0, 0x0#32, [⟨0, 0, .ro, []⟩, ⟨7, 4, .ro, []⟩, ⟨31, 16, .ro, []⟩]⟩,
  ⟨"SES_RESTORE_CFG", 0x100048, 1, 0x0, 1, 0x0, 0x258#32, [⟨15, 0, .rw, []⟩]⟩,
  ⟨"SES_RESTORE_STAT", 0x10004C, 1, 0x0, 1, 0x0, 0x0#32, [⟨15, 0, .ro, []⟩, ⟨31, 16, .ro, []⟩]⟩,
  ⟨"SES_SPOOL_RES", 0x100050, 1, 0x4, 1, 0x0, 0x40#32, [⟨15, 0, .rw, []⟩]⟩,
  ⟨"SES_SPOOL_RES", 0x100054, 1, 0x4, 1, 0x0, 0x40#32, [⟨15, 0, .rw, []⟩]⟩,
  ⟨"SES_SPOOL_RES", 0x100058, 1, 0x4, 1, 0x0, 0x40#32, [⟨15, 0, .rw, []⟩]⟩,
  ⟨"SES_SPOOL_RES", 0x10005C, 1, 0x4, 1, 0x0, 0x0#32, [⟨15, 0, .rw, []⟩]⟩,
  ⟨"SES_SPOOL_RES", 0x100060, 1, 0x4, 1, 0x0, 0x40#32, [⟨15, 0, .rw, []⟩]⟩,
  ⟨"SES_SPOOL_USED", 0x100070, 5, 0x4, 1, 0x0, 0x0#32, [⟨23, 0, .ro, []⟩]⟩,
  ⟨"SES_SPOOL_NEXT", 0x100090, 5, 0x8, 1, 0x0, 0x0#32, [⟨31, 0, .ro, []⟩]⟩,
  ⟨"SES_SPOOL_ACK", 0x100094, 5, 0x8, 1, 0x0, 0x0#32, [⟨31, 0, .ro, []⟩]⟩,
  ⟨"SES_EV_SRC", 0x1000C0, 20, 0x4, 1, 0x0, 0x0#32, [⟨15, 0, .ro, []⟩]⟩,
  ⟨"SES_CTX_WINDOW", 0x108000, 512, 0x4, 1, 0x0, 0x0#32, [⟨31, 0, .rw, []⟩]⟩,
  ⟨"CXL_CTRL", 0x104000, 1, 0x0, 1, 0x0, 0x0#32, [⟨0, 0, .w1s, []⟩]⟩,
  ⟨"CXL_LINK_STAT", 0x104004, 1, 0x0, 1, 0x0, 0x0#32, [⟨2, 0, .ro, []⟩, ⟨6, 4, .ro, []⟩, ⟨9, 8, .ro, []⟩, ⟨16, 16, .ro, []⟩]⟩,
  ⟨"CXL_DEV_SIZE", 0x104008, 1, 0x0, 1, 0x0, 0x0#32, [⟨15, 0, .ro, []⟩]⟩,
  ⟨"CXL_ERR_CFG", 0x10400C, 1, 0x0, 1, 0x0, 0x40064#32, [⟨15, 0, .rw, []⟩, ⟨23, 16, .rw, []⟩]⟩,
  ⟨"CXL_ERR_CNT", 0x104010, 1, 0x0, 1, 0x0, 0x0#32, [⟨15, 0, .ro, []⟩, ⟨31, 16, .ro, []⟩]⟩,
  ⟨"CXL_LINK_CNT", 0x104014, 1, 0x0, 1, 0x0, 0x0#32, [⟨15, 0, .ro, []⟩, ⟨31, 16, .ro, []⟩]⟩,
  ⟨"CXL_ERR_ADDR_LO", 0x104018, 1, 0x0, 1, 0x0, 0x0#32, [⟨31, 0, .ro, []⟩]⟩,
  ⟨"CXL_ERR_ADDR_HI", 0x10401C, 1, 0x0, 1, 0x0, 0x0#32, [⟨31, 0, .ro, []⟩]⟩,
  ⟨"CXL_GENERATION", 0x104020, 1, 0x0, 1, 0x0, 0x0#32, [⟨31, 0, .ro, []⟩]⟩]

def cipRows : List RegRow := [
  ⟨"CIP_CTRL", 0x110000, 1, 0x0, 1, 0x0, 0x3#32, [⟨0, 0, .rw, []⟩, ⟨1, 1, .rw, []⟩, ⟨2, 2, .rw, []⟩]⟩,
  ⟨"CIP_STATUS", 0x110004, 1, 0x0, 1, 0x0, 0x0#32, [⟨0, 0, .ro, []⟩, ⟨1, 1, .ro, []⟩, ⟨2, 2, .ro, []⟩, ⟨3, 3, .ro, []⟩, ⟨7, 4, .ro, []⟩]⟩,
  ⟨"CIP_CFG", 0x110008, 1, 0x0, 1, 0x0, 0x200#32, [⟨11, 0, .rws, [(64, 2048)]⟩]⟩,
  ⟨"CIP_COMMIT", 0x11000C, 1, 0x0, 1, 0x0, 0x0#32, [⟨0, 0, .wo, []⟩]⟩,
  ⟨"CIP_COMMIT_STAT", 0x110010, 1, 0x0, 1, 0x0, 0x0#32, [⟨0, 0, .ro, []⟩]⟩,
  ⟨"CIP_FINGERPRINT_LO", 0x110014, 1, 0x0, 1, 0x0, 0x0#32, [⟨31, 0, .ro, []⟩]⟩,
  ⟨"CIP_FINGERPRINT_HI", 0x110018, 1, 0x0, 1, 0x0, 0x0#32, [⟨31, 0, .ro, []⟩]⟩,
  ⟨"CIP_ANCHOR_CMD", 0x11001C, 1, 0x0, 1, 0x0, 0x0#32, [⟨7, 0, .wo, []⟩, ⟨8, 8, .wo, []⟩]⟩,
  ⟨"CIP_ANCHOR_STAT", 0x110020, 1, 0x0, 1, 0x0, 0x0#32, [⟨0, 0, .ro, []⟩, ⟨3, 1, .ro, []⟩]⟩,
  ⟨"CIP_KCACHE_CMD", 0x110024, 1, 0x0, 1, 0x0, 0x0#32, [⟨0, 0, .wo, []⟩]⟩,
  ⟨"CIP_KCACHE_STAT", 0x110028, 1, 0x0, 1, 0x0, 0x0#32, [⟨15, 0, .ro, []⟩, ⟨31, 16, .ro, []⟩]⟩,
  ⟨"CIP_CNT_A", 0x11002C, 1, 0x0, 1, 0x0, 0x0#32, [⟨15, 0, .ro, []⟩, ⟨31, 16, .ro, []⟩]⟩,
  ⟨"CIP_CNT_B", 0x110030, 1, 0x0, 1, 0x0, 0x0#32, [⟨15, 0, .ro, []⟩, ⟨31, 16, .ro, []⟩]⟩,
  ⟨"CIP_CNT_C", 0x110034, 1, 0x0, 1, 0x0, 0x0#32, [⟨15, 0, .ro, []⟩, ⟨31, 16, .ro, []⟩]⟩,
  ⟨"CIP_VAULT_STAT", 0x110038, 1, 0x0, 1, 0x0, 0x0#32, [⟨9, 0, .ro, []⟩, ⟨23, 16, .ro, []⟩]⟩,
  ⟨"CIP_VAULT_CNT", 0x11003C, 1, 0x0, 1, 0x0, 0x0#32, [⟨31, 0, .ro, []⟩]⟩,
  ⟨"CIP_ANCHOR_DATA", 0x110040, 8, 0x4, 1, 0x0, 0x0#32, [⟨31, 0, .wo, []⟩]⟩,
  ⟨"CIP_ENTROPY_STAT", 0x110060, 1, 0x0, 1, 0x0, 0x0#32, [⟨15, 0, .ro, []⟩]⟩,
  ⟨"CIP_REKEY_STAT", 0x110064, 1, 0x0, 1, 0x0, 0x0#32, [⟨15, 0, .ro, []⟩, ⟨31, 16, .ro, []⟩]⟩,
  ⟨"CIP_SES_CMD", 0x110080, 1, 0x0, 1, 0x0, 0x0#32, [⟨15, 0, .wo, []⟩, ⟨19, 16, .wo, []⟩]⟩,
  ⟨"CIP_SES_STAT", 0x110084, 1, 0x0, 1, 0x0, 0x0#32, [⟨0, 0, .ro, []⟩, ⟨3, 1, .ro, []⟩, ⟨31, 16, .ro, []⟩]⟩,
  ⟨"CIP_SES_KEY", 0x110088, 1, 0x0, 1, 0x0, 0x0#32, [⟨15, 0, .ro, []⟩, ⟨31, 16, .ro, []⟩]⟩,
  ⟨"CIP_SES_FLAGS", 0x11008C, 1, 0x0, 1, 0x0, 0x0#32, [⟨2, 0, .ro, []⟩, ⟨3, 3, .ro, []⟩, ⟨4, 4, .ro, []⟩, ⟨27, 16, .ro, []⟩]⟩,
  ⟨"CIP_SES_TX_NEXT", 0x110090, 1, 0x0, 1, 0x0, 0x0#32, [⟨31, 0, .ro, []⟩]⟩,
  ⟨"CIP_SES_TXC", 0x110094, 1, 0x0, 1, 0x0, 0x0#32, [⟨31, 0, .ro, []⟩]⟩,
  ⟨"CIP_SES_RX_NEXT", 0x110098, 1, 0x0, 1, 0x0, 0x0#32, [⟨31, 0, .ro, []⟩]⟩,
  ⟨"CIP_SES_RXM", 0x11009C, 1, 0x0, 1, 0x0, 0x0#32, [⟨31, 0, .ro, []⟩]⟩,
  ⟨"CIP_EV_SRC", 0x1100C0, 15, 0x4, 1, 0x0, 0x0#32, [⟨15, 0, .ro, []⟩]⟩,
  ⟨"CIP_RAW_CFG", 0x110100, 1, 0x0, 1, 0x0, 0x0#32, [⟨2, 0, .rw, [(0, 5)]⟩, ⟨3, 3, .rw, []⟩, ⟨4, 4, .rw, []⟩, ⟨5, 5, .rw, []⟩, ⟨12, 8, .rw, []⟩, ⟨19, 16, .rw, []⟩, ⟨21, 20, .rw, [(0, 2)]⟩, ⟨22, 22, .rw, []⟩]⟩,
  ⟨"CIP_RAW_LEN", 0x110104, 1, 0x0, 1, 0x0, 0x0#32, [⟨14, 0, .rw, [(0, 16384)]⟩, ⟨30, 16, .rw, [(0, 16384)]⟩]⟩,
  ⟨"CIP_RAW_SESSION", 0x110108, 1, 0x0, 1, 0x0, 0x0#32, [⟨15, 0, .rw, []⟩, ⟨31, 16, .rw, []⟩]⟩,
  ⟨"CIP_RAW_CMD", 0x11010C, 1, 0x0, 1, 0x0, 0x0#32, [⟨0, 0, .wo, []⟩, ⟨1, 1, .wo, []⟩]⟩,
  ⟨"CIP_RAW_STAT", 0x110110, 1, 0x0, 1, 0x0, 0x0#32, [⟨0, 0, .ro, []⟩, ⟨3, 1, .ro, []⟩, ⟨30, 16, .ro, []⟩]⟩,
  ⟨"CIP_RAW_IV", 0x110120, 4, 0x4, 1, 0x0, 0x0#32, [⟨31, 0, .rw, []⟩]⟩,
  ⟨"CIP_RAW_TAG", 0x110130, 4, 0x4, 1, 0x0, 0x0#32, [⟨31, 0, .rw, []⟩]⟩,
  ⟨"CIP_RAW_KEY", 0x110140, 8, 0x4, 1, 0x0, 0x0#32, [⟨31, 0, .wo, []⟩]⟩,
  ⟨"CIP_RAW_BUF", 0x114000, 4096, 0x4, 1, 0x0, 0x0#32, [⟨31, 0, .rw, []⟩]⟩]

def chkRows : List RegRow := [
  ⟨"CHK_CFG", 0x118000, 16, 0x40, 1, 0x0, 0x0#32, [⟨3, 0, .rws, []⟩, ⟨6, 4, .rws, [(0, 4)]⟩, ⟨8, 8, .rws, []⟩, ⟨9, 9, .rws, []⟩, ⟨10, 10, .rws, []⟩]⟩,
  ⟨"CHK_SEL", 0x118004, 16, 0x40, 1, 0x0, 0x0#32, [⟨15, 0, .rws, []⟩]⟩,
  ⟨"CHK_POLY", 0x118008, 16, 0x40, 1, 0x0, 0x0#32, [⟨31, 0, .rws, []⟩]⟩,
  ⟨"CHK_PARAM", 0x11800C, 16, 0x40, 1, 0x0, 0x20#32, [⟨5, 0, .rws, [(1, 32)]⟩, ⟨8, 8, .rws, []⟩, ⟨9, 9, .rws, []⟩]⟩,
  ⟨"CHK_INIT", 0x118010, 16, 0x40, 1, 0x0, 0x0#32, [⟨31, 0, .rws, []⟩]⟩,
  ⟨"CHK_XOROUT", 0x118014, 16, 0x40, 1, 0x0, 0x0#32, [⟨31, 0, .rws, []⟩]⟩,
  ⟨"CHK_WINDOW", 0x118018, 16, 0x40, 1, 0x0, 0x1#32, [⟨31, 0, .rws, [(1, 4294967295)]⟩]⟩,
  ⟨"CHK_ADDR_LO", 0x11801C, 16, 0x40, 1, 0x0, 0x0#32, [⟨31, 0, .rws, []⟩]⟩,
  ⟨"CHK_ADDR_HI", 0x118020, 16, 0x40, 1, 0x0, 0x0#32, [⟨5, 0, .rws, []⟩]⟩,
  ⟨"CHK_EXPECT", 0x118024, 16, 0x40, 1, 0x0, 0x0#32, [⟨31, 0, .rw, []⟩]⟩,
  ⟨"CHK_CMD", 0x118028, 16, 0x40, 1, 0x0, 0x0#32, [⟨0, 0, .wo, []⟩, ⟨1, 1, .wo, []⟩, ⟨2, 2, .wo, []⟩]⟩,
  ⟨"CHK_STATUS", 0x11802C, 16, 0x40, 1, 0x0, 0x0#32, [⟨1, 0, .ro, []⟩, ⟨2, 2, .ro, []⟩, ⟨6, 4, .ro, []⟩, ⟨9, 8, .ro, []⟩, ⟨13, 12, .ro, []⟩]⟩,
  ⟨"CHK_RESULT", 0x118030, 16, 0x40, 1, 0x0, 0x0#32, [⟨31, 0, .ro, []⟩]⟩,
  ⟨"CHK_BYTES", 0x118034, 16, 0x40, 1, 0x0, 0x0#32, [⟨31, 0, .ro, []⟩]⟩,
  ⟨"CHK_CNT", 0x118038, 16, 0x40, 1, 0x0, 0x0#32, [⟨15, 0, .ro, []⟩, ⟨31, 16, .ro, []⟩]⟩,
  ⟨"CHK_COMMIT", 0x118400, 1, 0x0, 1, 0x0, 0x0#32, [⟨15, 0, .wo, []⟩]⟩,
  ⟨"CHK_COMMIT_STAT", 0x118404, 1, 0x0, 1, 0x0, 0x0#32, [⟨15, 0, .ro, []⟩]⟩,
  ⟨"CHK_JOB_UNITS", 0x118408, 1, 0x0, 1, 0x0, 0xC000#32, [⟨15, 1, .rw, []⟩]⟩,
  ⟨"CHK_PEND", 0x11840C, 1, 0x0, 1, 0x0, 0x0#32, [⟨15, 0, .w1c, []⟩]⟩,
  ⟨"CHK_EV_SRC", 0x118440, 4, 0x4, 1, 0x0, 0x0#32, [⟨3, 0, .ro, []⟩]⟩]

def brdRows : List RegRow := [
  ⟨"BRD_CTRL", 0x120000, 1, 0x0, 1, 0x0, 0xC#32, [⟨0, 0, .rw, []⟩, ⟨1, 1, .rw, []⟩, ⟨2, 2, .rw, []⟩, ⟨3, 3, .rw, []⟩]⟩,
  ⟨"BRD_CFG", 0x120004, 1, 0x0, 1, 0x0, 0x8#32, [⟨1, 0, .rws, [(0, 2)]⟩, ⟨3, 2, .rws, [(0, 2)]⟩, ⟨13, 8, .rws, []⟩, ⟨14, 14, .rws, []⟩]⟩,
  ⟨"BRD_HO_CFG", 0x120008, 1, 0x0, 1, 0x0, 0x3040C#32, [⟨5, 0, .rw, []⟩, ⟨11, 8, .rw, [(1, 15)]⟩, ⟨23, 16, .rw, []⟩]⟩,
  ⟨"BRD_TIME_CFG", 0x12000C, 1, 0x0, 1, 0x0, 0x17D#32, [⟨7, 0, .rw, [(10, 255)]⟩, ⟨8, 8, .rw, []⟩]⟩,
  ⟨"BRD_STATUS", 0x120010, 1, 0x0, 1, 0x0, 0x0#32, [⟨5, 0, .ro, []⟩, ⟨6, 6, .ro, []⟩, ⟨13, 8, .ro, []⟩, ⟨14, 14, .ro, []⟩, ⟨17, 16, .ro, []⟩, ⟨30, 24, .ro, []⟩]⟩,
  ⟨"BRD_PORT_STAT", 0x120014, 2, 0x4, 1, 0x0, 0x0#32, [⟨1, 0, .ro, []⟩, ⟨3, 2, .ro, []⟩, ⟨5, 4, .ro, []⟩, ⟨7, 7, .ro, []⟩, ⟨13, 8, .ro, []⟩, ⟨15, 14, .ro, []⟩, ⟨31, 16, .ro, []⟩]⟩,
  ⟨"BRD_BIGHT_STAT", 0x12001C, 1, 0x0, 1, 0x0, 0x0#32, [⟨1, 0, .ro, []⟩, ⟨2, 2, .ro, []⟩, ⟨25, 16, .ro, []⟩]⟩,
  ⟨"BRD_BIGHT_OPS_LO", 0x120020, 1, 0x0, 1, 0x0, 0x0#32, [⟨31, 0, .ro, []⟩]⟩,
  ⟨"BRD_BIGHT_OPS_HI", 0x120024, 1, 0x0, 1, 0x0, 0x0#32, [⟨31, 0, .ro, []⟩]⟩,
  ⟨"BRD_TIME_OFS", 0x120028, 1, 0x0, 1, 0x0, 0x0#32, [⟨31, 0, .ro, []⟩]⟩,
  ⟨"BRD_TIME_STAT", 0x12002C, 1, 0x0, 1, 0x0, 0x0#32, [⟨5, 0, .ro, []⟩, ⟨6, 6, .ro, []⟩, ⟨13, 8, .ro, []⟩, ⟨16, 16, .ro, []⟩, ⟨17, 17, .ro, []⟩]⟩,
  ⟨"BRD_HO_CMD", 0x120030, 1, 0x0, 1, 0x0, 0x0#32, [⟨15, 0, .wo, []⟩, ⟨21, 16, .wo, []⟩, ⟨24, 24, .wo, []⟩]⟩,
  ⟨"BRD_HO_STAT", 0x120034, 1, 0x0, 1, 0x0, 0x0#32, [⟨15, 0, .ro, []⟩, ⟨21, 16, .ro, []⟩, ⟨26, 24, .ro, []⟩, ⟨29, 28, .ro, []⟩]⟩,
  ⟨"BRD_CNT_A", 0x120038, 1, 0x0, 1, 0x0, 0x0#32, [⟨15, 0, .ro, []⟩, ⟨31, 16, .ro, []⟩]⟩,
  ⟨"BRD_CNT_B", 0x12003C, 1, 0x0, 1, 0x0, 0x0#32, [⟨7, 0, .ro, []⟩, ⟨15, 8, .ro, []⟩, ⟨31, 16, .ro, []⟩]⟩,
  ⟨"BRD_COMMIT", 0x120040, 1, 0x0, 1, 0x0, 0x0#32, [⟨0, 0, .wo, []⟩]⟩,
  ⟨"BRD_COMMIT_STAT", 0x120044, 1, 0x0, 1, 0x0, 0x0#32, [⟨0, 0, .ro, []⟩]⟩,
  ⟨"BRD_BCAST_CMD", 0x120048, 1, 0x0, 1, 0x0, 0x0#32, [⟨13, 0, .wo, []⟩, ⟨16, 16, .wo, []⟩]⟩,
  ⟨"BRD_EV_SRC", 0x120080, 8, 0x4, 1, 0x0, 0x0#32, [⟨15, 0, .ro, []⟩]⟩,
  ⟨"BRD_NODE_TBL_LO", 0x120100, 64, 0x8, 1, 0x0, 0x0#32, [⟨7, 0, .ro, []⟩, ⟨13, 8, .ro, []⟩, ⟨21, 16, .ro, []⟩, ⟨31, 31, .ro, []⟩]⟩,
  ⟨"BRD_NODE_TBL_HI", 0x120104, 64, 0x8, 1, 0x0, 0x0#32, [⟨31, 0, .ro, []⟩]⟩]

def splRows : List RegRow := [
  ⟨"SPL_CTRL", 0x128000, 1, 0x0, 1, 0x0, 0x2#32, [⟨0, 0, .rw, []⟩, ⟨1, 1, .rw, []⟩]⟩,
  ⟨"SPL_CFG", 0x128004, 1, 0x0, 1, 0x0, 0x320A04#32, [⟨1, 0, .rws, [(0, 1)]⟩, ⟨3, 2, .rws, [(0, 1)]⟩, ⟨15, 8, .rws, []⟩, ⟨23, 16, .rws, [(10, 255)]⟩]⟩,
  ⟨"SPL_CMD", 0x128008, 1, 0x0, 1, 0x0, 0x0#32, [⟨0, 0, .wo, []⟩, ⟨1, 1, .wo, []⟩, ⟨2, 2, .wo, []⟩]⟩,
  ⟨"SPL_STATUS", 0x12800C, 1, 0x0, 1, 0x0, 0x0#32, [⟨2, 0, .ro, []⟩, ⟨5, 4, .ro, []⟩, ⟨7, 6, .ro, []⟩, ⟨8, 8, .ro, []⟩, ⟨9, 9, .ro, []⟩, ⟨10, 10, .ro, []⟩, ⟨11, 11, .ro, []⟩, ⟨12, 12, .ro, []⟩, ⟨15, 13, .ro, []⟩]⟩,
  ⟨"SPL_PARTNER_LO", 0x128010, 1, 0x0, 1, 0x0, 0x0#32, [⟨31, 0, .ro, []⟩]⟩,
  ⟨"SPL_PARTNER_HI", 0x128014, 1, 0x0, 1, 0x0, 0x0#32, [⟨31, 0, .ro, []⟩]⟩,
  ⟨"SPL_OWN_TERM", 0x128018, 1, 0x0, 1, 0x0, 0x0#32, [⟨31, 0, .ro, []⟩]⟩,
  ⟨"SPL_MIRROR_STAT", 0x12801C, 1, 0x0, 1, 0x0, 0x0#32, [⟨15, 0, .ro, []⟩, ⟨31, 16, .ro, []⟩]⟩,
  ⟨"SPL_SYNC_STAT", 0x128020, 1, 0x0, 1, 0x0, 0x0#32, [⟨16, 0, .ro, []⟩, ⟨17, 17, .ro, []⟩]⟩,
  ⟨"SPL_CNT_A", 0x128024, 1, 0x0, 1, 0x0, 0x0#32, [⟨7, 0, .ro, []⟩, ⟨15, 8, .ro, []⟩, ⟨31, 16, .ro, []⟩]⟩,
  ⟨"SPL_CNT_B", 0x128028, 1, 0x0, 1, 0x0, 0x0#32, [⟨15, 0, .ro, []⟩, ⟨31, 16, .ro, []⟩]⟩,
  ⟨"SPL_COMMIT", 0x12802C, 1, 0x0, 1, 0x0, 0x0#32, [⟨0, 0, .wo, []⟩]⟩,
  ⟨"SPL_COMMIT_STAT", 0x128030, 1, 0x0, 1, 0x0, 0x0#32, [⟨0, 0, .ro, []⟩]⟩,
  ⟨"SPL_EV_SRC", 0x128040, 8, 0x4, 1, 0x0, 0x0#32, [⟨15, 0, .ro, []⟩]⟩]

def halRows : List RegRow := [
  ⟨"HAL_CTRL", 0x130000, 1, 0x0, 1, 0x0, 0x0#32, [⟨0, 0, .rw, []⟩]⟩,
  ⟨"HAL_CFG", 0x130004, 1, 0x0, 1, 0x0, 0x4082#32, [⟨1, 0, .rws, [(0, 2)]⟩, ⟨2, 2, .rws, []⟩, ⟨3, 3, .rws, []⟩, ⟨5, 4, .rws, [(0, 2)]⟩, ⟨7, 6, .rws, [(0, 2)]⟩, ⟨15, 8, .rws, [(1, 255)]⟩]⟩,
  ⟨"HAL_MAC_LO", 0x130008, 1, 0x0, 1, 0x0, 0x0#32, [⟨31, 0, .rws, []⟩]⟩,
  ⟨"HAL_MAC_HI", 0x13000C, 1, 0x0, 1, 0x0, 0x0#32, [⟨15, 0, .rws, []⟩]⟩,
  ⟨"HAL_PEER_MAC_LO", 0x130010, 1, 0x0, 1, 0x0, 0x0#32, [⟨31, 0, .rws, []⟩]⟩,
  ⟨"HAL_PEER_MAC_HI", 0x130014, 1, 0x0, 1, 0x0, 0x0#32, [⟨15, 0, .rws, []⟩]⟩,
  ⟨"HAL_ETHERTYPE", 0x130018, 1, 0x0, 1, 0x0, 0x88B5#32, [⟨15, 0, .rws, []⟩]⟩,
  ⟨"HAL_UDP", 0x13001C, 1, 0x0, 1, 0x0, 0x0#32, [⟨15, 0, .rws, []⟩, ⟨31, 16, .rws, []⟩]⟩,
  ⟨"HAL_IP6_SRC", 0x130020, 4, 0x4, 1, 0x0, 0x0#32, [⟨31, 0, .rws, []⟩]⟩,
  ⟨"HAL_IP6_DST", 0x130030, 4, 0x4, 1, 0x0, 0x0#32, [⟨31, 0, .rws, []⟩]⟩,
  ⟨"HAL_COMMIT", 0x130040, 1, 0x0, 1, 0x0, 0x0#32, [⟨0, 0, .wo, []⟩]⟩,
  ⟨"HAL_COMMIT_STAT", 0x130044, 1, 0x0, 1, 0x0, 0x0#32, [⟨0, 0, .ro, []⟩]⟩,
  ⟨"HAL_STATUS", 0x130048, 1, 0x0, 1, 0x0, 0xC#32, [⟨1, 0, .ro, []⟩, ⟨3, 2, .ro, []⟩, ⟨5, 4, .ro, []⟩, ⟨6, 6, .ro, []⟩, ⟨14, 8, .ro, []⟩]⟩,
  ⟨"HAL_CNT_TX", 0x13004C, 1, 0x0, 1, 0x0, 0x0#32, [⟨31, 0, .ro, []⟩]⟩,
  ⟨"HAL_CNT_RX", 0x130050, 1, 0x0, 1, 0x0, 0x0#32, [⟨31, 0, .ro, []⟩]⟩,
  ⟨"HAL_CNT_DROP", 0x130054, 1, 0x0, 1, 0x0, 0x0#32, [⟨7, 0, .ro, []⟩, ⟨15, 8, .ro, []⟩, ⟨23, 16, .ro, []⟩, ⟨31, 24, .ro, []⟩]⟩,
  ⟨"HAL_EV_SRC", 0x130060, 4, 0x4, 1, 0x0, 0x0#32, [⟨15, 0, .ro, []⟩]⟩,
  ⟨"HAL_EV_SRC251", 0x130070, 1, 0x0, 1, 0x0, 0x0#32, [⟨15, 0, .ro, []⟩]⟩,
  ⟨"HAL_MSEC_CFG", 0x130100, 2, 0x80, 1, 0x0, 0x0#32, [⟨0, 0, .rws, []⟩, ⟨1, 1, .rws, []⟩, ⟨2, 2, .rws, []⟩]⟩,
  ⟨"HAL_MSEC_WINDOW", 0x130104, 2, 0x80, 1, 0x0, 0x0#32, [⟨31, 0, .rws, []⟩]⟩,
  ⟨"HAL_MSEC_RX_SCI_LO", 0x130108, 2, 0x80, 1, 0x0, 0x0#32, [⟨31, 0, .rws, []⟩]⟩,
  ⟨"HAL_MSEC_RX_SCI_HI", 0x13010C, 2, 0x80, 1, 0x0, 0x0#32, [⟨31, 0, .rws, []⟩]⟩,
  ⟨"HAL_MSEC_SA_SEL", 0x130110, 2, 0x80, 1, 0x0, 0x0#32, [⟨1, 0, .rw, []⟩, ⟨4, 4, .rw, []⟩]⟩,
  ⟨"HAL_MSEC_SSCI", 0x130114, 2, 0x80, 1, 0x0, 0x0#32, [⟨31, 0, .rw, []⟩]⟩,
  ⟨"HAL_MSEC_PN_LO", 0x130118, 2, 0x80, 1, 0x0, 0x0#32, [⟨31, 0, .rw, []⟩]⟩,
  ⟨"HAL_MSEC_PN_HI", 0x13011C, 2, 0x80, 1, 0x0, 0x0#32, [⟨31, 0, .rw, []⟩]⟩,
  ⟨"HAL_MSEC_KEY", 0x130120, 2, 0x80, 8, 0x4, 0x0#32, [⟨31, 0, .wo, []⟩]⟩,
  ⟨"HAL_MSEC_SALT", 0x130140, 2, 0x80, 3, 0x4, 0x0#32, [⟨31, 0, .wo, []⟩]⟩,
  ⟨"HAL_MSEC_SA_CMD", 0x13014C, 2, 0x80, 1, 0x0, 0x0#32, [⟨0, 0, .wo, []⟩, ⟨1, 1, .wo, []⟩, ⟨2, 2, .wo, []⟩]⟩,
  ⟨"HAL_MSEC_STAT", 0x130150, 2, 0x80, 1, 0x0, 0x0#32, [⟨1, 0, .ro, []⟩, ⟨2, 2, .ro, []⟩, ⟨7, 4, .ro, []⟩, ⟨8, 8, .ro, []⟩, ⟨9, 9, .ro, []⟩]⟩,
  ⟨"HAL_MSEC_CNT", 0x130154, 2, 0x80, 1, 0x0, 0x0#32, [⟨15, 0, .ro, []⟩, ⟨31, 16, .ro, []⟩]⟩,
  ⟨"MGT_CFG", 0x134000, 1, 0x0, 1, 0x0, 0x4#32, [⟨3, 0, .rw, [(1, 15)]⟩]⟩,
  ⟨"MGT_STATUS", 0x134004, 1, 0x0, 1, 0x0, 0x0#32, [⟨0, 0, .ro, []⟩, ⟨1, 1, .w1c, []⟩, ⟨4, 2, .ro, []⟩]⟩,
  ⟨"MGT_CNT", 0x134008, 1, 0x0, 1, 0x0, 0x0#32, [⟨15, 0, .ro, []⟩, ⟨31, 16, .ro, []⟩]⟩,
  ⟨"MGT_WLOG_STAT", 0x13400C, 1, 0x0, 1, 0x0, 0x0#32, [⟨4, 0, .ro, []⟩, ⟨31, 16, .ro, []⟩]⟩,
  ⟨"MGT_EV_SRC254", 0x134010, 1, 0x0, 1, 0x0, 0x0#32, [⟨2, 0, .ro, []⟩]⟩]

def blyRows : List RegRow := [
  ⟨"BLY_CTRL", 0x138000, 1, 0x0, 1, 0x0, 0x0#32, [⟨0, 0, .rw, []⟩]⟩,
  ⟨"BLY_CFG", 0x138004, 1, 0x0, 1, 0x0, 0xA32#32, [⟨6, 0, .rw, [(5, 90)]⟩, ⟨15, 8, .rw, [(1, 255)]⟩]⟩,
  ⟨"BLY_PARAM", 0x138008, 4, 0x4, 1, 0x0, 0x0#32, [⟨31, 0, .rw, []⟩]⟩,
  ⟨"BLY_START", 0x138018, 1, 0x0, 1, 0x0, 0x0#32, [⟨3, 0, .wo, []⟩, ⟨5, 4, .wo, []⟩, ⟨8, 8, .wo, []⟩]⟩,
  ⟨"BLY_START_STAT", 0x13801C, 1, 0x0, 1, 0x0, 0x0#32, [⟨3, 0, .ro, []⟩, ⟨4, 4, .ro, []⟩, ⟨11, 8, .ro, []⟩]⟩,
  ⟨"BLY_CANCEL", 0x138020, 1, 0x0, 1, 0x0, 0x0#32, [⟨3, 0, .wo, []⟩, ⟨8, 8, .wo, []⟩]⟩,
  ⟨"BLY_STAT", 0x138024, 1, 0x0, 1, 0x0, 0x0#32, [⟨15, 0, .ro, []⟩]⟩,
  ⟨"BLY_CNT", 0x138028, 1, 0x0, 1, 0x0, 0x0#32, [⟨15, 0, .ro, []⟩, ⟨31, 16, .ro, []⟩]⟩,
  ⟨"BLY_EV_SRC", 0x138040, 3, 0x4, 1, 0x0, 0x0#32, [⟨3, 0, .ro, []⟩]⟩,
  ⟨"BLY_SLOT_STAT", 0x138100, 16, 0x20, 1, 0x0, 0x0#32, [⟨3, 0, .ro, []⟩, ⟨11, 8, .ro, []⟩, ⟨15, 12, .ro, []⟩, ⟨17, 16, .ro, []⟩, ⟨31, 24, .ro, []⟩]⟩,
  ⟨"BLY_SLOT_DONE", 0x138104, 16, 0x20, 1, 0x0, 0x0#32, [⟨31, 0, .ro, []⟩]⟩,
  ⟨"BLY_SLOT_TOTAL", 0x138108, 16, 0x20, 1, 0x0, 0x0#32, [⟨31, 0, .ro, []⟩]⟩,
  ⟨"BLY_SLOT_ID", 0x13810C, 16, 0x20, 1, 0x0, 0x0#32, [⟨31, 0, .ro, []⟩]⟩,
  ⟨"BLY_SLOT_DATA", 0x138110, 16, 0x20, 4, 0x4, 0x0#32, [⟨31, 0, .ro, []⟩]⟩,
  ⟨"BLY_NVM_BUF", 0x139000, 1024, 0x4, 1, 0x0, 0x0#32, [⟨31, 0, .rw, []⟩]⟩]

/-- The rows of the region of R509 that address `a` lies in. -/
def regionRows (a : Nat) : List RegRow :=
  if a < 0x010000 then glbRows
  else if a < 0x018000 then evcRows
  else if a < 0x020000 then logRows
  else if a < 0x030000 then pwrRows
  else if a < 0x040000 then bstRows
  else if a < 0x060000 then lpRows
  else if a < 0x080000 then fcRows
  else if a < 0x0C0000 then strRows
  else if a < 0x0D0000 then mnsRows
  else if a < 0x0E0000 then plnRows
  else if a < 0x0F0000 then macRows
  else if a < 0x100000 then mshRows
  else if a < 0x110000 then sesRows
  else if a < 0x118000 then cipRows
  else if a < 0x120000 then chkRows
  else if a < 0x128000 then brdRows
  else if a < 0x130000 then splRows
  else if a < 0x138000 then halRows
  else if a < 0x140000 then blyRows
  else []

/-! ### Event numbers (the index of R429) -/

def Ev.START_DONE : Nat := 0
def Ev.IMAGE_FAIL : Nat := 1
def Ev.PROFILE_SWITCHED : Nat := 2
def Ev.COMMIT_REJECT : Nat := 3
def Ev.PROFILE_REFUSED : Nat := 4
def Ev.PLL_UNLOCK : Nat := 5
def Ev.REFCLK_LOST : Nat := 6
def Ev.XT32_FAIL : Nat := 7
def Ev.PPS_LOCKED : Nat := 8
def Ev.PPS_LOST : Nat := 9
def Ev.TIME_STEP : Nat := 10
def Ev.VIN_LOW : Nat := 11
def Ev.TEMP_HIGH : Nat := 12
def Ev.TEMP_CRITICAL : Nat := 13
def Ev.CORE_LOST : Nat := 14
def Ev.SPARE_ENGINE_IN_USE : Nat := 15
def Ev.LP_OVERRANGE : Nat := 32
def Ev.LP_WAKE : Nat := 33
def Ev.LP_DRIVE_FAULT : Nat := 34
def Ev.AEN_LATE : Nat := 35
def Ev.LP_MONITOR_LOW : Nat := 36
def Ev.LREF_FAULT : Nat := 37
def Ev.FC_SATURATE : Nat := 40
def Ev.FC_SWAP_DEFERRED : Nat := 41
def Ev.FC_SYNC_RESTART : Nat := 42
def Ev.FC_COEF_BUSY : Nat := 43
def Ev.FC_THRESHOLD : Nat := 44
def Ev.FC_SWAP_REFUSED : Nat := 45
def Ev.MNS_LOCKED : Nat := 48
def Ev.MNS_COASTING : Nat := 49
def Ev.MNS_ROTATION : Nat := 50
def Ev.METER_PHASE_CHANGE : Nat := 51
def Ev.COMB_MEMBER_DROP : Nat := 52
def Ev.STR_HEADER_FAIL : Nat := 64
def Ev.STR_SYNC_TIMEOUT : Nat := 65
def Ev.STR_RELOCK : Nat := 66
def Ev.AFC_LIMIT : Nat := 67
def Ev.STEP_TRACK : Nat := 68
def Ev.LEVEL_LOST : Nat := 69
def Ev.FALSE_SYNC_REPLAY : Nat := 70
def Ev.STR_PREEMPTED : Nat := 71
def Ev.CAPTURE_ABORT : Nat := 72
def Ev.PGA_STEP_WAIT : Nat := 73
def Ev.IMPEDANCE_STEP : Nat := 74
def Ev.TYPE_REJECT : Nat := 96
def Ev.FCS_REJECT : Nat := 97
def Ev.LENGTH_REJECT : Nat := 98
def Ev.ADDRESS_REJECT : Nat := 99
def Ev.FCS_ONLY_ERROR : Nat := 100
def Ev.BLOCK_INCOMPLETE : Nat := 101
def Ev.CREST_LIMIT : Nat := 102
def Ev.VERSION_REJECT : Nat := 103
def Ev.TX_MASK_VIOLATION : Nat := 104
def Ev.ERASED_REJECT : Nat := 105
def Ev.UNSEC_REJECT : Nat := 106
def Ev.POLL_RETRY_EXHAUSTED : Nat := 107
def Ev.READ_OVERDUE : Nat := 108
def Ev.PLAN_OVERLOAD : Nat := 109
def Ev.SESSION_UNREACHABLE : Nat := 110
def Ev.ASSOC_DONE : Nat := 111
def Ev.ASSOC_REFUSED : Nat := 112
def Ev.ASSOC_FULL : Nat := 113
def Ev.DISC_SLOTS_MAX : Nat := 114
def Ev.ROUND_DELAYED : Nat := 115
def Ev.WINDOW_WAIVED : Nat := 116
def Ev.PIN_CONFLICT : Nat := 117
def Ev.CXL_LINK_UP : Nat := 128
def Ev.CXL_LINK_DEGRADED : Nat := 129
def Ev.CXL_LINK_DOWN : Nat := 130
def Ev.CXL_CE_RATE : Nat := 131
def Ev.LEASE_REVOKED : Nat := 132
def Ev.CXL_POISON : Nat := 133
def Ev.JOURNAL_HIGH : Nat := 134
def Ev.CTX_REBUILT : Nat := 135
def Ev.CXL_CACHE_ONLY : Nat := 136
def Ev.CXL_RETURNED : Nat := 137
def Ev.RESTORE_DONE : Nat := 138
def Ev.CTX_LOST : Nat := 139
def Ev.SPOOL_HIGH : Nat := 140
def Ev.SPOOL_FULL : Nat := 141
def Ev.SPOOL_DROP : Nat := 142
def Ev.DRAIN_REWIND : Nat := 143
def Ev.CREDIT_STALL : Nat := 144
def Ev.LEASE_REFUSED : Nat := 145
def Ev.PRIO_LIMIT : Nat := 146
def Ev.RESTORE_NEEDED : Nat := 147
def Ev.RH_LINK_DOWN : Nat := 160
def Ev.RH_LINK_UP : Nat := 161
def Ev.RH_SCRIPT_LATE : Nat := 162
def Ev.RADIO_ASSOC_DONE : Nat := 163
def Ev.DRIFT_LOST : Nat := 164
def Ev.COORD_INDEPENDENT : Nat := 165
def Ev.PARENT_LOST : Nat := 166
def Ev.PARENT_FOUND : Nat := 167
def Ev.DWELL_BLOCK : Nat := 168
def Ev.DUTY_HIGH : Nat := 169
def Ev.PAIR_RELEASED : Nat := 170
def Ev.RADIO_ASSOC_REFUSED : Nat := 171
def Ev.RADIO_ASSOC_FULL : Nat := 172
def Ev.SLOT_OVERRUN : Nat := 173
def Ev.RADIO_CMD_FAILED : Nat := 174
def Ev.ROUTE_MISS : Nat := 175
def Ev.ROUTE_REPAIRED : Nat := 176
def Ev.ROUTE_TABLE_FULL : Nat := 177
def Ev.HANDOFF_DROP : Nat := 178
def Ev.SEEN_EVICT : Nat := 179
def Ev.ANCHOR_PROGRAMMED : Nat := 192
def Ev.ANCHOR_REFUSED : Nat := 193
def Ev.REKEY_DUE : Nat := 194
def Ev.REKEY_DONE : Nat := 195
def Ev.AUTH_FAIL : Nat := 196
def Ev.COUNTER_REPLAY : Nat := 197
def Ev.NONCE_EXHAUSTED : Nat := 198
def Ev.REPROVISION_NEEDED : Nat := 199
def Ev.CIPHER_FAULT : Nat := 200
def Ev.CIPHER_FENCED : Nat := 201
def Ev.CIPHER_RESTORED : Nat := 202
def Ev.ENTROPY_FAIL : Nat := 203
def Ev.VAULT_FAULT : Nat := 204
def Ev.VAULT_WEAR : Nat := 205
def Ev.RAW_DONE : Nat := 206
def Ev.CHK_DONE : Nat := 207
def Ev.CHECK_MISMATCH : Nat := 208
def Ev.CHK_OVERRUN : Nat := 209
def Ev.CHK_ABORT : Nat := 210
def Ev.SPL_LINK_UP : Nat := 224
def Ev.SPL_LINK_DOWN : Nat := 225
def Ev.SPL_ISOLATED : Nat := 226
def Ev.SPL_SYNCED : Nat := 227
def Ev.MIRROR_RESYNC : Nat := 228
def Ev.SPLIT_CLAIM : Nat := 229
def Ev.SPLICE_TAKEOVER : Nat := 230
def Ev.LINK_TAG_FAIL : Nat := 231
def Ev.BRD_LINK_UP : Nat := 232
def Ev.BRD_LINK_DOWN : Nat := 233
def Ev.BRD_TOPOLOGY : Nat := 234
def Ev.BRD_ID_CONFLICT : Nat := 235
def Ev.BRAID_WRAP : Nat := 236
def Ev.BIGHT_INSERT_FAIL : Nat := 237
def Ev.TIME_MASTER_CHANGE : Nat := 238
def Ev.HANDOVER_END : Nat := 239
def Ev.HAL_LINK_UP : Nat := 240
def Ev.HAL_LINK_DOWN : Nat := 241
def Ev.HAL_VERSION : Nat := 242
def Ev.MACSEC_ALERT : Nat := 243
def Ev.BST_INCOMPLETE : Nat := 244
def Ev.BST_PASS : Nat := 245
def Ev.BST_FAIL : Nat := 246
def Ev.BLY_JOB_END : Nat := 247
def Ev.BLY_OVERRUN : Nat := 248
def Ev.BLY_SLOTS_FULL : Nat := 249
def Ev.SERVICE_REQUEST : Nat := 250
def Ev.CMD_REJECT : Nat := 251
def Ev.LOG_NEAR_FULL : Nat := 252
def Ev.LOG_PROTECTED_FULL : Nat := 253
def Ev.MGT_ERROR : Nat := 254
def Ev.REPLACE_ACKED : Nat := 255

/-- Where the source register of event `e` lies, for the events that have one: (first event, last event, address of
the first event's register), from the tables that name an `_EV_SRC` register. -/
def evSrcRanges : List (Nat × Nat × Nat) :=
  [(0, 2, 0x020040), (3, 3, 0x00010C), (4, 13, 0x020050), (14, 14, 0x0300C0), (15, 15, 0x0300C4), (48, 52, 0x0C0040), (64, 74, 0x0B0040), (96, 106, 0x0B0140), (107, 117, 0x0D0300), (128, 147, 0x1000C0), (160, 174, 0x0E4400), (175, 179, 0x0F0100), (192, 206, 0x1100C0), (207, 210, 0x118440), (224, 231, 0x128040), (232, 239, 0x120080), (240, 243, 0x130060), (244, 246, 0x0300C8), (247, 249, 0x138040), (250, 250, 0x0300D4), (251, 251, 0x130070), (252, 252, 0x018040), (253, 253, 0x018044), (254, 254, 0x134010), (255, 255, 0x0300D8)]

end Sys2Proof.Machine
end

