-- ==== Sys2Proof/Machine/State.lean ====
section
/-! DEFINITION. The state of the block: the registers (live values and shadows), and everything else the chapters give the
module, as plain data.  A per-instance structure is held in a sparse table: an instance that is not listed is as it is
after reset. -/
namespace Sys2Proof.Machine
open Sys2Proof

/-- Why the block stops.  No command of the table stops it: no meaning raises this fault, and it is safe. -/
inductive Fault where
  | unreachable
  deriving DecidableEq, Repr

/-- Why a command has no meaning.  `notModelled` is raised only by an arm of the dispatch that has no meaning yet; it is
safe, because nothing follows from a refusal. -/
inductive Refusal where
  | notModelled (mnemonic : String)
  deriving DecidableEq, Repr

/-! ### Commits, events, the trouble log and the write log -/

/-- A commit accepted and not yet applied everywhere (R503): its block code, the instances of its scope that have still
to apply it, the captured shadow words, and whether a `GLB_COMMIT` (R505) made it. -/
structure Commit where
  block : Nat
  insts : List Nat
  cells : List (Nat × Word)
  byGlb : Bool
  deriving DecidableEq, Repr

/-- The delivery limit of one event source (R427, R428): the tick of its last record or entry, the raisings counted
since, and the ticks of the first and last of them. -/
structure EvRate where
  last : Option Nat
  counted : Nat
  firstTick : Nat
  lastTick : Nat
  deriving DecidableEq, Repr

/-- An entry of the trouble log (R490); `exported` says that a LOG_EXPORT record carried it (R493). -/
structure LogEntry where
  time : Nat
  phase : Nat
  source : Nat
  code : Nat
  severity : Nat
  iface : Nat
  data : List Byte
  exported : Bool
  deriving DecidableEq, Repr

/-- An open entry of the CSR write log (R423). -/
structure WriteLog where
  iface : Nat
  addr : Nat
  first : Word
  lastVal : Word
  count : Nat
  tick : Nat
  deriving DecidableEq, Repr

/-- A record bound for the head-end: its spool class, its `RTYPE` (R408), its session, the tick of its commit and its
body (R411).  `seq` and `page` are set when the spool writer stores it (R241); `flags`
are bits 0 to 2 of the record's FLAGS (R407). -/
structure Rec where
  cls : Nat
  rtype : Nat
  session : Nat
  time : Nat
  body : List Byte
  logIdx : List Nat
  seq : Nat
  page : Nat
  flags : Nat := 0
  deriving DecidableEq, Repr

/-! ### Line ports (R29 to R52) -/

/-- A frame on a strand synthesiser (R116 to R119): the strand (a line strand's slot, a radio strand's channel), the tick at
which its ramp-up starts, its symbol period in ticks, its symbols' levels, the tone group's centre and spacing in 25 Hz, the codes of
`BT` and `LEVEL`, the tick at which a mask cut began its ramp-down (R124), and whether the frame is sent whole. -/
structure Burst where
  strand : Nat
  start : Nat
  per : Nat
  levels : List Int
  centre : Int
  spacing : Nat
  bt : Nat
  level : Nat
  cut : Option Nat
  whole : Bool
  deriving DecidableEq, Repr

/-- What a port holds beside its registers. -/
structure PortS where
  refCode : Nat              -- reference code (R96)
  codes : List (Nat × Nat × Nat) -- past PGA and reference codes, newest first, each with the tick at which it gave way (R33, R176)
  target : Option Nat        -- code at the end of the move in progress (R34)
  step : Option (Bool × Nat) -- a granted step: upwards?, and the tick at which it takes effect (R33)
  held : Option Bool         -- a held request, and whether it is for an up step (R97)
  heldAuto : Bool            -- the request in progress came from the level controller
  monitor : Bool             -- the PGA stands in the monitor setting, −6 dB (R31, R35)
  lastOver : Nat             -- tick of the last counted overrange window
  lastDown : Nat             -- tick of the last down-step, up-step request, or start of the level controller's windows
  driveRun : Nat             -- consecutive transmissions with the drive limit (R49)
  driveInh : Bool            -- TX_INHIBIT from drive faults
  monN : Nat                 -- monitor blocks of this transmission
  monSum : Int               -- sum of the first four ratios
  monRef : Option Int        -- reference ratio, 0.025 dB units
  monPrev : Option Int       -- a previous block beyond STEP_DB of the reference
  watchRun : Nat             -- consecutive windows at or above THRESH
  watchZ : List Rat          -- state of the watch band-pass (R46)
  mapZ : List Rat            -- state of the noise map's band-pass (R158)
  watchBuf : List (BitVec 14 × Nat) -- the last 512 ADC samples while in WATCH, oldest first, with their stamps (R47)
  enabledAt : Option Nat     -- tick of the latch that set the port's enable bit
  clearedAt : Option Nat     -- tick of the latch that cleared it while in TX
  planned : Option Nat       -- planned first sample of the next transmission
  tx : List Burst            -- the frames its synthesisers send (R116)
  txStart : Nat              -- tick of the first transmitted sample
  txLeft : Nat               -- tick at which the port last left TX
  thawed : Nat               -- tick at which a strand of it last left a frozen state
  tailDue : Option Nat       -- when TAIL runs out (R44)
  maskN : Nat                -- mask blocks analysed in this transmission (R123)
  maskRun : Nat              -- consecutive violating mask blocks
  maskSeen : Bool            -- a violation was reported in this transmission
  settleEnd : Nat            -- samples before this tick carry the settling mark (R35)
  deriving DecidableEq, Repr

/-- A port after reset. -/
def PortS.init : PortS where
  refCode := 0
  codes := []
  target := none
  step := none
  held := none
  heldAuto := false
  monitor := false
  lastOver := 0
  lastDown := 0
  driveRun := 0
  driveInh := false
  monN := 0
  monSum := 0
  monRef := none
  monPrev := none
  watchRun := 0
  watchZ := []
  mapZ := []
  watchBuf := []
  enabledAt := none
  clearedAt := none
  planned := none
  tx := []
  txStart := 0
  txLeft := 0
  thawed := 0
  tailDue := none
  maskN := 0
  maskRun := 0
  maskSeen := false
  settleEnd := 0

/-- The amplifier enable chain (R41 to R45): the bits requested, the word being shifted and the start of the shift, the
last latched word, the end of the last shift, and whether the all-zero word of R45 is still owed. -/
structure AenS where
  want : BitVec 144
  shifting : Option (BitVec 144 × Nat)
  latched : BitVec 144
  lastEnd : Nat
  zeroOwed : Bool
  waiting : Bool
  deriving DecidableEq, Repr

/-! ### Filter chains (R53 to R79) -/

/-- A swap request: the captured set, the mode (true: cross-fade) and the length (R63). -/
structure SwapReq where
  set : Nat
  fade : Bool
  len : Nat
  deriving DecidableEq, Repr

/-- What a chain holds beside its registers: its waiting input, the datapath of R54 to R56, the fade and the swap requests of
R61 to R64, the threshold runs of R66 and the output last delivered. -/
structure ChainS where
  inq : List ChainIn         -- input samples not yet taken, oldest first
  held : Bool                -- held in restart, because its input is unsettled or a loader writes (R69, R72)
  idx : Nat                  -- input samples since the restart (R55)
  outs : Nat                 -- outputs since the restart
  settleN : Nat              -- the count D of the last restart (R68)
  firIns : Nat               -- FIR input samples since the restart
  phase : BitVec 32          -- mixer phase
  cicInt : List (BitVec 64)  -- integrators, I then Q
  cicComb : List (BitVec 64) -- comb delays, I then Q
  hist : List (Int × Int)    -- FIR history, newest first
  fadeOld : Nat
  fadeN : Nat
  fadeI : Nat
  swapReq : Option SwapReq   -- a request not yet judged at an output boundary (R64)
  swapFade : Bool            -- mode of the pending swap
  swapLen : Nat
  hiRun : Nat
  loRun : Nat
  blankN : Nat               -- blanked input samples of the output in progress (R165)
  out : Int × Int
  outSettled : Bool
  outTick : Nat
  deriving DecidableEq, Repr

/-- A chain after reset. -/
def ChainS.init : ChainS where
  inq := []
  held := true
  idx := 0
  outs := 0
  settleN := 0
  firIns := 0
  phase := 0
  cicInt := List.replicate 8 0
  cicComb := List.replicate 8 0
  hist := []
  fadeOld := 0
  fadeN := 0
  fadeI := 0
  swapReq := none
  swapFade := false
  swapLen := 0
  hiRun := 0
  loRun := 0
  blankN := 0
  out := (0, 0)
  outSettled := false
  outTick := 0

/-- A sync group's restart (R74): the instant from which each chain of the group restarts at its first sample, whether it came
late, whether the registers show it, and the chains that have restarted. -/
structure SyncDue where
  group : Nat
  due : Nat                  -- the instant, or the tick at which a late trigger came
  late : Bool
  done : Bool                -- the group's registers show it
  gone : List Nat            -- chains that have restarted
  deriving DecidableEq, Repr

/-! ### Strand reception and frames (R80 to R150) -/

/-- A sample in a receiver's look-back buffer (R99): a chain output, its settled bit and stamp, and the fraction of its inputs
that were blanked (R165). -/
structure RxSample where
  re : Int
  im : Int
  settled : Bool
  stamp : Nat
  blank : Rat
  deriving DecidableEq, Repr

/-- A preamble correlator of the second detector at one symbol timing (R102): which of the last symbols correlated, newest
first, each with the stamp of its first sample, and the pattern's phase. -/
structure DetS where
  hits : List (Bool × Nat)
  phase : Option Bool
  deriving DecidableEq, Repr

/-- What a receiver holds beside its registers. -/
structure RxS where
  listen : Bool              -- listen window open (R82)
  shutAt : Option Nat        -- stamp at which the open window is due to close
  windowShut : Nat           -- stamp at which the window closed
  stopped : Bool             -- its cord engine or head is stopped
  buf : List RxSample        -- the last chain outputs, newest first (R99)
  pos : Nat                  -- stamp of the last sample examined
  symEnd : Option Nat        -- stamp of the last symbol boundary of the locked timing
  lockAt : Nat               -- stamp of the boundary at which the timing loop locked
  lockN : Nat                -- symbols since then
  power : Rat                -- power of the last evaluation window, linear, full scale 1
  detPower : Rat             -- level of the attempt
  halfSyms : Nat             -- half symbols since the detection instant
  symbols : Nat              -- symbols since entry to QUALIFY, or since the qualifier pass
  hits : List Bool           -- correlation of the last symbols, newest first
  phaseBit : Option Bool     -- pattern phase of the preamble correlator
  det : List DetS            -- the second detector, by samples before the locked timing, from 1 (R102, R103)
  corr : List (Int × Int)    -- samples of the correlated symbols, newest symbol first (R90)
  lowRun : Nat               -- consecutive low symbols (R85, R107)
  syncBits : List Bool       -- last bits, newest first
  syncPow : List (Rat × Rat) -- powers and error powers of the symbols behind them
  frozenPow : Rat            -- level at which the AGC froze
  capRef : Rat               -- reference of the capture detector (R103)
  centre : Int               -- centre of the step tracker's window, 1/16 dB against the frozen level
  outRun : List Int          -- levels of consecutive measured symbols outside the window
  corrected : Bool
  clamped : Bool             -- the AFC limit was met in this attempt (R90)
  collided : Bool            -- collision mark (R105)
  failed : Nat               -- the outcome of a frame that failed since the window opened, 0 if none (R186)
  symPow : Rat               -- sum of the frame's symbol powers, erasures left out (R94)
  errPow : Rat               -- sum of their decision-error powers
  blankSum : Rat             -- blanked fractions of the frame's symbols (R165), and their number
  blankN : Nat
  mark : Nat                 -- tick of the last symbol of the sync word or of the qualifier pass
  preStart : Nat             -- tick of the first correlated symbol of a capturing preamble
  replayWait : Option Bool   -- a replay waits to start; true for a capture restart
  replayCap : Bool           -- the replay in progress is a capture restart
  replayAt : Nat             -- tick at which the replay in progress began (R101)
  readFrom : Nat             -- stamp of the first output the receiver may examine (R82, R100)
  halfAt : Nat               -- stamp of the last half-symbol evaluation (R84)
  ctrl : Nat                 -- STR_CTRL as read at entry to QUALIFY
  syncTick : Nat
  syncSnr : Rat              -- linear SNR over the sync word
  snapshot : List Int        -- map term of each bin at the sync instant (R166)
  soft : List (Int × Nat)    -- soft values and weights, oldest first
  member : Bool              -- joined a combining group
  txOn : Bool                -- its synthesiser transmits
  asked : Bool               -- the window that opened last is that of re-sent blocks (R144)
  deriving DecidableEq, Repr

/-- A receiver after reset. -/
def RxS.init : RxS where
  listen := false
  shutAt := none
  windowShut := 0
  stopped := false
  buf := []
  pos := 0
  symEnd := none
  lockAt := 0
  lockN := 0
  power := 0
  detPower := 0
  halfSyms := 0
  symbols := 0
  hits := []
  phaseBit := none
  det := []
  corr := []
  lowRun := 0
  syncBits := []
  syncPow := []
  frozenPow := 0
  capRef := 0
  centre := 0
  outRun := []
  corrected := false
  clamped := false
  collided := false
  failed := 0
  symPow := 0
  errPow := 0
  blankSum := 0
  blankN := 0
  mark := 0
  preStart := 0
  replayWait := none
  replayCap := false
  replayAt := 0
  readFrom := 0
  halfAt := 0
  ctrl := 0
  syncTick := 0
  syncSnr := 0
  snapshot := []
  soft := []
  member := false
  txOn := false
  asked := false

/-- A PHY header as decoded (R128). -/
structure PhyHdr where
  length : Nat
  rate : Nat
  levels : Nat
  coding : Nat
  version : Nat
  block : Bool
  blockMap : Nat
  deriving DecidableEq, Repr

/-- A body on its way from a receiver through a Viterbi unit to acceptance (R139, R141): its receiver, the members of its
combining group, its header, the session's priority, the tick its de-interleaving completed, and its soft values, as
delivered or in coded order with punctured places filled in.  `blockNo` is the block in block mode; `collided` the receivers
that bear the collision mark (R105), `snr` the frame's SNR in 0.25 dB, `sync` the sync stamp, `syncs` the receivers that
heard it with their sync SNR in 0.25 dB (R172, R198), `rssi` its RSSI in 0.25 dB; `via` is the hearing site of a frame handed
off by another site (R307). -/
structure Body where
  rx : Nat
  group : List Nat
  hdr : PhyHdr
  prio : Bool
  tick : Nat
  blockNo : Option Nat
  vals : List (Int × Nat)
  collided : List Nat
  snr : Int
  sync : Nat
  syncs : List (Nat × Int)
  erasedPct : Nat
  rssi : Int := 0
  via : Option Nat := none
  deriving DecidableEq, Repr

/-- Good blocks kept for a receiver's exchange in block mode (R137). -/
structure BlockStore where
  rx : Nat
  hdr : PhyHdr
  blocks : List (Nat × List Byte)
  deriving DecidableEq, Repr

/-- A frame whose MIC the cipher engine has still to verify (R141, R322), with the FCS result. -/
structure MacWait where
  body : Body
  mpdu : List Byte
  fcsOk : Bool
  due : Nat
  tries : Nat := 0
  deriving DecidableEq, Repr

/-! ### Mains, noise maps and combining (R151 to R181) -/

/-- What a mains set holds beside its registers (R152 to R156). -/
structure SetS where
  lastX : List (Option Nat)  -- tick of the last valid crossing of each phase, either polarity
  beyond : List Bool         -- the output has gone beyond HYST since then: of phase j, 2j positive, 2j+1 negative
  prevOut : List (Option (Int × Nat)) -- last settled output of each phase and its tick
  prevSign : List Bool       -- its sign, true = positive
  goodRun : Nat
  prevPeriod : Option Nat    -- the period just before, when it was good
  prevZ : Option Nat         -- last real L1+ stamp
  crossed : List (Nat × Nat) -- (kind, stamp) of the crossings of the last 200 s, newest first (log entry 23)
  cycleZ : Nat               -- start of the current cycle of bins
  cycleP : Nat               -- its period
  lastRot : Nat              -- last judged rotation, 0 when none
  deriving DecidableEq, Repr

/-- A set after reset. -/
def SetS.init : SetS :=
  ⟨[none, none, none], List.replicate 6 false, [none, none, none], [false, false, false], 0, none, none, [], 0, 0, 0⟩

/-- One bin of a port's noise map (R159): mean power (linear), the impulsive rate, q95 in 1/256 dB, the observation
count and the age. -/
structure MapBin where
  mean : Rat
  imp : Rat
  q95 : Int
  n : Nat
  age : Nat
  deriving DecidableEq, Repr

/-- A bin never observed. -/
def MapBin.init : MapBin := ⟨0, 0, 0, 0, 0⟩

/-- The used windows of the bin in progress at a port (R158): the bin, sum of powers, their number, and whether one was
impulsive; and the start of the last cycle in which a bin was updated. -/
structure BinAcc where
  bin : Nat
  sum : Rat
  n : Nat
  impulsive : Bool
  cyc : Nat
  deriving DecidableEq, Repr

/-- The blanker of a line strand (R163): σ², the samples still to zero behind an impulse, the samples in the delay, and
`MNS_BLANK_CFG` as it stood when the last listen window opened (R176). -/
structure BlankS where
  cfg : Option Word
  sigma2 : Rat
  guard : Nat
  delay : List (Int × Bool × Bool)  -- the 32 samples in the delay, newest first: value, settled, blanked
  deriving DecidableEq, Repr

/-- A blanker after reset starts at the power of a full-scale sine. -/
def BlankS.init : BlankS := ⟨none, 2 ^ 33, 0, []⟩

/-- A member that joined a combining group (R172): its receiver, its place in the group's register, its weight, and whether it was
dropped (R174). -/
structure CombM where
  rx : Nat
  place : Nat
  w : Nat
  dropped : Bool
  deriving DecidableEq, Repr

/-- A combining group at work in an exchange (R171 to R175): cord, group number (16 and above: implicit triple groups), the
reference with its sync stamp, the chain output on which it found its sync word and the tick at which it did, the members
that joined, the sum of their linear sync SNRs, the soft values of members that have left the frame or delivered it,
whether the combined frame is over, and the (SRC, COUNTER) pairs accepted in the exchange. -/
structure CombS where
  cord : Nat
  group : Nat
  ref : Option Nat
  refTick : Nat
  refOut : Nat
  refAt : Nat
  members : List CombM
  snrSum : Rat
  kept : List (Nat × List (Int × Nat))
  done : Bool
  accepted : List (Nat × Nat)
  deriving DecidableEq, Repr

/-- A group of an exchange in which no member has found a sync word yet. -/
def CombS.init (c g : Nat) (acc : List (Nat × Nat)) : CombS := ⟨c, g, none, 0, 0, 0, [], 0, [], false, acc⟩
/-! ### Belay jobs and the Vault -/

/-- What a job slot holds beside its registers (R430 to R435): the parameters, the position of the next step, the ticks
of the last step and of the next status record, whether a cancel waits for the step boundary, and the phase of an NVM or
self-test job. -/
structure JobS where
  params : List Nat
  cursor : Nat
  lastStep : Nat
  statusDue : Nat
  cancel : Bool
  phase : Nat
  deadline : Nat
  deriving DecidableEq, Repr

/-- A slot that has never held a job. -/
def JobS.init : JobS := ⟨[], 0, 0, 0, false, 0, 0⟩

/-- What waits for a Vault write (R336). -/
inductive VaultFor where
  | plain                                   -- a stored value, nothing waits
  | reserve (session dir ceil : Nat)        -- a counter reservation (R338)
  | epoch (session : Nat)                   -- a rekey commit (R343)
  | keyState (session : Nat)                -- the key state of an association (R341)
  | spool (cls ceil : Nat)                  -- a spool ceiling (R533)
  | ownTerm                                 -- OWN_TERM at a takeover (R374)
  | generation (gen : Nat)                  -- the store generation (R223)
  | mirror (seq : Nat)                      -- a value received from the Splice partner (R377)
  deriving DecidableEq, Repr

/-- A Vault write that waits or is in progress: its address, its bytes, what waits for it, and whether its first
read-back failed. -/
structure VaultWrite where
  addr : Nat
  bytes : List Byte
  why : VaultFor
  retried : Bool
  deriving DecidableEq, Repr

/-! ### Exchanges and rounds (R183 to R194) -/

/-- The mode of a reply: rate index, 4-FSK, coding (R190). -/
structure Mode where
  rate : Nat
  levels : Nat
  coding : Nat
  deriving DecidableEq, Repr

/-- An exchange in progress (R183): its session, ports (best first), slot, class, attempt, request code, sequence
number, reply mode, block mode, its round, the step it has reached (0: the poll is still to be sent; 2, 4: a reply or re-sent blocks are awaited; 3, 5: BLOCK_REQ or ACK
is being sent; 6, 7: BLOCK_REQ or ACK is owed), its
listen window, the block rounds run, whether an ACK is owed, the tick at which its read fell due, whether it repeats a STALE
exchange, the MPDU of the step's frame, the mode it is sent in, the Vault writes its frame waits for, the ports that
heard the reply with their sync SNR, the tick at which its poll's sync word ends, whether its read counts as missed already (R189), and the METER_DATA body that answers its
command (R415). -/
structure Exch where
  session : Nat
  cord : Nat
  ports : List Nat
  slot : Nat
  cls : Nat
  attempt : Nat
  request : Nat
  seq : Nat
  mode : Mode
  block : Bool
  round : Nat
  step : Nat
  openAt : Nat
  closeAt : Nat
  blockRounds : Nat
  needAck : Bool
  due : Nat
  again : Bool
  tx : List Byte
  txMode : Mode
  wait : Nat
  heard : List (Nat × Int)
  pollS : Nat
  missed : Bool := false
  answer : List Byte := []
  deriving DecidableEq, Repr

/-- A round (R192): its number, cord, ports, the first transmitted sample T0 and instant E of its present burst, and T0 of its first
burst. -/
structure Round where
  num : Nat
  cord : Nat
  ports : List Nat
  t0 : Nat
  e : Nat
  start : Nat
  deriving DecidableEq, Repr


/-! ### Sessions and the store (R215 to R256) -/

/-- An entry of the slot table (R216): the slot state (R215), the priority flag, the medium (true: radio), and the sequence
number of the session's newest journal entry. -/
structure Slot where
  st : Nat
  prio : Bool
  radio : Bool
  newest : Option Nat
  deriving DecidableEq, Repr

/-- The slot table after reset: slot 0x0000 holds the module's own context and is ACTIVE, every other slot is FREE. -/
def Slot.init (k : Nat) : Slot := ⟨if k = 0 then 2 else 0, false, false, none⟩

/-- A context in the cache (R229, R230): its session, whether it differs from its home copy, the tick of its last lease,
and whether its entry holds the whole context yet. -/
structure CacheE where
  session : Nat
  dirty : Bool
  lastLease : Nat
  filled : Bool
  deriving DecidableEq, Repr

/-- A lease (R232): its session, identifier, holder and expiry. -/
structure Lease where
  session : Nat
  id : Nat
  holder : Nat
  expires : Nat
  deriving DecidableEq, Repr

/-- A request that waits for a lease (R233). -/
structure LeaseReq where
  session : Nat
  holder : Nat
  since : Nat
  deriving DecidableEq, Repr

/-- A context update that waits for its journal entry (R235): session, entry kind, holder, the lease it was made under, the
bytes changed, the records it releases, and whether it waits for room in the ring. -/
structure JUpd where
  session : Nat
  kind : Nat
  holder : Nat
  lease : Option Nat
  offset : Nat
  bytes : List Byte
  follow : List Rec
  waits : Bool
  deriving DecidableEq, Repr

/-- A journal entry (R235): sequence number, session, kind, holder, offset, data, the ring position of the session's
previous entry, its own position and size in 64-byte units, and whether it is releasable (R236). -/
structure JEntry where
  seq : Nat
  session : Nat
  kind : Nat
  holder : Nat
  offset : Nat
  bytes : List Byte
  prev : Option Nat
  pos : Nat
  units : Nat
  free : Bool
  deriving DecidableEq, Repr

/-- A record in the spool (R241, R246), the tick at which it was last sent, and its place in its page. -/
structure SpoolRec where
  rc : Rec
  sent : Option Nat
  off : Nat := 0
  deriving DecidableEq, Repr

/-- A spool page in use (R241): its number, class and the bytes used. -/
structure Page where
  num : Nat
  cls : Nat
  used : Nat
  deriving DecidableEq, Repr

/-- The store header (R222); its magic and layout are constants. -/
structure StoreHdr where
  serial : Nat
  gen : Nat
  capacity : Nat
  jrnTail : Nat
  deriving DecidableEq, Repr

/-- A session command in progress (R218, R348): its operation and session, and whether it has its lease and has run. -/
structure SesCmd where
  op : Nat
  session : Nat
  run : Bool
  deriving DecidableEq, Repr

/-- A METER_COMMAND that waits for its lease, or for the journal (R228, R415): the head-end's identifier, the session, its
flags and payload, whether it has run, and the result it then answers. -/
structure MeterCmd where
  id : Nat
  session : Nat
  flags : Nat
  payload : List Byte
  run : Bool
  result : Nat
  deriving DecidableEq, Repr

/-- A read, command or poll that waits for a round (R187, R201, R210): session, class, request code, attempt, due tick,
whether it is the repeat of a STALE exchange, and whether it counts as a missed read already (R189).  Request 7 is an
ASSIGN (R208). -/
structure PReq where
  session : Nat
  cls : Nat
  request : Nat
  attempt : Nat
  due : Nat
  again : Bool
  missed : Bool := false
  deriving DecidableEq, Repr

/-- The tag of a frame key (R321): EUI, PROV, epoch, purpose, direction. -/
structure KeyTag where
  eui : Nat
  prov : Nat
  epoch : Nat
  purpose : Nat
  dir : Nat
  deriving DecidableEq, Repr

/-- A message to the Splice partner or over the fabric (R366, R376, R384): its type, its sequence number, the tick at which
it was queued, and its content. -/
structure Msg where
  kind : Nat
  seq : Nat
  sent : Nat
  body : List Byte
  deriving DecidableEq, Repr

/-! ### Frames, counters and association -/

/-- An accepted frame that waits for the Vault writes of its counter check (R339, R341, R343), or for its session's lease: how
many writes are left, what happens when they are done (0 the receive mark, 1 an epoch commit, 2 an association, 4 the counter
check, once the lease is granted), whether its verdict was ACCEPTED_FCS_ONLY, and the epoch and `PROV` it was deciphered
under. -/
structure AccWait where
  body : Body
  mpdu : List Byte
  plain : List Byte
  session : Nat
  left : Nat
  what : Nat
  fcsOnly : Bool
  epoch : Nat
  prov : Nat
  deriving DecidableEq, Repr

/-- Bytes held as two Boolean shares (R331): their exclusive or is the value. -/
structure Shares where
  a : List Byte
  b : List Byte
  deriving DecidableEq, Repr

/-- A frame key in the key cache (R321): its tag and the key in two shares. -/
structure KeyE where
  tag : KeyTag
  key : Shares
  deriving DecidableEq, Repr

/-- A JOIN accepted in a sweep (R207): its EUI, version, capabilities, turnaround, and the sync SNR at each port that
accepted it, with its reply slot. -/
structure JoinS where
  eui : Nat
  ver : Nat
  caps : Nat
  turn : Nat
  heard : List (Nat × Int)
  deriving DecidableEq, Repr

/-- A discovery sweep in progress (R205): cord, slot, ports, number, reply slots S, the slots used and those that gave an
accepted JOIN, the JOINs, E, the slot length, the tick of its end, and the number of its round. -/
structure Sweep where
  cord : Nat
  slot : Nat
  ports : List Nat
  num : Nat
  slots : Nat
  used : List Nat
  good : List Nat
  joins : List JoinS
  e : Nat
  slotLen : Nat
  ends : Nat
  round : Nat
  deriving DecidableEq, Repr

/-- A line association that awaits its ACK (R207, R208): session, sweep number, ASSIGNs sent, whether the slot was opened for
it, the EUI, the negotiated version, the turnaround in ticks, the port set best first, the strand slot assigned, the slot the
JOIN came on, and the JOIN mode. -/
structure Assoc where
  session : Nat
  seq : Nat
  tries : Nat
  opened : Bool
  eui : Nat
  ver : Nat
  turn : Nat
  ports : List (Nat × Int)
  slot : Nat
  joinSlot : Nat
  joinMode : Mode
  deriving DecidableEq, Repr

/-- The line time of an exchange that has ended (R187, R213): its end, cord, class, ports, and the start of its round. -/
structure PlanDone where
  ended : Nat
  cord : Nat
  cls : Nat
  ports : List Nat
  began : Nat
  deriving DecidableEq, Repr

/-- An entry of the route table (R296): destination, next hop, metric, hop count, and the tick at which its age was 0. -/
structure RouteE where
  dest : Nat
  next : Nat
  metric : Nat
  hops : Nat
  born : Nat
  deriving DecidableEq, Repr

/-- A key of the seen cache (R304): coordinator, source, flood sequence number, and the tick at which it entered. -/
structure SeenE where
  coord : Nat
  src : Nat
  fseq : Nat
  at_ : Nat
  deriving DecidableEq, Repr

/-- An entry of the foreign table (R308): the 4 bytes that the CXL device holds — sightings, best RSSI plus 160, its radio strand, and
minutes — and the tick up to which its minutes are counted. -/
structure Foreign where
  word : BitVec 32
  at_ : Nat
  deriving DecidableEq, Repr

/-- A phase report whose mains cycle may still be open (R167, R168): its session, the port of the exchange, the report, the tick of
the reply, and, once it is judged and waits for its lease, its result and confidence. -/
structure PhaseDue where
  session : Nat
  port : Nat
  rep : PhaseRep
  at_ : Nat
  judged : Option (Nat × Nat) := none
  deriving DecidableEq, Repr

/-- A plan of the owner as the standby mirrors it (R379): its session, class, request code and attempt, its ports, and the ticks
between which they transmit. -/
structure MirPlan where
  session : Nat
  cls : Nat
  request : Nat
  attempt : Nat
  ports : List Nat
  t0 : Nat
  t1 : Nat
  deriving DecidableEq, Repr

/-- A pin command that waits for its lease (R209): its session, whether it clears, the kinds set, and `PLN_PIN_PLACE` and
`PLN_PIN_MODE` as they stood. -/
structure PinCmd where
  session : Nat
  clear : Bool
  kinds : Nat
  place : Word
  mode : Word
  deriving DecidableEq, Repr

/-! ### The radio coordinator and mesh relaying (R258 to R313) -/

/-- A JOIN accepted on the radio that is still to be answered (R281, R302): the head of highest RSSI, that RSSI, and, where it
came through relays, their path. -/
structure RJoin where
  eui : Nat
  ver : Nat
  caps : Nat
  head : Nat
  rssi : Int
  mesh : Bool
  path : List Nat
  deriving DecidableEq, Repr

/-- A radio association or reassignment that awaits its ACK (R277, R282, R302): the meter's EUI and version, ASSIGNs sent and
active superframes counted, whether the slot was opened for it, whether it is a reassignment, whether the JOIN came through relays and
by which path, the head, the superframe of the last send, for a session that another site hands over, that site and its
address there (R390), and the phase of the old pair of a reassignment. -/
structure RadioAssoc where
  session : Nat
  eui : Nat
  ver : Nat
  sent : Nat
  active : Nat
  opened : Bool
  again : Bool
  mesh : Bool
  path : List Nat
  head : Nat
  lastSf : Nat
  ho : Option (Nat × Nat) := none
  oldPhase : Nat := 0
  deriving DecidableEq, Repr

/-- A downstream frame that waits for phase 2 of a contention slot (R300): its rank (0 ASSIGN, 1 SOURCE, 2 FLOOD), schedule
class, the heads that still have to send it, the tick at which it was queued, its session, frame type and MPDU, whether it
carries a route header, and the Vault writes it waits for. -/
structure DownTx where
  rank : Nat
  cls : Nat
  heads : List Nat
  at_ : Nat
  session : Nat
  ftype : Nat
  mpdu : List Byte
  wait : Nat
  deriving DecidableEq, Repr

/-- A command or REKEY on its way to a meter through relays (R301): session, frame type, sends, the count `sfs` at the last
send, whether that was a SOURCE send, and its SEQ. -/
structure MeshSend where
  session : Nat
  ftype : Nat
  sends : Nat
  lastSf : Nat
  source : Bool
  seq : Nat
  deriving DecidableEq, Repr

/-- A pair active in a slot (R270, R274): session, receiver, whether it is the session's old pair of a reassignment, the
outcome so far, the listen window, the sync stamp of the frame heard, the prefix of an accepted payload, the counter of the
frame the responder answers, the responder (its type, MPDU and the Vault writes it waits for), and whether it was the first send of
a COMMAND. -/
structure PairNow where
  session : Nat
  rx : Nat
  old : Bool
  outcome : Nat
  openAt : Nat
  closeAt : Nat
  sync : Option Nat
  pre : Option (Nat × Nat)
  acked : Option Nat
  tx : List Byte
  txType : Nat
  wait : Nat
  first : Bool := false
  deriving DecidableEq, Repr

/-- A bucket of transmitted air time (R279): its key (4 × raster channel + head, or the sub-band), its number since tick 0,
and the microseconds in it. -/
structure Air where
  key : Nat
  bucket : Nat
  us : Nat
  deriving DecidableEq, Repr

/-- An observed beacon (R285): node, offset in slots, and the count `sfs` at the sighting. -/
structure Obs where
  node : Nat
  offset : Nat
  sf : Nat
  deriving DecidableEq, Repr

/-- What the radio coordinator and mesh relaying hold beside their registers. -/
structure MacS where
  next : Option Nat          -- start of the next superframe, none while stopped (R266)
  fresh : Bool               -- RUN has been applied and the first superframe is still to come
  slot : Option (Nat × Nat)  -- the present slot and its start
  phase : Nat                -- 0 phase 1, 1 from P2 − 0.5 ms, 2 from P2, 3 the tail (R267)
  leasedFor : Option Nat     -- the slot whose pairs were leased (R270)
  nextPairs : List PairNow   -- the pairs of that slot
  pairs : List PairNow       -- the pairs active in the present slot
  letGo : List Nat           -- sessions whose lease ends once their updates are journalled
  holds : List (Nat × Nat)   -- sessions in DRIFT_LOST, and the count `sfs` at its start (R278)
  air : List (Nat × Burst)   -- receivers whose synthesiser sends, and the frame
  dwell : List Air
  duty : List Air
  dutyTo : Table Nat         -- end of the air time last counted in each sub-band
  dutyHigh : List Nat        -- sub-bands above 90 % of their limit (R280)
  airMark : List Air × List Air × Table Nat -- dwell, duty and dutyTo before the beacons of the superframe
  obs : List Obs             -- observed beacons, oldest first (R285)
  parentRx : Option (Nat × List Byte) -- a parent's BEACON accepted in this superframe: receiver's sync stamp, payload
  parentHead : Nat           -- the receiver that heard it
  parentNext : List Nat      -- NEXT of the last parent beacon decoded (R283)
  heardParent : Bool         -- a parent beacon was taken up in this superframe
  lostSf : Nat               -- the count `sfs` when the mode became PARENT_LOST (R284)
  scan : Nat                 -- the raster channel that the listen strand scans (R284)
  listenTune : BitVec 32     -- what tunes the listen strand away from its own tone centre, as `FC_NCO.FREQ` (R283, R284)
  sfs : Nat                  -- superframes begun since reset, which no restart of `MAC_SFN` sets back
  moveTo : Option Nat        -- grid offset to move to at the next boundary (R284)
  commitAt : Nat             -- tick at which the pending MAC commit was accepted (R291)
  scripts : Table Byte       -- the script memory, 32 KiB (R262)
  headFail : List (Nat × Bool) -- heads whose direction failed in this slot; true: receive (R262)
  linkRetry : Table Nat      -- tick of the last link-init script of each head, or of its link's fall (R260)
  linkInit : Table Nat       -- one more than the tick of the last link initialisation of each head (R259)
  sysref : Bool              -- a pulse on `RHSYSP` and `RHSYSN` (R259)
  spi : List (Nat × List Byte) -- what the scripts that ran last shift out on `RH_SDI`, with the head selected (R262)
  spiAt : Nat                -- the tick at which they began
  joins : List RJoin
  assocs : List RadioAssoc
  cmdOut : List Nat          -- radio sessions whose pending COMMAND was sent (R273)
  routes : List RouteE       -- the route table (R296)
  routeFullAt : Option Nat   -- tick of the last EV177 (R298)
  seen : List SeenE          -- the seen cache, oldest first (R304)
  seenEvictAt : Option Nat   -- tick of the last EV179 (R304)
  foreign : Table Foreign    -- the foreign table, by its address in the CXL device (R308)
  downQ : List DownTx
  sends : List MeshSend
  seqs : Table Nat           -- last exchange sequence number of each radio session (R184)
  deriving DecidableEq, Repr

/-- The radio coordinator after reset: stopped, with empty tables. -/
def MacS.init : MacS where
  next := none
  fresh := false
  slot := none
  phase := 3
  leasedFor := none
  nextPairs := []
  pairs := []
  letGo := []
  holds := []
  air := []
  dwell := []
  duty := []
  dutyTo := []
  dutyHigh := []
  airMark := ([], [], [])
  obs := []
  parentRx := none
  parentHead := 0
  parentNext := []
  heardParent := false
  lostSf := 0
  scan := 0
  listenTune := 0
  sfs := 0
  moveTo := none
  commitAt := 0
  scripts := []
  headFail := []
  linkRetry := []
  linkInit := []
  sysref := false
  spi := []
  spiAt := 0
  joins := []
  assocs := []
  cmdOut := []
  routes := []
  routeFullAt := none
  seen := []
  seenEvictAt := none
  foreign := []
  downQ := []
  sends := []
  seqs := []

/-! ### The cipher engine (R316 to R334) -/

/-- A raw cipher job (R328): the command identifier of a Halyard job, none for a job through the registers; `CIP_RAW_CFG`,
`CIP_RAW_LEN` and `CIP_RAW_SESSION` as it started, IV, tag and key, and, for a Halyard job, its AAD and data; and the mismatches
met so far (R333). -/
structure RawJob where
  cmd : Option Nat
  cfg : Word
  len : Word
  ses : Word
  iv : List Byte
  tag : List Byte
  key : Shares
  data : List Byte
  tries : Nat
  deriving DecidableEq, Repr

/-- What the cipher engine holds beside its registers. -/
structure CipS where
  faults : List Nat          -- ticks of the mismatches of the last second (R333)
  lifts : List Nat           -- ticks of the fences lifted in the last 24 h (R334)
  raw : List RawJob          -- raw jobs in arrival order, the first one running (R328)
  flight : Nat               -- a computation begun before an entropy failure may still complete (R347): 1 MIC, 2 derivation, 3 raw job
  entropy : Nat              -- 0 start-up test not passed, 1 good, 2 discarding and retesting (R332)
  entFails : List Nat        -- ticks of the health test failures of the last second
  drbgAt : Nat               -- tick of the last reseed of the DRBG (R332)
  drbgUsed : Nat             -- requests since then
  blowing : Option (List Byte) -- the anchor being programmed (R316)
  held : Bool                -- the fence holds until reset (R334)
  txWait : List (Nat × Nat)  -- session and counter of each frame that waits for a reservation of its counter (R338)
  ahead : List Nat           -- sessions prefetched whose keys are derived once the context is cached (R321)
  deriving DecidableEq, Repr

/-- The engine after reset. -/
def CipS.init : CipS := ⟨[], [], [], 0, 0, [], 0, 0, none, false, [], []⟩

/-! ### Handovers (R389, R390) -/

/-- A session that this site hands over: the session, the other site, the ASSIGN payload it accepted with, and whether the
meter has been sent it. -/
structure HoOut where
  session : Nat
  node : Nat
  payload : List Byte
  sent : Bool
  offered : Bool             -- HO_OFFER has been sent
  deriving DecidableEq, Repr

/-! ### Halyard (R403 to R414) -/

/-- A MACsec security association (R413, R414): its port, direction, AN, key, salt, SSCI, the next PN to send or the highest PN
accepted plus 1, and whether it is enabled. -/
structure SaS where
  port : Nat
  tx : Bool
  an : Nat
  key : Shares
  salt : List Byte
  ssci : Nat
  pn : Nat
  on : Bool
  low : Nat                  -- the lowest PN a receive SA accepts with `REPLAY_EN` (R413)
  deriving DecidableEq, Repr

/-- What Halyard holds beside its registers. -/
structure HalS where
  sas : List SaS             -- installed SAs (R414)
  h0At : Nat                 -- tick at which H0 came UP (R404)
  back : Bool                -- code 2 sends on H0 again (R404)
  downAt : Option Nat        -- tick since which the sending port has not been UP (R409)
  helloAt : Nat              -- tick of the last HELLO (R409)
  alerts : Table Nat         -- tick of the last EV243 of each port (R413)
  last : Option (Nat × List Byte) -- the frame last sent and its port
  heldAt : Option Nat        -- tick since which a frame to be sent waits for link GCM (R27)
  deriving DecidableEq, Repr

/-- Halyard after reset. -/
def HalS.init : HalS := ⟨[], 0, true, none, 0, [], none, none⟩

/-! ### Self-test (R469 to R481) -/

/-- A run of a self-test target in a job slot (R470 to R481): its target, the steps done, the pattern count, the suspensions,
whether a first FAIL is being repeated, the tick at which the job came to the target, and the targets to test once more. -/
structure TstRun where
  target : Nat
  steps : Nat
  count : Nat
  suspends : Nat
  again : Bool
  since : Nat
  more : List Nat
  second : Bool
  deriving DecidableEq, Repr

/-- An entry of the GOLDEN section for this die revision (R471): target, full count, signature. -/
structure GoldenE where
  target : Nat
  count : Nat
  sig : BitVec 64
  deriving DecidableEq, Repr

/-- What self-test holds beside its registers: the run of each job slot, the golden entries, and the tick of the last periodic
start (R474). -/
structure TstS where
  runs : Table (Option TstRun)
  golden : List GoldenE
  periodAt : Nat
  deriving DecidableEq, Repr

/-- Self-test after reset. -/
def TstS.init : TstS := ⟨[], [], 0⟩

/-! ### Links, Splice and Braid (R365 to R397) -/

/-- A link (R365 to R368): Splice, Braid east or Braid west.  The lanes that are UP, the tick of the first one, the peer's HELLO
as accepted, whether a check failed, whether the peer's CONFIRM is accepted, the key index, the next sequence number to send
and the last one accepted, the ticks of the last frame accepted and sent, of the tag failures of the last second and of the last EV231. -/
structure LinkS where
  lanes : Nat
  firstAt : Nat
  hello : Option HelloS
  refused : Bool
  confirmed : Bool
  keyIdx : Nat
  txSeq : Nat
  rxSeq : Option Nat
  lastRx : Nat
  lastTx : Nat
  tagFails : List Nat
  tagEvAt : Option Nat
  noDownTo : Nat             -- the port does not count as down before this tick (R394, R395)
  last : Option Msg          -- the last frame sent, with the tick at which it left
  wire : List Byte           -- its bytes, enciphered where it is protected (R366)
  deriving DecidableEq, Repr

/-- A link after reset. -/
def LinkS.init : LinkS := ⟨0, 0, none, false, false, 0, 0, none, 0, 0, [], none, 0, none, []⟩

/-- What Splice holds beside its registers. -/
structure SplS where
  refreshAt : Nat            -- tick of the last watchdog refresh (R371)
  expired : Bool             -- the watchdog has expired and no refresh has followed
  claimAt : Option Nat       -- start of the claim in progress (R373)
  split : Bool               -- OWN_IN was high at the end of the guard
  was : Nat                  -- the role before the claim
  retryAt : Option Nat       -- end of the delay after a withdrawal
  start : Option Nat         -- start of START_WAIT (R373)
  term : Nat                 -- the partner's last known OWN_TERM
  peerRole : Nat             -- the partner's role as last heard
  grid : Option (Nat × Nat)  -- the owner's superframe start and number (R379)
  rxSeq : Nat                -- highest LF_SEQ applied (R377)
  got : List Nat             -- sessions whose mirrored image this standby holds (R378)
  bulkTo : Option (Nat × Nat) -- LF_SEQ of the last Vault message and of the last image of a bulk transfer
  switchTo : Bool            -- a switchover waits for the rounds and the mirror (R375)
  heardAt : Nat              -- tick of the last frame accepted on the link, kept when it goes down
  audit : Option (Nat × Nat) -- first session of the audit in progress and its result here (R380)
  auditAt : Nat              -- tick of the last audit step
  want : List Nat            -- sessions asked of the partner (R250, R251)
  wantAt : Nat               -- tick of the last request for them, or of the last one received
  txTo : Nat                 -- messages of an LF_SEQ below this have left (R376)
  owe : List Nat             -- sessions that the partner asked for and whose lease is awaited (R381)
  deriving DecidableEq, Repr

/-- Splice after reset. -/
def SplS.init : SplS := ⟨0, false, none, false, 0, none, none, 0, 0, none, 0, [], none, false, 0, none, 0, [], 0, 0, []⟩

/-- What Braid and the Bight hold beside their registers. -/
structure BrdS where
  walkAt : Nat               -- tick of the last own WALK (R386)
  walking : Bool             -- an own WALK is under way
  walkOwed : Option Nat      -- a port change at this tick still calls for a WALK
  nodes : List NodeE         -- the topology applied (R386)
  broken : Option Nat        -- the position of its break
  knotSerial : Nat           -- serial of the knot master of the last TOPOLOGY applied, and its tick
  topoAt : Nat
  delays : Table (List Int)  -- round-trip halves of the last 8 exchanges of each port (R388)
  reqs : Table (Option Nat)  -- t1 of the DELAY_REQ in flight of each port
  delayAt : Table Nat        -- tick of the last DELAY_REQ of each port
  timeAt : Nat               -- tick of the last TIME received or sent
  timeHops : Nat             -- hops of the copy used
  taps : Option Nat          -- tick since which the taps hold the lanes UP (R394)
  openAt : Nat               -- tick at which lane 1 opened
  cut : Option Nat           -- cutover tick C
  agreed : List Nat          -- sides that accepted C
  leaving : Bool
  retryAt : Option Nat       -- end of the insertion backoff
  backoff : Nat              -- its length, s
  held : List Nat            -- ports whose lane 0 queues towards a cutover (R394)
  hoSeen : Table (Nat × Nat) -- site and run of relays above the margin, by session (R389)
  lane0 : Bool               -- the lane 0 group is open and MEMBER is still to come (R394)
  ins : List (Nat × Nat × Bool) -- insertions beside this node: port, the new key index, and whether it is confirmed (R394)
  cuts : List (Nat × Nat × Bool) -- cutovers of neighbours: port, tick C, and whether the neighbour leaves (R394, R395)
  deriving DecidableEq, Repr

/-- Braid after reset. -/
def BrdS.init : BrdS := ⟨0, false, none, [], none, 0, 0, [], [], [], 0, 0, none, 0, none, [], false, none, 1, [], [], false, [], []⟩

/-! ### Start-up, clocks and power (R443 to R463) -/

/-- What start-up, the clocks and the supply hold beside their registers. -/
structure UpS where
  run : Nat                  -- 0 VIN below UVLO, 1 in reset, 2 out of reset
  tR : Nat                   -- tick of T_R (R447)
  stepAt : Nat               -- tick at which the start-up step in progress began
  goodAt : Nat               -- tick at which PWR_GOOD rose (R446)
  perst : Bool               -- CX_PERST_N is high
  softAt : Option Nat        -- tick at which a SOFT reset falls due (R511)
  alt : Bool                 -- the primary image has failed (R450)
  dead : Bool                -- all line and radio work is stopped until a reset (R455)
  vinLow : Bool              -- R463
  tempHigh : Bool
  clockLost : Bool           -- REFCLK or PLL lost, not yet relocked (R456)
  rateF : Rat                -- f of R459, ppm
  ePrev : Rat                -- e_prev of R459, ticks
  rho : Rat                  -- ρ, ppm
  frac : Rat                 -- the fraction of a tick carried (R458)
  xtBad : Bool               -- the crystal has stopped or is out of tolerance (R457)
  ppsGood : Nat              -- consecutive accepted edges within LOCK_TICKS (R460)
  ppsBad : Nat               -- consecutive accepted edges beyond 8 × LOCK_TICKS
  ppsHigh : Option Nat       -- PPS_OUT is high up to this tick
  tap : Nat                  -- TAP instruction: 0 none or IDCODE state after reset, 1 EXTEST, 2 SAMPLE/PRELOAD, 3 BYPASS (R527)
  gpio : Table Nat           -- level of each GPIO ball as last seen (R514)
  sect : List Byte           -- the bytes of the target section that a profile switch has read (R454)
  reapply : Bool             -- the previous profile is applied again when the PLL has relocked (R464)
  vinUnder : Bool            -- VIN was below 4.5 V at the last measurement (R463)
  coresOut : Nat             -- bit c: Capstan core c is out of service until the next start-up (R25, R482)
  roles : List Nat           -- the core that carries each role of R24: the role of core c is at place c (R25)
  deriving DecidableEq, Repr

/-- Right after a POWER reset. -/
def UpS.init : UpS := ⟨1, 0, 0, 0, false, none, false, false, false, false, false, 0, 0, 0, 0, false, 0, 0, none, 0, [], [], false, false, 0, [0, 1, 2, 3]⟩

/-! ### The state -/

set_option maxRecDepth 20000 in
/-- The state of the block. -/
structure State where
  /-- The commands that wait, first in, first out. -/
  pending : List Instr
  /-- The time base, in ticks (R26, R459). -/
  tick : Nat
  /-- MODEL's own: the free values drawn so far (log entry 2). -/
  free : Nat
  /-- Live register values, by CSR address (R498). -/
  regs : Table Word
  /-- Shadows, by CSR address (R502). -/
  shadow : Table Word
  /-- Commits accepted and not yet applied (R503). -/
  commits : List Commit
  /-- Read latches of wide values, by interface id × 2^24 + address (R500). -/
  rlatch : Table Word
  /-- The last word read by each interface, by interface id (R499, R420). -/
  reply : Table Word
  /-- The bytes that the management port answered in its last transaction (R420). -/
  sdo : List Byte
  /-- The delivery limit of each event source (R427). -/
  rates : Table EvRate
  /-- The output queue of records (R239). -/
  outq : List Rec
  /-- The trouble log memory (R489). -/
  log : Table LogEntry
  /-- EV253 may be raised (R492). -/
  protArmed : Bool
  /-- EV252 may be raised (R493). -/
  nearArmed : Bool
  /-- Open write-log entries, oldest first (R423). -/
  wlog : List WriteLog
  /-- Job slots beside their registers (R430). -/
  jobs : Table JobS
  /-- The Vault's bytes (R335). -/
  vault : Table Byte
  /-- Vault writes waiting, the first in progress (R336). -/
  vaultq : List VaultWrite
  /-- FIRST_TICK of the replace episode (R486). -/
  firstTick : Nat
  /-- Tick of the last replace request sent (R486). -/
  repeatAt : Nat
  /-- The ownership signal (R371). -/
  own : Bool
  /-- Phase of a profile switch: 0 none, 1 CHECK, 2 DRAIN, 3 WAIT, 4 APPLY (R454). -/
  profPhase : Nat
  /-- Line ports (R29). -/
  ports : Table PortS
  /-- The amplifier enable chain (R41). -/
  aen : AenS
  /-- Tick at which each cord engine stopped its clock (R461). -/
  cordStop : Table Nat
  /-- Filter chains (R53). -/
  chains : Table ChainS
  /-- Coefficient memories, by memory × 2^16 + word (R58). -/
  coefs : Table (BitVec 18)
  /-- Scheduled restarts of sync groups (R74). -/
  syncDue : List SyncDue
  /-- Strand receivers (R80). -/
  rxs : Table RxS
  /-- Receivers whose replay waits to start (R101). -/
  replayQ : List Nat
  /-- Bodies delivered and not yet de-interleaved (R139). -/
  delivered : List Body
  /-- Bodies queued for a Viterbi unit (R23). -/
  bodies : List Body
  /-- The body each Viterbi unit decodes. -/
  viterbi : Table (Option Body)
  /-- Good blocks kept (R137). -/
  blockStore : List BlockStore
  /-- Frames whose MIC is being verified (R322). -/
  macWait : List MacWait
  /-- Mains sets (R152). -/
  sets : Table SetS
  /-- Noise maps, by port × 128 + bin (R159). -/
  maps : Table MapBin
  /-- Windows used in the bin in progress, by port (R158). -/
  binAcc : Table BinAcc
  /-- Blankers, by line strand (R163). -/
  blankers : Table BlankS
  /-- Combining groups at work (R171). -/
  combs : List CombS
  /-- Exchanges in progress (R183). -/
  exchs : List Exch
  /-- Rounds fixed and not ended (R192). -/
  rounds : List Round
  /-- The slot table (R216). -/
  slots : Table Slot
  /-- Contexts in the cache, by session × 2048 + byte (R224). -/
  ctx : Table Byte
  /-- The cache entries in use (R229); slot 0x0000 is always cached. -/
  cache : List CacheE
  /-- Sessions whose fill is in progress or waits for an entry (R229, R230). -/
  fills : List Nat
  /-- Sessions whose context is being rebuilt (R238). -/
  rebuilds : List Nat
  /-- Leases in force (R232). -/
  leases : List Lease
  /-- Lease requests that wait, oldest first (R233). -/
  leaseQ : List LeaseReq
  /-- The next lease identifier (R232). -/
  leaseNext : Nat
  /-- The session command in progress (R218). -/
  sesCmd : Option SesCmd
  /-- The cipher session command in progress (R348). -/
  cipCmd : Option SesCmd
  /-- Updates that wait for their journal entry, the first being written (R235). -/
  jq : List JUpd
  /-- Journal entries not yet released, oldest first (R235, R236). -/
  jrn : List JEntry
  /-- Sequence number of the next journal entry (R235). -/
  jrnSeq : Nat
  /-- Ring position of the next journal entry, 64-byte units (R235). -/
  jrnPos : Nat
  /-- Home copies in the CXL store, by session × 2048 + byte (R221). -/
  home : Table Byte
  /-- Sessions being written back (R236). -/
  wbq : List Nat
  /-- The store header in the CXL device (R222). -/
  store : Option StoreHdr
  /-- The store has been taken into use since reset (R223, R532). -/
  storeOpen : Bool
  /-- The journal tail that the header shows (R222). -/
  hdrTail : Nat
  /-- Tick of the last header write (R222). -/
  hdrAt : Nat
  /-- Records in the spool, in the order of their storing (R241); page 0 is the output queue (R249). -/
  spool : List SpoolRec
  /-- Spool pages in use (R241). -/
  pages : List Page
  /-- One more than the number of the page given last. -/
  pageNext : Nat
  /-- Next SPOOL_SEQ of each class (R241, R533). -/
  spoolNext : List Nat
  /-- Records acknowledged of each class: SPOOL_SEQs below this (R246). -/
  spoolAck : List Nat
  /-- Records of other classes sent while a class 4 record waited (R245). -/
  logSkip : Nat
  /-- Tick since which the balance is 0 with records waiting (R244). -/
  creditZero : Option Nat
  /-- EV144 was raised since the last credit (R244). -/
  stallRaised : Bool
  /-- Tick at which the CXL link left UP (R247). -/
  cxlDown : Option Nat
  /-- Ticks of the last link-downs, newest first (R248). -/
  cxlDrops : List Nat
  /-- Corrected errors by tick of their reading, newest first (R247). -/
  ceHour : List (Nat × Nat)
  /-- Ticks of poisoned reads, newest first (R248). -/
  ueHour : List Nat
  /-- Tick of the last retraining in cache-only mode (R249). -/
  retrainAt : Nat
  /-- Capacity in use, MiB (R219). -/
  cxlMib : Nat
  /-- Slots that await head-end restore (R252). -/
  restoreQ : List Nat
  /-- End of HEADEND_WAIT (R252). -/
  waitEnd : Option Nat
  /-- Class 4 is suspended by a restore (R252). -/
  classHeld : Bool
  /-- A restore is in progress whose end EV138 marks (R250 to R252). -/
  restoring : Bool
  /-- Classes whose ceiling write failed, with that ceiling (R533). -/
  ceilBad : List (Nat × Nat)
  /-- Ended exchanges whose part in the context waits for the planner's lease, with the outcome (R210, R227). -/
  lateEnds : List (Exch × Nat)
  /-- Messages for the Splice partner, in sending order (R376). -/
  splOut : List Msg
  /-- Braid messages queued, with the port: 0 east, 1 west (R384). -/
  brdOut : List (Nat × Msg)
  /-- Accepted frames that wait for Vault writes (R339). -/
  accWait : List AccWait
  /-- Key derivations in progress (R321). -/
  keyq : List KeyTag
  /-- The key cache, most recently used first (R321). -/
  keys : List KeyE
  /-- The anchor key KA, in two shares (R316, R331). -/
  anchor : Option Shares
  /-- Programming of the anchor was attempted before (R316). -/
  anchorTried : Bool
  /-- The supply fell while the anchor was blown, and that result is still to be shown (R316). -/
  anchorDip : Bool
  /-- Discovery sweeps in progress (R205). -/
  sweeps : List Sweep
  /-- Reply slots S of the next sweep, by cord, ports and slot; 0: SLOTS_MIN (R206). -/
  sweepSize : Table Nat
  /-- The last sweep number (R205). -/
  sweepNum : Nat
  /-- Tick of the last sweep of each 4 × port + slot (R205). -/
  sweepAt : Table Nat
  /-- Line associations that await their ACK (R208). -/
  assocs : List Assoc
  /-- Refused EUIs and the ticks at which their hold ends (R207). -/
  refused : List (Nat × Nat)
  /-- Sessions with an overdue read (R189). -/
  overdue : List Nat
  /-- Exchanges that ended in the last 60 s, newest first (R187, R213). -/
  planDone : List PlanDone
  /-- Sessions whose pin conflict was raised (R209). -/
  pinBad : List Nat
  /-- Number of the last round. -/
  roundNum : Nat
  /-- Tick of the last phase poll of each session (R211). -/
  phaseAt : Table Nat
  /-- Polls of each UNREACHABLE session: 16 × tick of the last one + next port position (R204). -/
  unrPoll : Table Nat
  /-- Explicit combining groups in use by rounds: cord, group, round (R198). -/
  pinCombs : List (Nat × Nat × Nat)
  /-- Reads, commands and polls that wait for a round (R187). -/
  planQ : List PReq
  /-- MODE byte in which each session last replied, plus 256 (R200). -/
  replied : Table Nat
  /-- METER_COMMANDs that wait for their lease (R228). -/
  meterCmds : List MeterCmd
  /-- Command queue: interface id and body (R417). -/
  cmdQ : List (Nat × List Byte)
  /-- Identifiers and final responses of the last 256 completed commands, newest first (R417). -/
  cmdDone : List (Nat × List Byte)
  /-- Writes of each 4-byte Vault word (R336). -/
  wear : Table Nat
  /-- Ticks of the Vault failures of the last 24 h, newest first (R336). -/
  vaultFaults : List Nat
  /-- Cursor of the bulk transfer to the Splice partner (R378). -/
  bulk : Option Nat
  /-- LF_SEQ of the next frame to the Splice partner (R366). -/
  splSeq : Nat
  /-- Tick at which each port's last round ended (R196). -/
  roundEnd : Table Nat
  /-- Rounds fixed in the last 60 s, newest first: tick, and cord × 8 + members (R213). -/
  roundSizes : List (Nat × Nat)
  /-- Sequence number of the next broadcast (R383). -/
  brdSeq : Nat
  /-- Broadcasts received, newest first: source, sequence (R385). -/
  brdSeen : List (Nat × Nat)
  /-- Phase reports that wait for the end of their mains cycle, oldest first (R168). -/
  phaseReps : List PhaseDue
  /-- The owner's plan as mirrored (R379). -/
  mirPlans : List MirPlan
  /-- Sync SNR at which each port last heard each session, by 16 × session + port position: 0.25 dB units plus 4,096 (R198). -/
  portSnr : Table Nat
  /-- Sessions whose PORTS pin names another cord (R209). -/
  pinCords : List Nat
  /-- A pin command that waits for its lease (R209). -/
  pinCmd : Option PinCmd
  /-- Cords in the condition of EV109 (R214). -/
  overload : List Nat
  /-- Tick of the last accepted PPS edge (R459). -/
  ppsLast : Option Nat
  /-- The radio coordinator and mesh relaying (R258 to R314). -/
  mac : MacS
  /-- The cipher engine beside its registers (R316 to R334). -/
  cip : CipS
  /-- Sessions that this site hands over (R390). -/
  hoOut : List HoOut
  /-- Halyard beside its registers (R403 to R414). -/
  hal : HalS
  /-- Self-test beside its registers (R469 to R481). -/
  tst : TstS
  /-- The links: 0 Splice, 1 Braid east, 2 Braid west (R365 to R368). -/
  links : Table LinkS
  /-- Splice beside its registers (R370 to R381). -/
  spl : SplS
  /-- Braid and the Bight beside their registers (R382 to R395). -/
  brd : BrdS
  /-- Start-up, clocks and supply beside their registers (R443 to R463). -/
  up : UpS
  /-- Check units whose complete result waits for its comparison (R356). -/
  chkOwed : List Nat
  /-- Sessions that a REKEY_SWEEP has still to mark, with the job's slot (R434). -/
  rekeyMarks : List (Nat × Nat)
  /-- Tick of the last media poll with more corrected errors in the hour than CE_THRESH (R247, R484). -/
  ceAbove : Nat
  /-- What the window of each check unit has taken of its stream, in marker units (R352). -/
  chkSeen : Table (List (List Byte))
  deriving DecidableEq, Repr

/-- The state right after a POWER reset, before start-up begins (R443, R508): every register at its reset value, nothing
pending, every memory as delivered. -/
def State.reset : State where
  pending := []
  tick := 0
  free := 0
  regs := []
  shadow := []
  commits := []
  rlatch := []
  reply := []
  sdo := []
  rates := []
  outq := []
  log := []
  protArmed := true
  nearArmed := true
  wlog := []
  jobs := []
  vault := []
  vaultq := []
  firstTick := 0
  repeatAt := 0
  own := false
  profPhase := 0
  ports := []
  aen := ⟨0, none, 0, 0, false, false⟩
  cordStop := []
  chains := []
  coefs := []
  syncDue := []
  rxs := []
  replayQ := []
  delivered := []
  bodies := []
  viterbi := []
  blockStore := []
  macWait := []
  sets := []
  maps := []
  binAcc := []
  blankers := []
  combs := []
  exchs := []
  rounds := []
  slots := []
  ctx := [(0, 2), (3, 1)]
  cache := [⟨0, false, 0, true⟩]
  fills := []
  rebuilds := []
  leases := []
  leaseQ := []
  leaseNext := 0
  sesCmd := none
  cipCmd := none
  jq := []
  jrn := []
  jrnSeq := 0
  jrnPos := 0
  home := []
  wbq := []
  store := none
  storeOpen := false
  hdrTail := 0
  hdrAt := 0
  spool := []
  pages := []
  pageNext := 1
  spoolNext := [0, 0, 0, 0, 0]
  spoolAck := [0, 0, 0, 0, 0]
  logSkip := 0
  creditZero := none
  stallRaised := false
  cxlDown := none
  cxlDrops := []
  ceHour := []
  ueHour := []
  retrainAt := 0
  cxlMib := 0
  restoreQ := []
  waitEnd := none
  classHeld := false
  restoring := false
  ceilBad := []
  lateEnds := []
  splOut := []
  brdOut := []
  accWait := []
  keyq := []
  keys := []
  anchor := none
  anchorTried := false
  anchorDip := false
  sweeps := []
  sweepSize := []
  sweepNum := 0
  sweepAt := []
  assocs := []
  refused := []
  overdue := []
  planDone := []
  pinBad := []
  roundNum := 0
  phaseAt := []
  unrPoll := []
  pinCombs := []
  planQ := []
  replied := []
  meterCmds := []
  cmdQ := []
  cmdDone := []
  wear := []
  vaultFaults := []
  bulk := none
  splSeq := 0
  roundEnd := []
  roundSizes := []
  brdSeq := 0
  brdSeen := []
  phaseReps := []
  mirPlans := []
  portSnr := []
  pinCords := []
  pinCmd := none
  overload := []
  ppsLast := none
  mac := MacS.init
  cip := CipS.init
  hoOut := []
  hal := HalS.init
  tst := TstS.init
  links := []
  spl := SplS.init
  brd := BrdS.init
  up := UpS.init
  chkOwed := []
  rekeyMarks := []
  ceAbove := 0
  chkSeen := []

end Sys2Proof.Machine
end

