-- ==== Sys2Proof/Machine/Table.lean ====
section
/-! DEFINITION. The two operations on a sparse table and its canonical form.  `d k` is what the unlisted key `k` reads
as: a register's reset value, 0 for a memory byte, an instance's state after reset. -/
namespace Sys2Proof.Machine

/-- The value at key `k`. -/
def tget {α : Type} (d : Nat → α) : Table α → Nat → α
  | [], k => d k
  | (j, v) :: t, k => if j = k then v else tget d t k

/-- The table without key `k`. -/
def tdel {α : Type} : Table α → Nat → Table α
  | [], _ => []
  | (j, w) :: t, k => if j = k then tdel t k else (j, w) :: tdel t k

/-- The table with the pair of key `k` put in its place. -/
def tput {α : Type} : Table α → Nat → α → Table α
  | [], k, v => [(k, v)]
  | (j, w) :: t, k, v =>
    if k < j then (k, v) :: (j, w) :: t
    else if k = j then (k, v) :: t
    else (j, w) :: tput t k v

/-- The table with the value `v` at key `k`, in canonical form again: a value that an unlisted key reads as is not listed. -/
def tset {α : Type} [DecidableEq α] (d : Nat → α) (t : Table α) (k : Nat) (v : α) : Table α :=
  if v = d k then tdel t k else tput t k v

/-- Every key of `t` is above `k`, the keys rise, and no listed value is the default. -/
def twfFrom {α : Type} [DecidableEq α] (d : Nat → α) : Nat → Table α → Bool
  | _, [] => true
  | lo, (j, v) :: t => decide (lo ≤ j) && !decide (v = d j) && twfFrom d (j + 1) t

/-- The canonical form. -/
def twf {α : Type} [DecidableEq α] (d : Nat → α) (t : Table α) : Bool := twfFrom d 0 t

/-- The keys a table lists. -/
def tkeys {α : Type} (t : Table α) : List Nat := t.map (·.1)

/-- Whether a key is listed. -/
def thas {α : Type} (t : Table α) (k : Nat) : Bool := t.any (fun e => e.1 == k)

end Sys2Proof.Machine
end

