-- ==== Sys2Proof/Machine/Operands.lean ====
section
/-! DEFINITION. Registers and their fields: where an instance's registers lie, what a register reads as after reset, how
a field is read and written in the live values and in the shadows (R498 to R503), and the register units the chapters use
(half and quarter decibels, signed fields). -/
namespace Sys2Proof.Machine
open Sys2Proof

/-! ### Instances -/

/-- Byte offset of port `p`'s registers (R50). -/
def lpO (p : Nat) : Nat := 0x100 * p
/-- Byte offset of chain `c`'s registers (R77). -/
def fcO (c : Nat) : Nat := 0x80 * c
/-- Byte offset of receiver `r`'s registers, line or radio (R80, R109). -/
def rxO (r : Nat) : Nat := if r < 576 then 0x100 * r else 0x060000 + 0x100 * (r - 576)
/-- Byte offset of the blanker registers of line strand `r` and of the per-port MNS registers (R179). -/
def mnO (k : Nat) : Nat := 0x10 * k
/-- Byte offset of a mains set's registers (R178). -/
def setO (a : Nat) : Nat := 0x40 * a
/-- Byte offset of word `k`. -/
def wO (k : Nat) : Nat := 4 * k

/-! ### The register map -/

/-- The row of the map that covers address `a`. -/
def RegRow.covers (r : RegRow) (a : Nat) : Bool :=
  if a < r.base then false
  else
    let o := a - r.base
    let i := if r.s1 = 0 then 0 else if r.n1 ≤ o / r.s1 then r.n1 - 1 else o / r.s1
    let rest := o - i * r.s1
    if r.s2 = 0 then rest == 0 else (rest % r.s2 == 0 && decide (rest / r.s2 < r.n2))

/-- The row of address `a`, if a register occupies it (R498). -/
def regRow (a : Nat) : Option RegRow := (regionRows a).find? (fun r => r.covers a)

/-- What a register reads as after a reset, before the image (R508).  The values fused at manufacture come from
`Config`. -/
def resetWord (a : Nat) : Word :=
  if a = F.GLB_REVISION.addr then Config.revision
  else if a = F.GLB_SERIAL_LO.addr then Config.serial.setWidth 32
  else if a = F.GLB_SERIAL_HI.addr then (Config.serial >>> 32).setWidth 32
  else if F.LP_PGA_CAL.addr ≤ a ∧ a < 0x050000 ∧ a % 0x100 = F.LP_PGA_CAL.addr % 0x100 then
    (Config.pgaCal ((a - F.LP_PGA_CAL.addr) / 0x100)).setWidth 32
  else if a = F.CHK_CFG.addr then 0x32B#32   -- unit 0 is the NVM controller's (R358)
  else if a = F.CHK_STATUS.addr then 0x1000#32
  else match regRow a with
    | some r => r.reset
    | none => 0

/-- The bits `lo` to `hi`. -/
def bitsMask (hi lo : Nat) : Word := BitVec.ofNat 32 ((2 ^ (hi + 1 - lo) - 1) * 2 ^ lo)

/-- The bits of the fields of access code `c`. -/
def RegRow.mask (r : RegRow) (c : Acc) : Word :=
  r.fields.foldl (fun m f => if f.acc = c then m ||| bitsMask f.hi f.lo else m) 0

/-- The value of the field at bits `lo` to `hi` of a word. -/
def bitsOf (w : Word) (hi lo : Nat) : Nat := w.toNat / 2 ^ lo % 2 ^ (hi + 1 - lo)

/-- The word with the field at bits `lo` to `hi` replaced. -/
def setBits (w : Word) (hi lo : Nat) (v : Nat) : Word :=
  (w &&& ~~~ bitsMask hi lo) ||| (BitVec.ofNat 32 (v % 2 ^ (hi + 1 - lo) * 2 ^ lo))

/-- A field of `n` bits read as two's complement. -/
def signed (n v : Nat) : Int := if v < 2 ^ (n - 1) then (v : Int) else (v : Int) - 2 ^ n

/-- An integer as a two's-complement field of `n` bits, saturating. -/
def toSigned (n : Nat) (i : Int) : Nat :=
  let hi : Int := 2 ^ (n - 1) - 1
  let lo : Int := -2 ^ (n - 1)
  let c := if i > hi then hi else if i < lo then lo else i
  (if c < 0 then c + 2 ^ n else c).toNat

/-- Whether encoding `v` is listed in the field table (R17). -/
def RegField.isLegal (f : RegField) (v : Nat) : Bool :=
  f.legal.isEmpty || f.legal.any (fun r => decide (r.1 ≤ v) && decide (v ≤ r.2))

/-! ### Live values and shadows -/

/-- The live value of the register at `a`. -/
def State.live (s : State) (a : Nat) : Word := tget resetWord s.regs a

/-- The state with the live value of the register at `a` replaced. -/
def State.setLive (s : State) (a : Nat) (w : Word) : State := { s with regs := tset resetWord s.regs a w }

/-- The shadow of the register at `a` (R502). -/
def State.shad (s : State) (a : Nat) : Word := tget resetWord s.shadow a

/-- The state with the shadow of the register at `a` replaced. -/
def State.setShad (s : State) (a : Nat) (w : Word) : State := { s with shadow := tset resetWord s.shadow a w }

/-- The value in force of a field of the instance at offset `o`. -/
def State.get (s : State) (f : Fld) (o : Nat := 0) : Nat := bitsOf (s.live (f.addr + o)) f.hi f.lo

/-- The value in force of a signed field. -/
def State.getI (s : State) (f : Fld) (o : Nat := 0) : Int := signed (f.hi + 1 - f.lo) (s.get f o)

/-- Whether a one-bit field is 1. -/
def State.bit (s : State) (f : Fld) (o : Nat := 0) : Bool := s.get f o == 1

/-- The state with a field of the instance at offset `o` set. -/
def State.put (s : State) (f : Fld) (o : Nat) (v : Nat) : State :=
  s.setLive (f.addr + o) (setBits (s.live (f.addr + o)) f.hi f.lo v)

/-- The state with a signed field set, saturating. -/
def State.putI (s : State) (f : Fld) (o : Nat) (v : Int) : State := s.put f o (toSigned (f.hi + 1 - f.lo) v)

/-- The state with a one-bit field set or cleared. -/
def State.putB (s : State) (f : Fld) (o : Nat) (b : Bool) : State := s.put f o (if b then 1 else 0)

/-- The state with bit `n` of the instance's word set or cleared. -/
def State.putBit (s : State) (f : Fld) (o n : Nat) (b : Bool) : State :=
  s.setLive (f.addr + o) (setBits (s.live (f.addr + o)) n n (if b then 1 else 0))

/-- Bit `n` of the instance's word. -/
def State.bitAt (s : State) (f : Fld) (o n : Nat) : Bool := bitsOf (s.live (f.addr + o)) n n == 1

/-- The field of a written word. -/
def Fld.of (f : Fld) (w : Word) : Nat := bitsOf w f.hi f.lo

/-- Whether a one-bit field of a written word is 1. -/
def Fld.on (f : Fld) (w : Word) : Bool := f.of w == 1

/-- A counter that stops at its highest value. -/
def State.incSat (s : State) (f : Fld) (o : Nat := 0) (by' : Nat := 1) : State :=
  s.put f o (min (s.get f o + by') (2 ^ (f.hi + 1 - f.lo) - 1))

/-- A counter that wraps. -/
def State.incWrap (s : State) (f : Fld) (o : Nat := 0) (by' : Nat := 1) : State := s.put f o (s.get f o + by')

/-- A counter that goes down to 0. -/
def State.dec (s : State) (f : Fld) (o : Nat := 0) (by' : Nat := 1) : State := s.put f o (s.get f o - by')

/-- Writes a 64-bit stamp to a pair of registers, low word first. -/
def State.putTime (s : State) (f : Fld) (o t : Nat) : State :=
  (s.setLive (f.addr + o) (BitVec.ofNat 32 t)).setLive (f.addr + o + 4) (BitVec.ofNat 32 (t / 2 ^ 32))

/-- The 64-bit stamp of a pair of registers. -/
def State.getTime (s : State) (f : Fld) (o : Nat) : Nat :=
  (s.live (f.addr + o)).toNat + 2 ^ 32 * (s.live (f.addr + o + 4)).toNat

/-! ### Bytes -/

/-- The `k` bytes of `n`, least significant first. -/
def le (n k : Nat) : List Byte := (List.range k).map (fun j => BitVec.ofNat 8 (n / 256 ^ j))

/-- The number that little-endian bytes spell. -/
def ofLe : List Byte → Nat
  | [] => 0
  | b :: t => b.toNat + 256 * ofLe t

/-- The list brought to length `n` with zero bytes. -/
def padTo (n : Nat) (l : List Byte) : List Byte := (l ++ List.replicate (n - l.length) 0).take n

/-! ### Rational powers and decibels

Levels in decibels are compared exactly: `10 log10 x ≥ d` is `x ^ 10 ≥ 10 ^ d`, with no rounding of a logarithm. -/

/-- The largest `k` in `lo` to `lo + 2 ^ (n + 1) - 1` whose `ok k` holds, `lo` if none does; `ok` is downward
closed. -/
def searchMax (ok : Int → Bool) (lo : Int) : Nat → Int
  | 0 => if ok (lo + 1) then lo + 1 else lo
  | n + 1 => if ok (lo + 2 ^ (n + 1)) then searchMax ok (lo + 2 ^ (n + 1)) n else searchMax ok lo n

/-- Ten to a signed power. -/
def tenPow (i : Int) : Rat := if i < 0 then 1 / (10 ^ (-i).toNat) else 10 ^ i.toNat

/-- Whether `unit`-ths of a decibel of the power ratio `x` are at least `k`: `10 log10 x ≥ k / unit`. -/
def dbGe (x : Rat) (unit : Nat) (k : Int) : Bool := decide (x > 0) && decide (x ^ (10 * unit) ≥ tenPow k)

/-- Whether `10 log10 x` is at most `k / unit`. -/
def dbLe (x : Rat) (unit : Nat) (k : Int) : Bool := decide (x ≤ 0) || decide (x ^ (10 * unit) ≤ tenPow k)

/-- `10 log10 x` in units of `1/unit` dB, rounded to nearest (ties upwards), between -200 dB and +200 dB; -200 dB for a
power of 0 or less. -/
def dbRound (x : Rat) (unit : Nat) : Int :=
  searchMax (fun k => dbGe x (2 * unit) (2 * k - 1)) (-(200 * unit : Nat)) (Nat.log2 (400 * unit))

/-- The integer nearest to a rational, ties away from zero. -/
def roundAway (x : Rat) : Int := if x < 0 then -((-x + 1/2).floor) else (x + 1/2).floor

/-- A quarter decibel as a power ratio (log entry 25). -/
def quarterDb : Rat := 10592537251772889 / 10000000000000000

/-- A power ratio of `k` quarter decibels. -/
def qdbPow (k : Int) : Rat := if k < 0 then 1 / quarterDb ^ (-k).toNat else quarterDb ^ k.toNat

end Sys2Proof.Machine
end

