-- ==== Sys2Proof/Machine/Code.lean ====
section
/-! DEFINITION. The channel code of the frame: the header and its CRC-16 (R128 to R130), puncturing, interleaving and block
mode (R134 to R137), the Viterbi decoder (R139), and the FCS (R133). -/
namespace Sys2Proof.Machine
open Sys2Proof

/-- The bits of bytes in transmission order, each byte least significant bit first (R133). -/
def bitsOfBytes (l : List Byte) : List Bool := l.flatMap (fun b => (List.range 8).map (fun k => b.getLsbD k))

/-- The number that bits spell, least significant first. -/
def bitsNum : List Bool → Nat
  | [] => 0
  | b :: t => (if b then 1 else 0) + 2 * bitsNum t

/-- Bytes of a bit list, least significant bit first; `n` bytes. -/
def bytesOfBits (l : List Bool) : Nat → List Byte
  | 0 => []
  | n + 1 => BitVec.ofNat 8 (bitsNum (l.take 8)) :: bytesOfBits (l.drop 8) n

/-- One bit into the CRC-16 of R129. -/
def crc16Bit (crc : BitVec 16) (b : Bool) : BitVec 16 :=
  let fb := crc.msb != b
  if fb then (crc <<< 1) ^^^ 0x1021#16 else crc <<< 1

/-- The CRC-16 of bits in transmission order (R129). -/
def crc16 (l : List Bool) : BitVec 16 := l.foldl crc16Bit 0xFFFF#16

/-- The CRC-16 as it is sent, bit 15 first. -/
def crc16Sent (c : BitVec 16) : List Bool := (List.range 16).map (fun k => c.getMsbD k)

/-- One bit into a reflected CRC of polynomial `poly` (its bit-reversed form). -/
def crcRefBit (poly : BitVec 32) (crc : BitVec 32) (b : Bool) : BitVec 32 :=
  if crc.getLsbD 0 != b then (crc >>> 1) ^^^ poly else crc >>> 1

/-- The CRC-32 of IEEE 802.3 (R133). -/
def crc32 (l : List Byte) : BitVec 32 := ~~~ ((bitsOfBytes l).foldl (crcRefBit 0xEDB88320#32) 0xFFFFFFFF#32)

/-! ### The header -/

/-- The bit that a pair of coded bits carries (R128): the sign of v1·q1 − v2·q2, 0 for a sum of zero. -/
def repBits : List (Int × Nat) → List Bool
  | a :: b :: t => decide (0 < a.1 * a.2 - b.1 * b.2) :: repBits t
  | _ => []

/-- The fields of the header (R128). -/
def hdrOf (l : List Bool) : PhyHdr :=
  let f := fun lo n => bitsNum ((l.drop lo).take n)
  ⟨f 0 11, f 11 3, f 14 1, f 15 2, f 17 2, f 19 1 == 1, f 20 8⟩

/-- The header bits in transmission order. -/
def hdrBits (h : PhyHdr) : List Bool :=
  let b := fun v n => (List.range n).map (fun k => Nat.testBit v k)
  b h.length 11 ++ b h.rate 3 ++ b h.levels 1 ++ b h.coding 2 ++ b h.version 2 ++ [h.block]
    ++ b (if h.block then h.blockMap else 0) 8

/-- The header that 88 coded bits carry, and whether its CRC matches (R129). -/
def hdrDecode (l : List (Int × Nat)) : PhyHdr × Bool :=
  let bits := repBits (l.take 88)
  (hdrOf bits, decide (bits.drop 28 = crc16Sent (crc16 (bits.take 28))))

/-! ### Puncturing and interleaving -/

/-- The puncture patterns of R134: which of a and b are sent at information bit `i`. -/
def kept (coding i : Nat) : Bool × Bool :=
  if coding = 1 then (i % 2 == 0, true)
  else if coding = 2 then (i % 3 != 1, i % 3 != 2)
  else (true, true)

/-- The number of coded bits of `k` information bits (R134). -/
def codedLen (k coding : Nat) : Nat :=
  (List.range k).foldl (fun n i =>
    let p := kept coding i
    n + (if p.1 then 1 else 0) + (if p.2 then 1 else 0)) 0

/-- The padded length of a body of `k` information bits (R134). -/
def paddedLen (k coding : Nat) : Nat := (codedLen k coding + 7) / 8 * 8

/-- The block length S (R136). -/
def blockLen (n : Nat) : Nat := (n + 7) / 8

/-- The blocks that a frame carries, in ascending order (R136). -/
def PhyHdr.blocks (h : PhyHdr) : List Nat := (List.range 8).filter (fun b => Nat.testBit h.blockMap b)

/-- Information bits of one unit of decoding: the whole MPDU, or one block with its CRC-16 (R134, R136). -/
def PhyHdr.unitBits (h : PhyHdr) : Nat := if h.block then 8 * blockLen h.length + 22 else 8 * h.length + 6

/-- The coded bits that the header implies behind itself (R130, R134, R136). -/
def PhyHdr.bodyLen (h : PhyHdr) : Nat :=
  paddedLen h.unitBits h.coding * (if h.block then h.blocks.length else 1)

/-- The transmitted bits of one unit back in coded order (R135): transmitted bit j carries coded bit
(j mod 8) × R + floor (j/8). -/
def deinterleave (l : List (Int × Nat)) : List (Int × Nat) :=
  let r := l.length / 8
  (List.range l.length).map (fun i => l.getD (i % r * 8 + i / r) (0, 0))

/-- The pair of values of each branch, an erasure in every punctured place (R139). -/
def depuncture (coding : Nat) : Nat → Nat → List (Int × Nat) → List (Int × Nat)
  | _, 0, _ => []
  | i, k + 1, l =>
    let p := kept coding i
    let a := if p.1 then l.headD (0, 0) else (0, 0)
    let l' := if p.1 then l.tail else l
    let b := if p.2 then l'.headD (0, 0) else (0, 0)
    let l'' := if p.2 then l'.tail else l'
    a :: b :: depuncture coding (i + 1) k l''

/-- One unit of transmitted bits, de-interleaved, without pad positions, with erasures inserted (R139). -/
def unitVals (h : PhyHdr) (l : List (Int × Nat)) : List (Int × Nat) :=
  depuncture h.coding 0 h.unitBits (deinterleave l)

/-- More than half of the coded bits of a unit, pad positions left out, are erased (R140). -/
def unitErased (h : PhyHdr) (l : List (Int × Nat)) : Bool :=
  let n := codedLen h.unitBits h.coding
  let e := ((deinterleave l).take n).countP (fun v => v.2 == 0)
  decide (n < 2 * e)

/-! ### The encoder -/

/-- The two coded bits of one information bit, and the next state (R134). -/
def encBit (state : Nat) (u : Bool) : Bool × Bool × Nat :=
  let reg := (if u then 64 else 0) + state
  let par := fun m => (List.range 7).foldl (fun p k => p != (Nat.testBit reg k && Nat.testBit m k)) false
  (par 0b1111001, par 0b1011011, reg / 2)

/-- The coded bits of information bits from `state` on, punctured (R134). -/
def encode (coding : Nat) : Nat → Nat → List Bool → List Bool
  | _, _, [] => []
  | i, st, u :: t =>
    let e := encBit st u
    let p := kept coding i
    (if p.1 then [e.1] else []) ++ (if p.2 then [e.2.1] else []) ++ encode coding (i + 1) e.2.2 t

/-- The interleaver of R135. -/
def interleave (l : List Bool) : List Bool :=
  let r := l.length / 8
  (List.range l.length).map (fun j => l.getD (j % 8 * r + j / 8) false)

/-- One unit as it is sent: encoded from state 0, padded and interleaved (R134 to R136). -/
def unitSent (coding : Nat) (info : List Bool) : List Bool :=
  let c := encode coding 0 0 (info ++ List.replicate 6 false)
  interleave (c ++ List.replicate ((c.length + 7) / 8 * 8 - c.length) false)

/-! ### The Viterbi decoder -/

/-- A survivor: its metric and its last decisions, newest first; no path has reached the state when `none`. -/
abbrev Survivor := Option (Int × List Bool)

/-- One trellis step over the two values of a branch (R139): of the two paths into each state the one of greater metric
survives, and a tie goes as `Config.viterbiTie` says. -/
def viterbiStep (step : Nat) (a b : Int × Nat) (sv : List Survivor) : List Survivor :=
  let term := fun (x : Bool) (v : Int × Nat) => (if x then v.1 else -v.1) * v.2
  (List.range 64).map (fun st =>
    -- the new state is reg >> 1, so its bit 5 is the information bit
    let u := Nat.testBit st 5
    let from' := fun (low : Nat) =>
      let p := st % 32 * 2 + low
      match sv.getD p none with
      | none => none
      | some (m, bits) =>
        let e := encBit p u
        some (m + term e.1 a + term e.2.1 b, u :: bits)
    match from' 0, from' 1 with
    | none, y => y
    | x, none => x
    | some x, some y =>
      if x.1 > y.1 then some x else if y.1 > x.1 then some y
      else if Config.viterbiTie step st then some y else some x)

/-- The survivor of greatest metric, the lowest state among equals. -/
def bestSurvivor (sv : List Survivor) : List Bool :=
  ((sv.foldl (fun (b : Survivor) x => match b, x with
    | some p, some q => if q.1 > p.1 then some q else some p
    | none, q => q
    | p, none => p) none).map (·.2)).getD []

/-- The steps of the decoder (R139): with a traceback depth of 64, the bit 64 steps back on the best path is decided at
each step; the survivors then hold the 64 newest decisions. -/
def viterbiRun : Nat → List Survivor → List Bool → List (Int × Nat) → List Survivor × List Bool
  | step, sv, out, a :: b :: t =>
    let sv' := viterbiStep step a b sv
    if 64 < step + 1 then
      let bit := (bestSurvivor sv').getD 64 false
      viterbiRun (step + 1) (sv'.map (fun x => x.map (fun p => (p.1, p.2.take 64)))) (bit :: out) t
    else viterbiRun (step + 1) sv' out t
  | _, sv, out, _ => (sv, out)

/-- The information bits of a unit (R139): the trellis ends in state 0, and the 6 tail bits are dropped. -/
def viterbi (l : List (Int × Nat)) : List Bool :=
  let r := viterbiRun 0 (some (0, []) :: List.replicate 63 none) [] l
  let last := match r.1.head? with
    | some (some p) => p.2
    | _ => []
  let bits := r.2.reverse ++ last.reverse
  bits.take (bits.length - 6)

/-! ### The MAC frame -/

/-- The FCS of an MPDU is right (R133). -/
def fcsGood (m : List Byte) : Bool :=
  decide (4 ≤ m.length) && decide (m.drop (m.length - 4) = le (crc32 (m.take (m.length - 4))).toNat 4)

/-- The MAC header (R131). -/
structure Mac where
  ftype : Nat
  secured : Bool
  dir : Bool
  routed : Bool
  dest : Nat
  src : Nat
  counter : Nat
  epoch4 : Nat
  purpose : Nat
  deriving DecidableEq, Repr

/-- The MAC header of an MPDU. -/
def macOf (m : List Byte) : Mac :=
  let b := fun k n => ofLe ((m.drop k).take n)
  ⟨b 0 1 % 16, Nat.testBit (b 0 1) 4, Nat.testBit (b 0 1) 5, Nat.testBit (b 0 1) 6, b 1 2, b 3 2, b 5 4, b 9 1 % 16,
    b 9 1 / 16 % 4⟩

/-- The MAC header as bytes. -/
def macBytes (h : Mac) : List Byte :=
  le (h.ftype + (if h.secured then 16 else 0) + (if h.dir then 32 else 0) + (if h.routed then 64 else 0)) 1
    ++ le h.dest 2 ++ le h.src 2 ++ le h.counter 4 ++ le (h.epoch4 % 16 + 16 * (h.purpose % 4)) 1

/-- The payload of an MPDU: without MAC header, MIC and FCS (R133). -/
def payloadOf (m : List Byte) : List Byte :=
  let tail := if (macOf m).secured then 12 else 4
  (m.take (m.length - tail)).drop 10

end Sys2Proof.Machine
end

