-- ==== Sys2Proof/Machine/Flags.lean ====
section
/-! DEFINITION. What a happening sets outside its own block: the event latches and the delivery of an event (R425 to
R428), records bound for the head-end (R239), the trouble log (R489 to R493), the CSR write log (R423), replace requests
(R484 to R488), the start of a belay job (R430, R433) and writes of the Vault (R336). -/
namespace Sys2Proof.Machine
open Sys2Proof

/-- Ticks per microsecond times 10 (the time base runs at 38.4 MHz, R4). -/
def usTicks (us : Nat) : Nat := us * 384 / 10

/-- The least number of ticks that lasts `us` microseconds. -/
def usTicksUp (us : Nat) : Nat := (us * 384 + 9) / 10
/-- Ticks per millisecond. -/
def msTicks (ms : Nat) : Nat := ms * 38400
/-- Ticks per second. -/
def sTicks (x : Nat) : Nat := x * 38400000

/-- The number of bits set below bit `n`. -/
def popCount (w : Word) : Nat → Nat
  | 0 => 0
  | n + 1 => (if w.getLsbD n then 1 else 0) + popCount w n

/-! ### Instance accessors -/

/-- Port `p` beside its registers. -/
def State.port (s : State) (p : Nat) : PortS := tget (fun _ => PortS.init) s.ports p
/-- The state with what start-up, clocks and supply hold changed by `f`. -/
def State.onUp (s : State) (f : UpS → UpS) : State := { s with up := f s.up }

/-- The state with port `p` changed by `f`. -/
def State.onPort (s : State) (p : Nat) (f : PortS → PortS) : State :=
  { s with ports := tset (fun _ => PortS.init) s.ports p (f (s.port p)) }
/-- Chain `c` beside its registers. -/
def State.chain (s : State) (c : Nat) : ChainS := tget (fun _ => ChainS.init) s.chains c
/-- The state with chain `c` changed by `f`. -/
def State.onChain (s : State) (c : Nat) (f : ChainS → ChainS) : State :=
  { s with chains := tset (fun _ => ChainS.init) s.chains c (f (s.chain c)) }
/-- Receiver `r` beside its registers. -/
def State.rx (s : State) (r : Nat) : RxS := tget (fun _ => RxS.init) s.rxs r
/-- The state with receiver `r` changed by `f`. -/
def State.onRx (s : State) (r : Nat) (f : RxS → RxS) : State :=
  { s with rxs := tset (fun _ => RxS.init) s.rxs r (f (s.rx r)) }
/-- Mains set `a` beside its registers. -/
def State.mset (s : State) (a : Nat) : SetS := tget (fun _ => SetS.init) s.sets a
/-- The state with mains set `a` changed by `f`. -/
def State.onSet (s : State) (a : Nat) (f : SetS → SetS) : State :=
  { s with sets := tset (fun _ => SetS.init) s.sets a (f (s.mset a)) }
/-- Job slot `k` beside its registers. -/
def State.job (s : State) (k : Nat) : JobS := tget (fun _ => JobS.init) s.jobs k
/-- The state with job slot `k` changed by `f`. -/
def State.onJob (s : State) (k : Nat) (f : JobS → JobS) : State :=
  { s with jobs := tset (fun _ => JobS.init) s.jobs k (f (s.job k)) }
/-- A byte of the Vault; it reads 0 throughout at delivery (R335). -/
def State.vaultByte (s : State) (a : Nat) : Byte := tget (fun _ => 0) s.vault a
/-- `n` bytes of the Vault as a little-endian number. -/
def State.vaultNum (s : State) (a n : Nat) : Nat := ofLe ((List.range n).map (fun j => s.vaultByte (a + j)))
/-- The Vault with bytes stored from address `a`. -/
def vaultStore (v : Table Byte) (a : Nat) : List Byte → Table Byte
  | [] => v
  | b :: t => vaultStore (tset (fun _ => 0) v a b) (a + 1) t

/-- The next free value of `w` bits (log entry 2), and the state that has used it. -/
def State.draw (s : State) (w : Nat) : BitVec w × State := (Config.free w s.free, { s with free := s.free + 1 })

/-! ### Marks -/

/-- Self-test target `t` is marked out of service (R472, R482). -/
def State.marked (s : State) (t : Nat) : Bool := (s.get F.BST_MARKED_TARGETS).testBit t

/-- The core that carries the role of core `r` (R24, R25). -/
def State.coreOf (s : State) (r : Nat) : Nat := s.up.roles.getD r r

/-- Where the role of a lost core `c` moves, with the cores of `out` out of service: to core 0, and from core 0 to core 3 (R25).  When
that core is out too, the lowest core in service takes the role, and with none it stays where it was (log entry 105). -/
def roleTo (out c : Nat) : Nat :=
  let d := if c = 0 then 3 else 0
  if out.testBit d then ((List.range 4).find? (fun x => !out.testBit x)).getD c else d

/-- The roles that core `c` carries. -/
def State.rolesOn (s : State) (c : Nat) : List Nat := (List.range 4).filter (fun r => s.coreOf r == c)

/-- Core `c` leaves service: every role that it carries moves (R25). -/
def State.roleMove (s : State) (c : Nat) : State :=
  let out := s.up.coresOut ||| 2 ^ c
  s.onUp (fun u => { u with coresOut := out, roles := u.roles.map (fun x => if x = c then roleTo out c else x) })

/-- Work of role `r` waits for another role of its core: a core with two roles serves them in the order of the table of R24 (R25).  The
only work of a role that waits in State is the supervisor's, a queued command (log entry 105). -/
def State.roleWaits (s : State) (r : Nat) : Bool := r != 0 && s.coreOf r == s.coreOf 0 && !s.cmdQ.isEmpty

/-- Two Capstan cores are lost (R25). -/
def State.twoCoresLost (s : State) : Bool := decide (2 ≤ ((List.range 4).filter (fun c => s.up.coresOut.testBit c)).length)

/-! ### Mains bins and the phase stamp -/

/-- The bin of set `a` at tick `t` (R156): 0 while the set is UNLOCKED, bin 127 after the nominal end of a cycle.  A tick before the
present cycle lies in a bin of the cycle that holds it: one that an L1+ crossing opened, or, in COASTING, one of the present
period. -/
def State.binAt (s : State) (a t : Nat) : Nat :=
  let m := s.mset a
  let st := s.get F.MNS_SET_STAT_STATE (setO a)
  if st = 0 ∨ m.cycleP = 0 then 0
  else if m.cycleZ ≤ t then min 127 ((t - m.cycleZ) * 128 / m.cycleP)
  else match st, m.crossed.filter (fun c => c.1 == 0 && decide (c.2 ≤ t)) with
    | 1, z :: z' :: _ => min 127 ((t - z.2) * 128 / (z.2 - z'.2))
    | _, _ =>
      let back := (m.cycleZ - t + m.cycleP - 1) / m.cycleP * m.cycleP
      (t + back - m.cycleZ) * 128 / m.cycleP

/-- The mains set of port `p` (R6). -/
def State.setOf (s : State) (p : Nat) : Nat := s.get F.LP_CFG_MAINS_SET (lpO p)

/-- The `PHASE` word of a log entry (R490), for the set `a`. -/
def State.phaseStamp (s : State) (a : Nat) : Nat :=
  s.binAt a s.tick + 0x100 * a + (if s.get F.MNS_SET_STAT_STATE (setO a) = 0 then 0 else 0x8000)

/-! ### Vault writes -/

/-- A Vault write is a counter reservation. -/
def VaultWrite.isReserve (w : VaultWrite) : Bool :=
  match w.why with
  | .reserve _ _ _ => true
  | _ => false

/-- Where a reservation joins the waiting writes: before those that are no reservation, but behind every write of a word it
writes too (R27). -/
def vaultInsert (w : VaultWrite) : List VaultWrite → List VaultWrite
  | [] => [w]
  | h :: t =>
    let clash := fun (x : VaultWrite) => decide (x.addr < w.addr + w.bytes.length) && decide (w.addr < x.addr + x.bytes.length)
    if h.isReserve || clash h || t.any clash then h :: vaultInsert w t else w :: h :: t

/-- Queues a Vault write.  Counter reservations go before any other write (R27); the write at the head is in progress and is
not overtaken. -/
def State.vaultWrite (s : State) (addr : Nat) (bytes : List Byte) (why : VaultFor := .plain) : State :=
  let w : VaultWrite := ⟨addr, bytes, why, false⟩
  if !w.isReserve then { s with vaultq := s.vaultq ++ [w] }
  else
    match s.vaultq with
    | [] => { s with vaultq := [w] }
    | h :: t => { s with vaultq := h :: vaultInsert w t }

/-- The byte that the Vault will hold once the waiting writes are done. -/
def State.vaultSoon (s : State) (a : Nat) : Byte :=
  match s.vaultq.reverse.findSome? (fun w => if w.addr ≤ a then w.bytes[a - w.addr]? else none) with
  | some b => b
  | none => s.vaultByte a

/-- `n` bytes as the Vault will hold them, as a little-endian number. -/
def State.vaultSoonNum (s : State) (a n : Nat) : Nat := ofLe ((List.range n).map (fun j => s.vaultSoon (a + j)))

/-! ### The trouble log -/

/-- Whether log index `k` lies in a marked segment of 512 entries (R483, R489). -/
def State.logMarked (s : State) (k : Nat) : Bool := (s.vaultSoonNum 0x100818 2).testBit (k / 512)

/-- The first ring index at or after `k`, wrapping at 7,936, that lies in no marked segment. -/
def State.logNext (s : State) : Nat → Nat → Option Nat
  | _, 0 => none
  | k, n + 1 =>
    let k' := if 7936 ≤ k then 0 else k
    if s.logMarked k' then s.logNext ((k' / 512 + 1) * 512) n else some k'

/-- An entry of the log memory that has not been written. -/
def LogEntry.init : LogEntry := ⟨0, 0, 0, 0, 0, 0, [], true⟩

/-- The log entry at index `k`. -/
def State.logAt (s : State) (k : Nat) : LogEntry := tget (fun _ => LogEntry.init) s.log k

/-- Copies a critical entry into the protected region (R492).  The flag says that EV253 falls due. -/
def State.logProtect (s : State) (e : LogEntry) : State × Bool :=
  let n := s.get F.LOG_PROT_STAT_COUNT
  if s.logMarked 7936 then (s, false)
  else if n < 256 then
    let s := { s with log := tset (fun _ => LogEntry.init) s.log (7936 + n) e }
    let s := s.put F.LOG_PROT_STAT_COUNT 0 (n + 1)
    (s.putB F.LOG_PROT_STAT_FULL 0 (n + 1 == 256), false)
  else
    let s' := s.incSat F.LOG_LOST_PROT_LOST
    ({ s' with protArmed := false }, s.protArmed)

/-- Writes one entry to the ring (R489, R493) and, when it is critical, to the protected region.  The flag says that
EV253 falls due. -/
def State.logPut (s : State) (source code severity iface set : Nat) (data : List Byte) (time : Nat) : State × Bool :=
  match s.logNext (s.get F.LOG_STAT_HEAD) 34 with
  | none => (s, false)
  | some k =>
    let e : LogEntry := ⟨time, s.phaseStamp set, source, code, severity, iface, padTo 16 data, false⟩
    let old := s.logAt k
    let s := if thas s.log k && !old.exported
      then (s.incSat F.LOG_LOST_OVERWRITTEN).dec F.LOG_STAT_UNEXPORTED else s
    let s := { s with log := tset (fun _ => LogEntry.init) s.log k e }
    let s := (s.put F.LOG_STAT_HEAD 0 (if k + 1 = 7936 then 0 else k + 1)).incSat F.LOG_STAT_UNEXPORTED
    if severity = 0 then s.logProtect e else (s, false)

/-! ### Records -/

/-- A record joins the output queue with its spool class (R239, step 3). -/
def State.emit (s : State) (cls rtype session : Nat) (body : List Byte) (logIdx : List Nat := []) : State :=
  { s with outq := s.outq ++ [⟨cls, rtype, session, s.tick, body, logIdx, 0, 0, 0⟩] }

/-! ### Events -/

/-- The priority class of event `e` (R425). -/
def State.evClass (s : State) (e : Nat) : Nat :=
  bitsOf (s.live (0x010040 + 4 * (e / 16))) (2 * (e % 16) + 1) (2 * (e % 16))

/-- Whether event `e` is enabled. -/
def State.evOn (s : State) (e : Nat) : Bool := (s.live (0x010020 + 4 * (e / 32))).getLsbD (e % 32)

/-- Whether the latch of event `e` is set. -/
def State.evLatched (s : State) (e : Nat) : Bool := (s.live (0x010000 + 4 * (e / 32))).getLsbD (e % 32)

/-- The address of the source register of event `e`. -/
def evSrcAddr (e : Nat) : Option Nat :=
  (evSrcRanges.find? (fun r => decide (r.1 ≤ e) && decide (e ≤ r.2.1))).map (fun r => r.2.2 + 4 * (e - r.1))

/-- The source word of event `e` as an EVENT record carries it (R411). -/
def State.evSrc (s : State) (e : Nat) : Nat :=
  match evSrcAddr e with
  | some a => (s.live a).toNat % 65536
  | none => 0

/-- The body of an EVENT record (R411): `n` raisings, the first and the last tick. -/
def State.eventBody (s : State) (e n first last : Nat) : List Byte :=
  le e 2 ++ le (s.evClass e) 1 ++ [0] ++ le (min n 65535) 2 ++ le (s.evSrc e) 2 ++ le first 8 ++ le last 8

/-- Creates the EVENT record (R427) and the log entry (R428) of `n` raisings of event `e`.  `own` says that the raising
block has written its own log entry.  The flag says that EV253 falls due. -/
def State.deliver (s : State) (e n first last : Nat) (own : Bool) : State × Bool :=
  let k := s.evClass e
  let body := s.eventBody e n first last
  let s := if (s.get F.EVC_ROUTE_HAL_CLASSES).testBit k then s.emit (if k < 2 then 0 else 4) 0x02 0 body else s
  if (s.get F.EVC_ROUTE_LOG_CLASSES).testBit k && !own
  then s.logPut e 0 k 4 0 ((body.drop 4).take 16) last
  else (s, false)

/-- A raising of event `e` with the source `src`, without what the log entry itself may raise: the latch, `EVC_LAST`,
the source register, and the delivery under the limit of R427. -/
def State.raise0 (s : State) (e src : Nat) (own : Bool := false) : State × Bool :=
  let a := 0x010000 + 4 * (e / 32)
  let s := s.setLive a (s.live a ||| bitsMask (e % 32) (e % 32))
  let s := (s.put F.EVC_LAST_EVENT 0 e).incWrap F.EVC_LAST_RAISES
  let s := (s.setLive F.EVC_LAST_TIME_LO.addr (BitVec.ofNat 32 s.tick)).setLive F.EVC_LAST_TIME_HI.addr
    (BitVec.ofNat 32 (s.tick / 2 ^ 32))
  let s := match evSrcAddr e with
    | some r => s.setLive r (BitVec.ofNat 32 src)
    | none => s
  if !s.evOn e then (s, false)
  else
    let r := tget (fun _ => (⟨none, 0, 0, 0⟩ : EvRate)) s.rates e
    let lim := msTicks (s.get F.EVC_RATE_RATE_MS)
    let free := lim == 0 || match r.last with | none => true | some t => decide (t + lim ≤ s.tick) && r.counted == 0
    if free then
      let s := { s with rates := tset (fun _ => ⟨none, 0, 0, 0⟩) s.rates e ⟨some s.tick, 0, 0, 0⟩ }
      s.deliver e 1 s.tick s.tick own
    else
      let r' : EvRate := ⟨r.last, r.counted + 1, if r.counted = 0 then s.tick else r.firstTick, s.tick⟩
      ({ s with rates := tset (fun _ => ⟨none, 0, 0, 0⟩) s.rates e r' }, false)

/-! ### Starting a belay job -/

/-- The offset of job slot `k`'s registers (R442). -/
def blyO (k : Nat) : Nat := 0x20 * k

/-- The state code of job slot `k` (R433). -/
def State.jobState (s : State) (k : Nat) : Nat := s.get F.BLY_SLOT_STAT_STATE (blyO k)

/-- Whether slot `k` holds a job that has not ended. -/
def State.jobLive (s : State) (k : Nat) : Bool := decide (1 ≤ s.jobState k) && decide (s.jobState k ≤ 4)

/-- The JOB_STATUS record of slot `k` (R411, R433). -/
def State.jobStatus (s : State) (k : Nat) : State :=
  let o := blyO k
  s.emit 4 0x06 0 (le k 1 ++ le (s.get F.BLY_SLOT_STAT_KIND o) 1 ++ le (s.get F.BLY_SLOT_STAT_STATE o) 1
    ++ le (s.get F.BLY_SLOT_STAT_RESULT o) 1 ++ le (s.get F.BLY_SLOT_ID o) 4 ++ le (s.get F.BLY_SLOT_DONE o) 4
    ++ le (s.get F.BLY_SLOT_TOTAL o) 4
    ++ (List.range 4).flatMap (fun j => le (s.get F.BLY_SLOT_DATA (o + 4 * j)) 4))

/-- The lowest slot of `lo` to `lo + n - 1` that is free or in a final state. -/
def State.freeSlot (s : State) (lo n : Nat) : Option Nat :=
  ((List.range n).map (· + lo)).find? (fun k => !s.jobLive k)

/-- What a LOG_EXPORT job covers (R434, R493): its first index and its number of entries.  The module's own starts at the
oldest unexported entry; the others at `PARAM1`; all end at the newest entry present. -/
def State.logSpan (s : State) (own : Bool) (params : List Nat) : Nat × Nat :=
  let head := s.get F.LOG_STAT_HEAD
  let span := fun (k : Nat) => (k, if k = head then 7936 else (head + 7936 - k) % 7936)
  if own then
    match ((List.range 7936).map (fun j => (head + j) % 7936)).find? (fun k => thas s.log k && !(s.logAt k).exported) with
    | some k => span k
    | none => (head, 0)
  else if (params.getD 0 0).testBit 0 then
    let k := max 7936 (params.getD 1 0)
    (k, 7936 + s.get F.LOG_PROT_STAT_COUNT - k)
  else span (params.getD 1 0 % 7936)

/-- Starts a job in the lowest free slot of its range (R430): slots 12 to 15 for the module's own jobs, 0 to 11 for
others.  `total` is the number of its steps.  Answers no slot when none is free; the caller raises EV249. -/
def State.jobStart (s : State) (kind prio origin cmdId : Nat) (params : List Nat) (total : Nat) (own : Bool) :
    State × Option Nat :=
  match (if own then s.freeSlot 12 4 else s.freeSlot 0 12) with
  | none => (s, none)
  | some k =>
    let o := blyO k
    -- only one NVM job runs at a time (R435)
    let busy := kind == 8 && (List.range 16).any (fun j => s.jobLive j && s.get F.BLY_SLOT_STAT_KIND (blyO j) == 8)
    let s := s.setLive (F.BLY_SLOT_STAT.addr + o) 0
    let s := (((s.put F.BLY_SLOT_STAT_STATE o (if busy then 3 else 2)).put F.BLY_SLOT_STAT_KIND o kind).put
      F.BLY_SLOT_STAT_PRIORITY o prio).put F.BLY_SLOT_STAT_ORIGIN o origin
    let s := ((s.put F.BLY_SLOT_DONE o 0).put F.BLY_SLOT_TOTAL o total).put F.BLY_SLOT_ID o cmdId
    let s := (List.range 4).foldl (fun s j => s.put F.BLY_SLOT_DATA (o + 4 * j) 0) s
    let span := if kind = 5 then s.logSpan own params else (0, 0)
    let s := s.onJob k (fun _ => ⟨params, span.1, s.tick, s.tick + sTicks (s.get F.BLY_CFG_STATUS_S), false, span.2, 0⟩)
    let s := s.incWrap F.BLY_CNT_JOBS
    (s.jobStatus k, some k)

/-! ### Raising an event -/

/-- What the log may owe after an entry: EV253 when a critical entry met the protected region full, and EV252, with an
export job, when the unexported count reaches its level (R492, R493). -/
def State.logDues (s : State) (protDue : Bool) : State :=
  let s := if protDue then (s.raise0 Ev.LOG_PROTECTED_FULL 0).1 else s
  let n := s.get F.LOG_STAT_UNEXPORTED
  let high := decide (s.get F.LOG_CFG_NEAR_FULL * 7936 ≤ 100 * n)
  if high && s.nearArmed then
    let s := { s with nearArmed := false }
    let s := (s.raise0 Ev.LOG_NEAR_FULL n).1
    if s.bit F.LOG_CFG_AUTO_EXPORT then
      let (s, k) := s.jobStart 5 0 4 0 [0, 0] (((s.logSpan true []).2 + 31) / 32) true
      match k with
      | some _ => s
      | none => (s.raise0 Ev.BLY_SLOTS_FULL 0).1
    else s
  else if high then s else { s with nearArmed := true }

/-- A raising of event `e` with the source `src` (R425 to R428). -/
def State.raise (s : State) (e src : Nat) : State :=
  let r := s.raise0 e src
  r.1.logDues r.2

/-- A raising of event `e` whose block writes its own log entry (R428, R491): code `code`, the mains set `set` of the
port the entry names, and `data`. -/
def State.raiseLogged (s : State) (e src code set : Nat) (data : List Byte) : State :=
  let l := s.logPut e code (s.evClass e) 4 set data s.tick
  let r := l.1.raise0 e src true
  r.1.logDues (l.2 || r.2)

/-- A log entry that belongs to no event. -/
def State.logEntry (s : State) (source code severity iface : Nat) (data : List Byte) (time : Nat) : State :=
  let r := s.logPut source code severity iface 0 data time
  r.1.logDues r.2

/-- An event raised when a condition holds. -/
def State.raiseIf (s : State) (c : Bool) (e src : Nat) : State := if c then s.raise e src else s

/-! ### The CSR write log -/

/-- The registers whose writes are logged with value 0 (R423). -/
def secretReg (a : Nat) : Bool :=
  (decide (0x110040 ≤ a) && decide (a < 0x110060)) || (decide (0x110140 ≤ a) && decide (a < 0x110160))
    || (decide (0x130100 ≤ a) && decide (a < 0x130200) && decide (0x20 ≤ (a - 0x130100) % 0x80)
        && decide ((a - 0x130100) % 0x80 < 0x4C))

/-- Writes an open entry to the trouble log (R423). -/
def State.wlogClose (s : State) (e : WriteLog) : State :=
  let s := s.incWrap F.MGT_WLOG_STAT_WRITTEN
  s.logEntry 0x0100 1 3 e.iface (le e.addr 3 ++ [0] ++ le e.first.toNat 4 ++ le e.lastVal.toNat 4
    ++ le (min e.count 65535) 2 ++ [0, 0]) e.tick

/-- A CSR write from interface `i` reaches the write log (R423): it merges into the open entry of its address and
interface, or opens one, which may close the oldest. -/
def State.wlogNote (s : State) (i : Iface) (a : Nat) (w : Word) : State :=
  if i = .module then s
  else
    let w := if secretReg a then 0 else w
    let same := fun (e : WriteLog) => e.iface == i.id && e.addr == a && decide (s.tick < e.tick + sTicks 1)
    if s.wlog.any same then
      { s with wlog := s.wlog.map (fun e => if same e then { e with lastVal := w, count := e.count + 1 } else e) }
    else
      let s := match s.wlog with
        | e :: t => if 16 ≤ s.wlog.length then ({ s with wlog := t }).wlogClose e else s
        | [] => s
      let s := { s with wlog := s.wlog ++ [(⟨i.id, a, w, w, 1, s.tick⟩ : WriteLog)] }
      s.put F.MGT_WLOG_STAT_OPEN 0 s.wlog.length

/-! ### Replace requests -/

/-- The body of a REPLACE_REQUEST record (R411). -/
def State.replaceBody (s : State) : List Byte :=
  le (s.get F.BST_REPLACE_STAT_REASONS) 4 ++ le (s.get F.BST_REPLACE_STAT_REPEATS) 2 ++ [0, 0] ++ le s.firstTick 8

/-- Stores `REASONS` and `ACKED` in the Vault (R485). -/
def State.storeReasons (s : State) : State :=
  s.vaultWrite 0x100800 (le (s.get F.BST_REPLACE_STAT_REASONS) 4 ++ le (s.get F.BST_REPLACE_ACKED_ACKED) 4)

/-- Sends the REPLACE_REQUEST record and writes its log entry (R486, R491). -/
def State.sendReplace (s : State) : State :=
  let s := s.emit 0 0x07 0 s.replaceBody
  s.logEntry 0x0102 1 0 4 (le (s.get F.BST_REPLACE_STAT_REASONS) 4 ++ le (s.get F.BST_REPLACE_ACKED_ACKED) 4) s.tick

/-- Reason bit `b` sets (R486); a bit already set changes nothing. -/
def State.setReason (s : State) (b : Nat) : State :=
  let old := s.get F.BST_REPLACE_STAT_REASONS
  if old.testBit b then s
  else
    let s := if old = 0 then
        ({ s with firstTick := s.tick, repeatAt := s.tick }.put F.BST_REPLACE_STAT_REPEATS 0 0).vaultWrite 0x100808
          (le s.tick 8)
      else s
    let s := s.put F.BST_REPLACE_STAT_REASONS 0 (old + 2 ^ b)
    let s := s.putBit F.BST_REPLACE_ACKED 0 b false
    let s := (s.putB F.BST_REPLACE_STAT_SERVICE 0 true).storeReasons
    let s := { s with repeatAt := s.tick }
    (s.raise Ev.SERVICE_REQUEST b).sendReplace

/-- Reason bit `b` clears, with its `ACKED` bit (R484, R486); the episode ends when no bit is left. -/
def State.clearReason (s : State) (b : Nat) : State :=
  if (s.get F.BST_REPLACE_STAT_REASONS).testBit b then
    let s := (s.putBit F.BST_REPLACE_STAT 0 b false).putBit F.BST_REPLACE_ACKED 0 b false
    (s.putB F.BST_REPLACE_STAT_SERVICE 0 (s.get F.BST_REPLACE_STAT_REASONS != 0)).storeReasons
  else s

end Sys2Proof.Machine
end

