-- ==== Sys2Proof/Machine/Settle.lean ====
section
/-! DEFINITION. The status registers that only show other state (R425, R426, R431, R440, R465, R488, R492, R510): after every command and
every idle cycle they show it again. -/
namespace Sys2Proof.Machine
open Sys2Proof

/-! ### The event controller (R426, R429) -/

/-- The latched and enabled sources of group `g`. -/
def State.pendWord (s : State) (g : Nat) : Word := s.live (0x010000 + 4 * g) &&& s.live (0x010020 + 4 * g)

/-- The latched and enabled sources, in rising order. -/
def State.pendEvents (s : State) : List Nat :=
  (List.range 8).flatMap (fun g =>
    let w := s.pendWord g
    if w = 0 then [] else ((List.range 32).filter (fun i => w.getLsbD i)).map (fun i => 32 * g + i))

/-- The sources that drive `IRQ_N` (R426). -/
def State.irqEvents (s : State) : List Nat := s.pendEvents.filter (fun e => (s.get F.EVC_ROUTE_IRQ_CLASSES).testBit (s.evClass e))

/-- `TOP`: the lowest-numbered of the most urgent class. -/
def State.topEvent (s : State) : Option Nat := [0, 1, 2, 3].findSome? (fun c => s.irqEvents.find? (fun e => s.evClass e == c))

/-- `EVC_STATUS` follows. -/
def State.eventShow (s : State) : State :=
  let top := s.topEvent
  let n := s.pendEvents.length
  (((s.putB F.EVC_STATUS_IRQ 0 top.isSome).put F.EVC_STATUS_TOP 0 (top.getD 0)).putB F.EVC_STATUS_TOP_VALID 0 top.isSome).put
    F.EVC_STATUS_PENDING 0 n

/-! ### Work in the clock domains (R461) -/

/-- The decode domain has work. -/
def State.decodeWork (s : State) : Bool :=
  !s.delivered.isEmpty || !s.bodies.isEmpty || s.viterbi.any (fun e => e.2.isSome)

/-- The cipher domain has work. -/
def State.cipherWork (s : State) : Bool := !s.keyq.isEmpty || !s.macWait.isEmpty || !s.cip.raw.isEmpty || s.cip.blowing.isSome

/-- The CXL port has requests. -/
def State.cxlWork (s : State) : Bool := !s.fills.isEmpty || !s.wbq.isEmpty || !s.jq.isEmpty || !s.rebuilds.isEmpty

/-- `PWR_DOMAIN_STAT`: a domain with work runs, the radio complex runs while the superframe does, and the CXL port with requests or
without a link is not in L1. -/
def State.domainShow (s : State) : State :=
  let s' := (s.putB F.PWR_DOMAIN_STAT_DECODE 0 (s.decodeWork || s.bit F.PWR_DOMAIN_STAT_DECODE)).putB F.PWR_DOMAIN_STAT_CIPHER 0
    (s.cipherWork || s.bit F.PWR_DOMAIN_STAT_CIPHER)
  (s'.putB F.PWR_DOMAIN_STAT_RADIO 0 s.mac.next.isSome).putB F.PWR_DOMAIN_STAT_CXL_L1 0
    (s.bit F.PWR_DOMAIN_STAT_CXL_L1 && !s.cxlWork && s.get F.CXL_LINK_STAT_STATE == 2)

/-- A training of the CXL link in cache-only mode has not brought it UP 100 ms after it began. -/
def State.trainLate (s : State) : Bool :=
  s.get F.SES_STATUS_MODE == 1 && s.get F.CXL_LINK_STAT_STATE == 1
    && (match s.cxlDown with | some t => decide (t + 3840000 ≤ s.tick) | none => false)

/-- Such a training has ended, and failed (R248, R249, R256; DESIGN CHOICE, log entry 144). -/
def State.trainShow (s : State) : State :=
  if s.trainLate then
    (s.put F.CXL_LINK_STAT_STATE 0 3).putB F.CXL_CTRL_RETRAIN 0 false
  else s

/-! ### Belay, the log, commands and `SERVICE_N` -/

/-- Job slot `k` holds a job that is not final (R433). -/
def State.slotBusy (s : State) (k : Nat) : Bool := decide (1 ≤ s.jobState k) && decide (s.jobState k ≤ 4)

/-- A PROFILE_SWITCH is not yet in a final state. -/
def State.profileJob (s : State) : Bool :=
  (List.range 16).any (fun k => s.slotBusy k && s.get F.BLY_SLOT_STAT_KIND (blyO k) == 7)

/-- `BLY_STAT`, `LOG_PROT_STAT.FULL`, `HAL_STATUS.CMD_QUEUE` and `BST_REPLACE_STAT.SERVICE` follow. -/
def State.queueShow (s : State) : State :=
  let busy := (List.range 16).foldl (fun (n : Nat) k => if s.slotBusy k then n + 2 ^ k else n) 0
  let s := (s.put F.BLY_STAT_BUSY 0 busy).putB F.LOG_PROT_STAT_FULL 0 (decide (256 ≤ s.get F.LOG_PROT_STAT_COUNT))
  (s.put F.HAL_STATUS_CMD_QUEUE 0 s.cmdQ.length).putB F.BST_REPLACE_STAT_SERVICE 0 (s.get F.BST_REPLACE_STAT_REASONS != 0)

/-! ### The module's summary (R510) -/

/-- `GLB_STATUS` follows; `PROFILE`, `READY` and `STARTED` change where the spec sets them. -/
def State.summaryShow (s : State) : State :=
  let t := (s.putB F.GLB_STATUS_SWITCHING 0 s.profileJob).putB F.GLB_STATUS_NO_IMAGE 0 (s.get F.PWR_START_STAT_STEP == 7)
  let t := (t.putB F.GLB_STATUS_OWNER 0 s.own).putB F.GLB_STATUS_CACHE_ONLY 0 (s.get F.SES_STATUS_MODE == 1)
  let t := (t.putB F.GLB_STATUS_FENCED 0 (s.bit F.CIP_STATUS_FENCED)).putB F.GLB_STATUS_SERVICE 0 (s.bit F.BST_REPLACE_STAT_SERVICE)
  (t.putB F.GLB_STATUS_THERM_STOP 0 (s.bit F.PWR_DOMAIN_STAT_THERM_STOP)).putB F.GLB_STATUS_IRQ 0 (s.bit F.EVC_STATUS_IRQ)

/-- Every register that shows other state shows it. -/
def State.settle (s : State) : State := ((((s.trainShow).eventShow).domainShow).queueShow).summaryShow

end Sys2Proof.Machine
end

