-- ==== Sys2Proof/Machine/Ops.lean ====
section
/-! DEFINITION. The mechanism of shadows and commits (R502 to R507) and the plain register write (R499): which RWS
registers a block's instance has, capture, acceptance, rejection and application of a commit, and a write of one word by
the access codes of its fields. -/
namespace Sys2Proof.Machine
open Sys2Proof

/-- The outcome of a command. -/
abbrev Out := Host.Outcome State Fault Refusal

/-- The answer to a command met in state `s`: the status registers show the next state, and the queue stays as it was. -/
def State.answer (s : State) (o : Out) : Out := match o with
  | .next t => .next { t.settle with pending := s.pending }
  | .fault f => .fault f
  | .refused r => .refused r

/-! ### Which registers a commit moves -/

/-- The addresses of the RWS registers of instance `k` of block `b` (R504, R505): a cord of LP, a group 16c + g of
MNS, a chain of FC, a receiver of STR, a group (8: `PLN_RATE`, 9: the limits) of PLN, a unit of CHK, or the one instance of another block. -/
def rwsAddrs (b k : Nat) : List Nat :=
  match b with
  | 1 => [0x020804, 0x020808]
  | 2 => (List.range 16).flatMap (fun j => [0x00, 0x0C, 0x2C].map (· + 0x040000 + lpO (16 * k + j)))
  | 3 => [0x00, 0x04, 0x08, 0x0C, 0x10, 0x14].map (· + 0x060000 + fcO k)
  | 4 => [0x04, 0x08, 0x0C, 0x10, 0x58, 0x5C, 0x60, 0x64].map (· + 0x080000 + rxO k)
  | 5 => [0x0C8000 + mnO k]
  | 6 => if k < 8 then [0x0D0040 + 8 * k, 0x0D0044 + 8 * k] else if k = 8 then [0x0D0008] else [0x0D0034, 0x0D0038]
  | 7 => (List.range 4).map (fun h => 0x0E2000 + 0x100 * h)
      ++ [0x0E4014, 0x0E4018, 0x0E401C, 0x0E4020, 0x0E4024, 0x0E4034]
      ++ (List.range 64).map (fun e => 0x0E4100 + 4 * e) ++ (List.range 16).map (fun e => 0x0E4200 + 4 * e)
  | 8 => [0x0F0004]
  | 9 => [0x110008]
  | 10 => (List.range 9).map (fun j => 0x118000 + 0x40 * k + 4 * j)
  | 11 => [0x128004]
  | 12 => [0x120004]
  | 13 => [0x130004, 0x130008, 0x13000C, 0x130010, 0x130014, 0x130018, 0x13001C]
      ++ (List.range 8).map (fun j => 0x130020 + 4 * j)
      ++ (List.range 2).flatMap (fun n => (List.range 4).map (fun j => 0x130100 + 0x80 * n + 4 * j))
  | _ => []

/-- The full scope of block `b` (R505).  `chkFree` lists the check units not owned by the NVM controller or a job. -/
def fullScope (b : Nat) (chkFree : List Nat) : List Nat :=
  match b with
  | 2 => List.range 9
  | 5 => List.range 144
  | 3 => List.range 758
  | 4 => List.range 608
  | 6 => List.range 10
  | 10 => chkFree
  | 12 => [0, 1]
  | _ => [0]

/-- The shadow words that a commit captures (R503, step 1). -/
def State.capture (s : State) (b : Nat) (insts : List Nat) : List (Nat × Word) :=
  insts.flatMap (fun k => (rwsAddrs b k).map (fun a => (a, s.shad a)))

/-- The word at `a` once the captured cells have applied: the captured one, or else the live one (R503, step 2). -/
def State.after (s : State) (cells : List (Nat × Word)) (a : Nat) : Word :=
  match cells.find? (fun c => c.1 == a) with
  | some c => c.2
  | none => s.live a

/-- A field of the words of `State.after`. -/
def Fld.afterOf (f : Fld) (view : Nat → Word) (o : Nat) : Nat := bitsOf (view (f.addr + o)) f.hi f.lo

/-- A signed field of the words of `State.after`. -/
def Fld.afterI (f : Fld) (view : Nat → Word) (o : Nat) : Int := signed (f.hi + 1 - f.lo) (f.afterOf view o)

/-- Whether the word holds only listed encodings in its RWS fields (R17). -/
def shadowLegal (a : Nat) (w : Word) : Bool :=
  match regRow a with
  | some r => r.fields.all (fun f => f.acc != .rws || f.isLegal (bitsOf w f.hi f.lo))
  | none => true

/-- The captured cells of every pending commit of block `b`. -/
def State.pendingCells (s : State) (b : Nat) : List (Nat × Word) :=
  (s.commits.filter (fun c => c.block == b)).flatMap (·.cells)

/-- Whether block `b` has a commit pending. -/
def State.commitPending (s : State) (b : Nat) : Bool := s.commits.any (fun c => c.block == b)

/-- Whether instance `k` of block `b` has a commit pending. -/
def State.instPending (s : State) (b k : Nat) : Bool :=
  s.commits.any (fun c => c.block == b && c.insts.contains k)

/-- The cords named by a bit map. -/
def cordsOf (n : Nat) : List Nat := (List.range 9).filter (fun c => n.testBit c)

/-! ### Acceptance, rejection and application -/

/-- A rejected commit (R503, step 4): EV003, `GLB_EV_SRC3` and the count of rejections. -/
def State.reject (s : State) (block reason index : Nat) : State :=
  (s.raise Ev.COMMIT_REJECT (reason + 0x100 * block + 0x10000 * index)).incSat F.GLB_COMMIT_CNT_REJECTED

/-- An accepted commit (R503, step 3): it waits for the boundaries of its instances with what it captured. -/
def State.accept (s : State) (block : Nat) (insts : List Nat) (cells : List (Nat × Word)) (byGlb : Bool := false) :
    State :=
  let s := s.incWrap F.GLB_COMMIT_CNT_APPLIED
  if insts.isEmpty then s else { s with commits := s.commits ++ [⟨block, insts, cells, byGlb⟩] }

/-- The RWS bits of the register at `a`. -/
def rwsMask (a : Nat) : Word :=
  match regRow a with
  | some r => r.mask .rws
  | none => 0

/-- The live values with captured words applied, in the RWS fields only. -/
def State.applyCells (s : State) : List (Nat × Word) → State
  | [] => s
  | (a, w) :: t =>
    let m := rwsMask a
    State.applyCells (s.setLive a ((s.live a &&& ~~~ m) ||| (w &&& m))) t

/-- Instance `k` of block `b` applies every captured value at its boundary, all together (R503, step 3); a commit that
every instance has applied is done.  Commits of one instance apply in the order of their acceptance. -/
def State.applyInst (s : State) (b k : Nat) : State :=
  let mine := s.commits.filter (fun c => c.block == b && c.insts.contains k)
  let cells := mine.flatMap (fun c => c.cells.filter (fun x => (rwsAddrs b k).contains x.1))
  let s := s.applyCells cells
  let strip := fun (c : Commit) => if c.block == b then { c with insts := c.insts.filter (· != k) } else c
  { s with commits := (s.commits.map strip).filter (fun c => !c.insts.isEmpty) }

/-- Copies the live values into the shadows of an instance (R507). -/
def State.revertInst (s : State) (b k : Nat) : State :=
  (rwsAddrs b k).foldl (fun s a => s.setShad a (s.live a)) s

/-- A commit from interface `i` of a block that a profile writes is rejected while a profile switch drains, waits or
applies (R506, reason 0x03; R454). -/
def State.profHolds (s : State) (i : Iface) (b : Nat) : Bool :=
  i != .module && decide (2 ≤ s.profPhase) && [2, 3, 4, 5, 6, 7, 8, 9].contains b

/-- A block's own commit register: the check of R506, the block's rules, then acceptance over the scope or rejection. -/
def State.commit (s : State) (i : Iface) (b : Nat) (insts : List Nat)
    (rules : State → List (Nat × Word) → Option (Nat × Nat)) : State :=
  if s.profHolds i b then s.reject b 0x03 0
  else
    let cells := s.capture b insts
    match rules s cells with
    | some (reason, index) => s.reject b reason index
    | none => s.accept b insts cells

/-- The first of some checks that fails, as (reason, index). -/
def firstFail : List (Bool × Nat × Nat) → Option (Nat × Nat)
  | [] => none
  | (ok, r, k) :: t => if ok then firstFail t else some (r, k)

/-! ### A plain register write -/

/-- Relations between the fields of one RW register (R17): a word that breaks one leaves the register as it was. -/
def relationOk (a : Nat) (w : Word) : Bool :=
  if a = F.LP_WATCH_BAND.addr then decide (F.LP_WATCH_BAND_LOW_KHZ.of w < F.LP_WATCH_BAND_HIGH_KHZ.of w)
  else if a = F.FC_AUX_ADDR.addr then F.FC_AUX_ADDR_MEM.of w == 1 || decide (F.FC_AUX_ADDR_WORD.of w < 4096)
  else if a = F.PLN_DISC.addr then decide (F.PLN_DISC_SLOTS_MIN.of w ≤ F.PLN_DISC_SLOTS_MAX.of w)
  else if a = F.SES_LEASE_CFG.addr then decide (F.SES_LEASE_CFG_TIME.of w < F.SES_LEASE_CFG_WAIT_MAX.of w)
  else if 0x078000 ≤ a ∧ a < 0x078B00 then
    -- a valid descriptor ends inside its memory (R59)
    let m := (a - 0x078000) / 0x100
    let size := if m < 9 then 65536 else if m = 9 then 4096 else 8192
    F.FC_SET_DIR_VALID.of w == 0 || decide (F.FC_SET_DIR_BASE.of w + F.FC_SET_DIR_TAPS_M1.of w < size)
  else true

/-- Encodings that a field's table refuses by something other than a range. -/
def fieldOk (a : Nat) (f : RegField) (v : Nat) : Bool :=
  f.isLegal v && !(a == F.PLN_PIN_PLACE.addr && f.lo == 0 && decide (4 < popCount (BitVec.ofNat 32 v) 16))
    && !(a == F.PLN_PIN_MODE.addr && f.hi == 2 && v == 7) && !(a == F.PLN_PIN_MODE.addr && f.lo == 4 && v == 3)

/-- The live word after a write of `w` (R499): RW fields take listed encodings, W1C fields clear the bits written 1. -/
def liveAfterWrite (r : RegRow) (a : Nat) (old w : Word) : Word :=
  r.fields.foldl (fun x f =>
    let v := bitsOf w f.hi f.lo
    match f.acc with
    | .rw => if fieldOk a f v then setBits x f.hi f.lo v else x
    | .w1c => x &&& ~~~ (w &&& bitsMask f.hi f.lo)
    | _ => x) old

/-- Whether the RWS fields of a register do not exist in this instance: `FC_NCO` of a port or mains chain (R77). -/
def rsvInstance (a : Nat) : Bool :=
  decide (0x060000 ≤ a) && decide (a < 0x077B00) && a % 0x80 == 0x04
    && (let c := (a - 0x060000) / 0x80; decide (c < 144) || (decide (720 ≤ c) && decide (c < 726)))

/-- A write of one word to a register, each field by its own code (R499, R502): RW and W1C fields of the live value, RWS
fields of the shadow.  A word that breaks a relation of R17 changes nothing. -/
def State.fieldWrite (s : State) (a : Nat) (w : Word) : State :=
  match regRow a with
  | none => s
  | some r =>
    let old := s.live a
    let new := liveAfterWrite r a old w
    let s := if new != old && relationOk a new then s.setLive a new else s
    let m := r.mask .rws
    if m = 0 ∨ rsvInstance a then s else s.setShad a ((s.shad a &&& ~~~ m) ||| (w &&& m))

end Sys2Proof.Machine
end

