-- ==== Sys2Proof/Machine/Reals.lean ====
section
/-! DEFINITION. The real functions that the rules name (R33, R36, R54, R116, R118 to R120, R122, R123), each to at least 48 binary places.
No rule says to which precision the unit holds them (log entry 95).  They are computed in units of 2^-64, by series whose last term is
below that unit. -/
namespace Sys2Proof.Machine
open Sys2Proof

/-- The unit of the fixed-point numbers below. -/
def fixOne : Int := 2 ^ 64

/-- A rational in fixed point. -/
def toFix (x : Rat) : Int := (x * fixOne).floor

/-- A fixed-point number as a rational. -/
def ofFix (x : Int) : Rat := (x : Rat) / fixOne

/-- The product of two fixed-point numbers. -/
def fixMul (a b : Int) : Int := a * b / fixOne

/-- A power series in Horner's form, 1 + z/d₁ (1 + z/d₂ (…)), its divisors given last first. -/
def horner (z : Int) (ds : List Int) : Int := ds.foldl (fun (a : Int) d => fixOne + fixMul z a / d) fixOne

/-- The cosine of an angle of at most an eighth of a turn. -/
def cosSmall (t : Int) : Int := horner (-(fixMul t t)) ((List.range 12).map (fun k => (((2 * (12 - k)) * (2 * (12 - k) - 1) : Nat) : Int)))

/-- The sine of an angle of at most an eighth of a turn. -/
def sinSmall (t : Int) : Int :=
  fixMul t (horner (-(fixMul t t)) ((List.range 12).map (fun k => (((2 * (12 - k)) * (2 * (12 - k) + 1) : Nat) : Int))))

/-- 2π in fixed point. -/
def twoPi : Int := 115904311329233965478

/-- The cosine of `x` turns for `x` from 0 to 1/4. -/
def cosQuarter (x : Rat) : Rat :=
  ofFix (if 8 * x ≤ 1 then cosSmall (toFix x * twoPi / fixOne) else sinSmall (toFix (1/4 - x) * twoPi / fixOne))

/-- The cosine of `x` turns, exact at every quarter of a turn. -/
def cosTurns (x : Rat) : Rat :=
  let f := x - x.floor
  let f := if 1/2 < f then 1 - f else f
  if 1/4 < f then -cosQuarter (1/2 - f) else cosQuarter f

/-- The sine of `x` turns. -/
def sinTurns (x : Rat) : Rat := cosTurns (x - 1/4)

/-- 2 to the power `y`. -/
def pow2 (y : Rat) : Rat :=
  let n := y.floor
  let e := ofFix (horner (fixMul (toFix (y - n)) 12786308645202655660) ((List.range 24).map (fun k => ((24 - k : Nat) : Int))))
  if 0 ≤ n then e * 2 ^ n.toNat else e / 2 ^ (-n).toNat

/-- The amplitude factor of `x` decibels, 10 to the power `x`/20. -/
def ampDb (x : Rat) : Rat := pow2 (x * 3063937869882635622 / fixOne)

/-- The error function of `z` ≥ 0; from 6 on it is 1 to the precision held. -/
def erfPos (z : Rat) : Rat :=
  if 6 ≤ z then 1
  else
    let t := toFix z
    let s := horner (2 * fixMul t t) ((List.range 160).map (fun k => ((2 * (160 - k) + 1 : Nat) : Int)))
    pow2 (-(z * z) * 26613026195688644983 / fixOne) * ofFix (fixMul t s) * 20814921713516466459 / fixOne

/-- The cumulative distribution of the Gaussian of bandwidth-time product 1, time in symbols (R116): its standard deviation is √(ln 2)
by 2π. -/
def gaussCdf (x : Rat) : Rat :=
  let z := erfPos (x.abs * 98440058359288032977 / fixOne)
  (1 + (if x < 0 then -z else z)) / 2

/-- The square root of a natural number below `4 ^ n`, rounded down. -/
def natRoot (x : Nat) : Nat → Nat → Nat
  | 0, r => r
  | n + 1, r => if (r + 2 ^ n) * (r + 2 ^ n) ≤ x then natRoot x n (r + 2 ^ n) else natRoot x n r

/-- The square root of a rational ≥ 0. -/
def ratSqrt (x : Rat) : Rat :=
  let n := (x * 2 ^ 128).floor.toNat
  (natRoot n (Nat.log2 n / 2 + 1) 0 : Rat) / 2 ^ 64

end Sys2Proof.Machine
end

