-- ==== Sys2Proof/Machine/Waveform.lean ====
section
/-! DEFINITION. What is sent: the bits of a frame (R125 to R128), its symbols' levels and tones (R114, R117), the continuous-phase
synthesiser with its Gaussian pulse and ramps (R116, R118), the limiter (R120), the shaping FIR (R121), the DAC words of a
port (R36, R119) and the mask monitor's spectrum (R123). -/
namespace Sys2Proof.Machine
open Sys2Proof

/-! ### Tones -/

/-- Twice the frequency of tone `k` of a group of `n` tones about `c` with spacing `d`, all in units of 25 Hz (R114). -/
def tone2 (c : Int) (d n k : Nat) : Int := 2 * c + (2 * (k : Int) - (n - 1 : Nat)) * d

/-- The tones of a group of `n` (R114), each as twice its frequency in units of 25 Hz. -/
def tones2 (c : Int) (d n : Nat) : List Int := (List.range n).map (tone2 c d n)

/-- The number of tones of a modulation: 2-FSK or 4-FSK (R114). -/
def toneCount (levels : Nat) : Nat := if levels = 1 then 4 else 2

/-- The tone number that carries the bits of a symbol (R117). -/
def toneOf : List Bool → Nat
  | [b] => if b then 1 else 0
  | [b1, b0] => if b1 then (if b0 then 2 else 3) else (if b0 then 1 else 0)
  | _ => 0

/-- The bits that tone `k` of `n` carries (R117). -/
def bitsOfTone (n k : Nat) : List Bool :=
  if n = 2 then [k == 1] else [decide (2 ≤ k), k == 1 || k == 2]

/-- The level d of tone `k` of `n` (R117): −1, +1, or −3, −1, +1, +3. -/
def levelOfTone (n k : Nat) : Int := 2 * k - (n - 1 : Nat)

/-- The levels of bits in transmission order, `w` bits a symbol (R117). -/
def levelsOf (w : Nat) (l : List Bool) : List Int :=
  (List.range (l.length / w)).map (fun j => levelOfTone (2 ^ w) (toneOf ((l.drop (w * j)).take w)))

/-! ### The bits of a frame -/

/-- The preamble of `n` bits, `w` bits a symbol (R126): 0, 1, 0, 1 … or the pairs 00, 10, 00, 10 …. -/
def preambleBits (w n : Nat) : List Bool := (List.range n).map (fun k => k % w == 0 && k / w % 2 == 1)

/-- The sync word of `n` bits, bit n − 1 first (R127). -/
def syncBitsOf (w : Word) (n : Nat) : List Bool := (List.range n).map (fun k => w.getLsbD (n - 1 - k))

/-- The 88 coded bits of a header (R128, R129): each of the 44 bits as itself and then its complement. -/
def hdrSent (h : PhyHdr) : List Bool :=
  (hdrBits h ++ crc16Sent (crc16 (hdrBits h))).flatMap (fun b => [b, !b])

/-- The bits of block `b` of an MPDU in block mode (R136): its bytes and their CRC-16. -/
def blockInfo (m : List Byte) (b : Nat) : List Bool :=
  let s := blockLen m.length
  let l := bitsOfBytes (((padTo (8 * s) m).drop (b * s)).take s)
  l ++ crc16Sent (crc16 l)

/-- The coded bits of a frame's body (R134 to R136). -/
def bodySent (h : PhyHdr) (m : List Byte) : List Bool :=
  if h.block then h.blocks.flatMap (fun b => unitSent h.coding (blockInfo m b)) else unitSent h.coding (bitsOfBytes m)

/-- The mode in which receiver `r`'s strand sends (R114, R128): that of its `STR_TX_CFG`. -/
def State.strTx (s : State) (r : Nat) : Mode :=
  let o := rxO r
  ⟨s.get F.STR_TX_CFG_TX_RATE o, s.get F.STR_TX_CFG_TX_LEVELS o, s.get F.STR_TX_CFG_CODING o⟩

/-- The header of a frame that the module builds (R128, R143): the MPDU's length, the mode and the version. -/
def hdrFor (m : Mode) (len version : Nat) : PhyHdr := ⟨len, m.rate, m.levels, m.coding, version, false, 0⟩

/-- The length of the preamble in bits (R126). -/
def State.preBits (s : State) (r : Nat) : Nat :=
  let p := s.get F.STR_TX_CFG_PREAMBLE (rxO r)
  8 * (if p = 0 then 32 else p)

/-- The sync word's length in bits (R127). -/
def State.syncLen (s : State) (r : Nat) : Nat := 16 + 8 * s.get F.STR_SYM_CFG_SYNC_LEN (rxO r)

/-- The bits of a whole frame in transmission order (R125). -/
def State.frameSent (s : State) (r : Nat) (mode : Mode) (version : Nat) (m : List Byte) : List Bool :=
  let h := hdrFor mode m.length version
  preambleBits (1 + h.levels) (s.preBits r) ++ syncBitsOf (s.live (F.STR_SYNC_WORD.addr + rxO r)) (s.syncLen r) ++ hdrSent h
    ++ bodySent h m

/-- The symbol period of a rate index in ticks (R113). -/
def symTicks (line : Bool) (rate : Nat) : Nat :=
  if line then 256000 / 2 ^ rate
  else match rate with
    | 0 => 3072 | 1 => 1536 | 2 => 768 | 3 => 384 | 4 => 256 | 5 => 192 | _ => 128

/-- The frame `m` on receiver `r`'s synthesiser in a mode, its ramp-up starting at `start` (R114 to R119, R122). -/
def State.burst (s : State) (r : Nat) (mode : Mode) (version start : Nat) (m : List Byte) : Burst :=
  let o := rxO r
  { strand := if r < 576 then r % 4 else (r - 576) % 8, start := start,
    per := symTicks (decide (r < 576)) mode.rate,
    levels := levelsOf (1 + mode.levels) (s.frameSent r mode version m),
    centre := if r < 576 then s.get F.STR_TONE_CENTRE_CENTRE o else s.getI F.STR_TONE_CENTRE_CENTRE o,
    spacing := s.get F.STR_TONE_SPACING_SPACING o, bt := s.get F.STR_TX_CFG_BT o, level := s.get F.STR_TX_CFG_LEVEL o,
    cut := none, whole := true }

/-! ### The synthesiser -/

/-- BT of its code (R116). -/
def btOf (code : Nat) : Rat := match code with
  | 0 => 3 / 10
  | 1 => 1 / 2
  | _ => 1

/-- The pulse g at `x` symbols from its centre (R116): a unit rectangle of one symbol convolved with a Gaussian, truncated to
±2 symbols. -/
def pulse (bt : Nat) (x : Rat) : Rat :=
  if x < -2 ∨ 2 < x then 0 else gaussCdf (btOf bt * (x + 1/2)) - gaussCdf (btOf bt * (x - 1/2))

/-- The tick at which the first symbol begins, behind the ramp-up (R118). -/
def Burst.first (b : Burst) : Nat := b.start + b.per / 2

/-- The tick at which the last symbol ends. -/
def Burst.last (b : Burst) : Nat := b.first + b.levels.length * b.per

/-- The tick at which the ramp-down ends: half a symbol after the last symbol (R118), or 32 DAC samples after a mask cut
(R124). -/
def Burst.over (b : Burst) : Nat := match b.cut with
  | some t => min (t + 512) (b.last + b.per / 2)
  | none => b.last + b.per / 2

/-- The frequency in Hz at tick `u` (R116): C + (Δ/2) × Σ d_j × g(t − jT). -/
def Burst.freq (b : Burst) (u : Nat) : Rat :=
  25 * (b.centre + (b.spacing : Rat) / 2 *
    (b.levels.mapIdx (fun j d => (d : Rat) * pulse b.bt ((((u : Int) - b.first : Int) : Rat) / b.per - j - 1/2))).foldl (· + ·) 0)

/-- The phase in turns at the `n`-th sample after the ramp-up's first, samples `step` ticks apart: continuous from the first
sample to the last (R116).  DESIGN CHOICE, log entry 121: the first sample has phase 0. -/
def Burst.phase (b : Burst) (step : Nat) (n : Nat) : Rat :=
  (List.range n).foldl (fun (a : Rat) i => a + b.freq (b.start + step * i) * step / 38400000) 0

/-- A raised-cosine edge: 0 at `x` = 0, 1 at `x` = 1. -/
def edge (x : Rat) : Rat := (1 - cosTurns (x / 2)) / 2

/-- The amplitude envelope at tick `u` (R118, R124). -/
def Burst.envelope (b : Burst) (u : Nat) : Rat :=
  if u < b.start ∨ b.over ≤ u then 0
  else
    let half : Rat := (b.per : Rat) / 2
    let up := if u < b.first then edge (((u - b.start : Nat) : Rat) / half) else 1
    let down := if b.last ≤ u then edge (1 - ((u - b.last : Nat) : Rat) / half) else 1
    let cut := match b.cut with
      | some t => if t ≤ u then edge (1 - ((u - t : Nat) : Rat) / 512) else 1
      | none => 1
    up * down * cut

/-- The amplitude of step 1 of R119: −0.5 dB × `LEVEL` relative to full scale. -/
def Burst.amp (b : Burst) : Rat := ampDb (-(b.level : Rat) / 2)

/-- The synthesiser's complex sample at tick `u`, scaled under step 1 of R119; the line sends its real part. -/
def Burst.sample (b : Burst) (step u : Nat) : Rat × Rat :=
  let a := b.amp * b.envelope u
  let p := b.phase step ((u - b.start) / step)
  (a * cosTurns p, a * sinTurns p)

/-- The sum of synthesisers at tick `u` (step 2 of R119, R122). -/
def sumAt (step : Nat) (l : List Burst) (u : Nat) : Rat × Rat :=
  l.foldl (fun a b => let x := b.sample step u; (a.1 + x.1, a.2 + x.2)) (0, 0)

/-- The earliest start of some frames. -/
def firstOf : List Burst → Nat
  | [] => 0
  | b :: t => t.foldl (fun (n : Nat) x => min n x.start) b.start

/-- The tick at which the last ramp-down of a transmission ends. -/
def txOver (l : List Burst) : Nat := l.foldl (fun n b => max n b.over) 0

/-! ### The limiter -/

/-- The magnitude of a sample: of a real one its absolute value (R120), of a complex one by R264. -/
def magOf (x : Rat × Rat) : Rat := if x.2 = 0 then x.1.abs else ratSqrt (x.1 * x.1 + x.2 * x.2)

/-- The gain of the limiter at sample `n` of the stream `x` with limit `lc` (R120): the lowest of all windows that cover it. -/
def limGain (on : Bool) (lc : Rat) (x : Int → Rat × Rat) (n : Int) : Rat :=
  if !on then 1
  else (List.range 33).foldl (fun (g : Rat) i =>
    let k : Int := i - 16
    let m := magOf (x (n - k))
    if lc < m then min g (1 - (1 - lc / m) * ((1 + cosTurns ((k : Rat) / 32)) / 2)) else g) 1

/-- What the limiter did over `n` samples (R120, R147): those with a gain below 1, and the largest reduction in 0.25 dB. -/
def limStats (g : Nat → Rat) (n : Nat) : Nat × Nat :=
  (List.range n).foldl (fun (a : Nat × Nat) i =>
    if g i < 1 then (a.1 + 1, max a.2 (dbRound (1 / (g i * g i)) 4).toNat) else a) (0, 0)

/-! ### The DAC words of a port -/

/-- An integer held in a signed word of `n` bits, and whether it saturated. -/
def sat (n : Nat) (x : Int) : Int × Bool :=
  let hi : Int := 2 ^ (n - 1) - 1
  let lo : Int := -2 ^ (n - 1)
  if x > hi then (hi, true) else if x < lo then (lo, true) else (x, false)

/-- The limit Lc of port `p` (R120): −0.25 dB × `LIMIT`. -/
def State.crestLc (s : State) (p : Nat) : Rat := ampDb (-(s.get F.LP_CREST_LIMIT (lpO p) : Rat) / 4)

/-- The lead of port `p`: the first port of its triple, or the port itself (R38). -/
def State.leadOf (s : State) (p : Nat) : Nat :=
  if s.bit F.LP_CFG_COUPLING (lpO p) && p % 16 != 15 then 16 * (p / 16) + p % 16 / 3 * 3 else p

/-- The sum of port `p`'s synthesisers at DAC sample `n` after its first (steps 1 and 2 of R119).  The synthesisers run 16
samples ahead of the DAC, for the limiter's delay (R120). -/
def State.txSum (s : State) (p : Nat) (n : Int) : Rat × Rat :=
  let x := s.port p
  if n < 0 then (0, 0) else ((sumAt 16 x.tx (x.txStart + 16 * n.toNat)).1, 0)

/-- The limiter's gain at DAC sample `n` of port `p`, with the lead's `LP_CREST` (R38, R120). -/
def State.txGain (s : State) (p : Nat) (n : Int) : Rat :=
  let q := s.leadOf p
  limGain (s.bit F.LP_CREST_EN (lpO q)) (s.crestLc q) (s.txSum p) n

/-- The limited stream as 18-bit words of full scale (step 3 of R119, R121).  DESIGN CHOICE, log entry 122: they are rounded
to nearest, ties away from zero. -/
def State.txLimited (s : State) (p : Nat) (n : Int) : Int :=
  (sat 18 (roundAway ((s.txSum p n).1 * s.txGain p n * 2 ^ 17))).1

/-- The coefficient memory of a chain or a port's cord (R58). -/
def memOf (c : Nat) : Nat := if c < 144 then c / 16 else if c < 720 then (c - 144) / 64 else if c < 726 then 9 else 10

/-- The offset of descriptor (m, k) from the first one (R78). -/
def dirO (m k : Nat) : Nat := 0x100 * m + 4 * k

/-- Coefficient `j` of set `k` of memory `m` (R58, R59). -/
def State.coefOf (s : State) (m k j : Nat) : Int :=
  (tget (fun _ => (0 : BitVec 18)) s.coefs (m * 65536 + s.get F.FC_SET_DIR_BASE (dirO m k) + j)).toInt

/-- The 48-bit accumulator over the history; coefficient 0 multiplies the newest sample (R54, R59). -/
def firAcc (coef : Nat → Int) : List Int → Nat → Nat → Int × Bool → Int × Bool
  | [], _, _, a => a
  | _, _, 0, a => a
  | x :: t, j, n + 1, a =>
    let r := sat 48 (a.1 + coef j * x)
    firAcc coef t (j + 1) n (r.1, a.2 || r.2)

/-- The shaped stream (step 4 of R119, R121): set `SET` of the cord's memory over the limited stream, in the formats of R54, or
a bypass. -/
def State.txShaped (s : State) (p : Nat) (n : Nat) : Int :=
  let q := s.leadOf p
  let m := memOf q
  let k := s.get F.LP_SHAPE_SET (lpO q)
  if !s.bit F.LP_SHAPE_EN (lpO q) then s.txLimited p n
  else
    let t := s.get F.FC_SET_DIR_TAPS_M1 (dirO m k) + 1
    let a := firAcc (s.coefOf m k) ((List.range t).map (fun (j : Nat) => s.txLimited p ((n : Int) - j))) 0 t (0, false)
    (sat 18 (roundAway ((a.1 : Rat) / 2 ^ 17))).1

/-- The 12-bit DAC word at sample `n` of port `p` and whether it saturated (steps 5 and 6 of R119, R36): `ATTEN` and `INVERT`
are the port's own.  DESIGN CHOICE, log entry 122: it is rounded to nearest, ties away from zero. -/
def State.dacWord (s : State) (p : Nat) (n : Nat) : Int × Bool :=
  let o := lpO p
  let v : Rat := (s.txShaped p n : Rat) * ampDb (-(s.get F.LP_TX_CFG_ATTEN o : Rat) / 2) / 64
  sat 12 (roundAway (if s.bit F.LP_TX_CFG_INVERT o then -v else v))

/-- The DAC samples of port `p`'s transmission. -/
def State.txSamples (s : State) (p : Nat) : Nat := (txOver (s.port p).tx - (s.port p).txStart + 15) / 16

/-- The saturations of step 6 of R119 in a transmission of port `p`. -/
def State.dacClips (s : State) (p : Nat) : Nat :=
  (List.range (s.txSamples p)).countP (fun n => (s.dacWord p n).2)

/-! ### The mask monitor -/

/-- The power of bin `k` of a block of 256 DAC words, a full-scale sine centred in a bin reading 1 (R123): Hann window, 256-point
FFT. -/
def binPower (x : Nat → Int) (k : Nat) : Rat :=
  let w := fun (n : Nat) => (1 - cosTurns ((n : Rat) / 256)) / 2 * ((x n : Rat) / 2048)
  let re := (List.range 256).foldl (fun (a : Rat) n => a + w n * cosTurns ((k * n : Nat) / 256)) 0
  let im := (List.range 256).foldl (fun (a : Rat) n => a + w n * sinTurns ((k * n : Nat) / 256)) 0
  (re * re + im * im) / 64 ^ 2

/-- The value of mask point `k` of block `b` of port `p`'s transmission (R123): the sum of bins 2k and 2k + 1. -/
def State.maskPoint (s : State) (p b k : Nat) : Rat :=
  let x := fun (n : Nat) => (s.dacWord p (256 * b + n)).1
  binPower x (2 * k) + binPower x (2 * k + 1)

end Sys2Proof.Machine
end

