-- ==== Sys2Proof/Machine/Demod.lean ====
section
/-! DEFINITION. The demodulator of a receiver: the outputs it keeps (R80, R99), what it reads from one symbol of them — level,
decision, soft values, blanked fraction (R84, R89, R91 to R94, R165) — and the preamble correlators (R85, R102, R103). -/
namespace Sys2Proof.Machine
open Sys2Proof

/-! ### The chain behind which a receiver works -/

/-- The overall ratio M of chain `c` in the words `view` (R55). -/
def ratioOf (view : Nat → Word) (c : Nat) : Nat :=
  F.FC_CFG_CIC_RATIO.afterOf view (fcO c) * F.FC_CFG_FIR_RATIO.afterOf view (fcO c)

/-- Samples per second at the input of chain `c` (R53). -/
def inRate (view : Nat → Word) (c : Nat) : Rat :=
  if c < 144 then 1200000
  else if c < 720 then (1200000 : Rat) / max 1 (ratioOf view ((c - 144) / 4))
  else if c < 726 then 38400 else 3840000

/-- The period of chain `c`'s outputs in ticks: that of its inputs times its ratio (R53, R55). -/
def State.chainPeriod (s : State) (c : Nat) : Nat :=
  let m := fun (c : Nat) => max 1 (ratioOf s.live c)
  if c < 144 then 32 * m c else if c < 720 then 32 * m ((c - 144) / 4) * m c else if c < 726 then 1000 * m c else 10 * m c

/-- Whether set `k` of chain `c`'s memory is valid (R59). -/
def State.setValid (s : State) (c k : Nat) : Bool := s.bit F.FC_SET_DIR_VALID (dirO (memOf c) k)

/-- The tap count of set `k` of chain `c`'s memory. -/
def State.setTaps (s : State) (c k : Nat) : Nat := s.get F.FC_SET_DIR_TAPS_M1 (dirO (memOf c) k) + 1

/-- The active set of chain `c`. -/
def State.activeSet (s : State) (c : Nat) : Nat := s.get F.FC_BANK_ACTIVE_SET (fcO c)

/-- The receiver behind a strand or radio chain. -/
def rxOfChain (c : Nat) : Option Nat :=
  if 144 ≤ c ∧ c < 720 then some (c - 144) else if 726 ≤ c then some (c - 150) else none

/-- The chain behind which receiver `r` works. -/
def chainOfRx (r : Nat) : Nat := if r < 576 then 144 + r else 150 + r

/-- The outputs that the look-back buffer of receiver `r` covers (R80, R99): 4 ms, or its capacity where that is less. -/
def State.lookBack (s : State) (r : Nat) : Nat :=
  min (if r < 576 then 512 else 4096) (msTicks 4 / s.chainPeriod (chainOfRx r))

/-- The outputs by which R165 delays the blanked fractions. -/
def State.blankDelay (s : State) (r : Nat) : Nat :=
  let c := chainOfRx r
  let d := 2 * max 1 (s.get F.FC_CFG_FIR_RATIO (fcO c))
  (2 * (s.setTaps c (s.activeSet c) - 1) + d) / (2 * d)

/-- The outputs in a symbol window of receiver `r`: `SPS`/1,024 rounded to nearest (log entry 103). -/
def State.rxWin (s : State) (r : Nat) : Nat := max 1 ((s.get F.STR_SYM_CFG_SPS (rxO r) + 512) / 1024)

/-- The outputs that receiver `r` holds: its look-back buffer, and what its symbol windows and the delay of R165 reach back to. -/
def State.bufLen (s : State) (r : Nat) : Nat := max (s.lookBack r) (3 * (s.rxWin r + 1) + s.blankDelay r)

/-- The nominal symbol period of receiver `r` in ticks (R91). -/
def State.symT (s : State) (r : Nat) : Nat :=
  s.get F.STR_SYM_CFG_SPS (rxO r) * s.chainPeriod (chainOfRx r) / 1024

/-- The stamp of the newest output that receiver `r` holds. -/
def State.rxNow (s : State) (r : Nat) : Nat := ((s.rx r).buf.head?.map (·.stamp)).getD 0

/-! ### States and settings -/

/-- The state code of receiver `r` (R81). -/
def State.rxSt (s : State) (r : Nat) : Nat := s.get F.STR_STATUS_STATE (rxO r)

/-- The frozen states (R81). -/
def State.frozen (s : State) (r : Nat) : Bool := decide (3 ≤ s.rxSt r)

/-- Bit `f` of `STR_CTRL` as read at entry to QUALIFY (R108). -/
def State.ctrlBit (s : State) (r : Nat) (f : Fld) : Bool := Nat.testBit (s.rx r).ctrl f.lo

/-- The number of bits of a symbol. -/
def State.symBits (s : State) (r : Nat) : Nat := s.get F.STR_SYM_CFG_LEVELS (rxO r) + 1

/-! ### One symbol -/

/-- What the demodulator reads from the outputs of one symbol: its boundary and first output, its centre, its mean power and the
power that its decision leaves, both of full scale 1 before the AGC, the bits decided, one soft value per bit behind the AGC,
the blanked fraction, and the outputs, newest first. -/
structure SymObs where
  stamp : Nat
  start : Nat
  centre : Nat
  power : Rat
  err : Rat
  bits : List Bool
  soft : List Int
  blanked : Rat
  samples : List (Int × Int)
  deriving DecidableEq, Repr

/-- The turns per output of tone `k` of receiver `r` behind its mixer (R54, R114). -/
def State.toneStep (s : State) (r k : Nat) : Rat :=
  let o := rxO r
  let c := chainOfRx r
  let m : Rat := max 1 (ratioOf s.live c)
  let centre : Int := if r < 576 then s.get F.STR_TONE_CENTRE_CENTRE o else s.getI F.STR_TONE_CENTRE_CENTRE o
  let f : Rat := (25 * tone2 centre (s.get F.STR_TONE_SPACING_SPACING o) (toneCount (s.get F.STR_SYM_CFG_LEVELS o)) k : Int) / 2
  f * m / inRate s.live c - m * (s.live (F.FC_NCO.addr + fcO c)).toNat / 2 ^ 32

/-- The power of one tone, `nu` turns per output, in outputs that come newest first: full scale 1. -/
def tonePower (nu : Rat) (l : List (Int × Int)) : Rat :=
  let z := l.mapIdx (fun j (x : Int × Int) =>
    let c := cosTurns (nu * j)
    let d := sinTurns (nu * j)
    ((x.1 : Rat) * c - x.2 * d, (x.1 : Rat) * d + x.2 * c))
  let a := z.foldl (fun (t : Rat) x => t + x.1) 0
  let b := z.foldl (fun (t : Rat) x => t + x.2) 0
  (a * a + b * b) / (max 1 l.length) ^ 2 / 2 ^ 34

/-- The decision of a symbol: the tone of greatest power, the lowest among equals (log entry 103). -/
def bestTone (e : List Rat) : Nat :=
  ((List.range e.length).foldl (fun (b : Nat) k => if e.getD b 0 < e.getD k 0 then k else b) 0)

/-- The difference behind each soft value (R92): the best power of the tones that carry a 1 less that of those that carry a 0. -/
def softDiffs (e : List Rat) : List Rat :=
  let x := fun (k : Nat) => e.getD k 0
  if e.length = 2 then [x 1 - x 0] else [max (x 2) (x 3) - max (x 0) (x 1), max (x 1) (x 2) - max (x 0) (x 3)]

/-- The gain of the AGC over its target, as a power ratio (R89). -/
def State.agcOver (s : State) (r : Nat) : Rat :=
  let a := ampDb (-12 + (3 / 16 : Rat) * s.get F.STR_STATUS_AGC_CODE (rxO r))
  let t := ampDb (-(s.get F.STR_AGC_CFG_TARGET (rxO r) : Rat) / 4)
  (a * a) / (t * t)

/-- The outputs of receiver `r` up to stamp `t`, newest first. -/
def State.upTo (s : State) (r t : Nat) : List RxSample := (s.rx r).buf.dropWhile (fun (x : RxSample) => decide (t < x.stamp))

/-- The symbol of receiver `r` whose last output lies `d` outputs before stamp `t`; none where the receiver does not hold its
outputs, or must not look at one of them (R82, R100). -/
def State.symAt (s : State) (r d t : Nat) : Option SymObs :=
  let w := s.rxWin r
  let l := (s.upTo r t).drop d
  let win := l.take w
  let start := (win.getLast?.map (fun (x : RxSample) => x.stamp)).getD 0
  if win.length < w || win.any (fun (x : RxSample) => !x.settled) || decide (start < (s.rx r).readFrom) then none
  else
    let z := win.map (fun (x : RxSample) => (x.re, x.im))
    let e := (List.range (toneCount (s.get F.STR_SYM_CFG_LEVELS (rxO r)))).map (fun k => tonePower (s.toneStep r k) z)
    let p : Rat := (z.foldl (fun (a : Int) x => a + x.1 * x.1 + x.2 * x.2) 0 : Int) / (w * 2 ^ 34 : Nat)
    let k := bestTone e
    let bl := (l.drop (s.blankDelay r)).take w
    let bypass := decide (576 ≤ r) || s.bit F.MNS_BLANK_STAT_MODE (mnO r)
    let stamp := (win.head?.map (fun (x : RxSample) => x.stamp)).getD t
    some { stamp := stamp, start := start, centre := stamp - s.symT r / 2 - 32 * s.get F.STR_CAL_DELAY (rxO r), power := p,
           err := p - e.getD k 0, bits := bitsOfTone e.length k,
           soft := (softDiffs e).map (fun x => max (-7) (min 7 (roundAway (6 * x * s.agcOver r)))),
           blanked := if bypass then 0 else (bl.foldl (fun (a : Rat) (x : RxSample) => a + x.blank) 0) / (max 1 bl.length : Nat),
           samples := z }

/-! ### Preamble correlators -/

/-- A symbol of the preamble (R85): whether it correlates, and the first bit expected of the next one. -/
def preStep (phase : Option Bool) (bits : List Bool) : Bool × Option Bool :=
  let fits := match bits with
    | [_] => true
    | [_, b0] => !b0
    | _ => false
  let b := bits.headD false
  match phase with
  | none => if fits then (true, some !b) else (false, none)
  | some e => (fits && b == e, some !e)

/-- The second detector at one symbol timing takes a symbol (R102): it covers the last `m` of them. -/
def detStep (m : Nat) (d : DetS) (o : SymObs) : DetS :=
  let h := preStep d.phase o.bits
  { hits := ((h.1, o.start) :: d.hits).take m, phase := h.2 }

/-- A symbol timing at which the second detector of receiver `r` meets the rule of R85: its outputs before the locked boundary, the
power of its newest symbol, and what it counts.  DESIGN CHOICE, log entry 124: that power is the level that R102 and R103 compare. -/
structure DetHit where
  ofs : Nat
  power : Rat
  det : DetS
  deriving DecidableEq, Repr

/-- The second detector of receiver `r` at the boundary `t` of the locked timing (R102, R103): every timing other than the locked one,
a whole number of outputs before it. -/
def State.detNext (s : State) (r t : Nat) : List DetS :=
  (List.range (s.rxWin r - 1)).map (fun j =>
    let d := ((s.rx r).det[j]?).getD ⟨[], none⟩
    match s.symAt r (j + 1) t with
    | some o => detStep (s.get F.STR_DET_QUAL_M (rxO r)) d o
    | none => d)

/-- The first correlated symbol that the second detector counts: the new preamble's start (R103). -/
def DetS.first (d : DetS) : Option Nat := ((d.hits.reverse.find? (fun h => h.1)).map (fun h => h.2))

/-- The timings of `dets` at which the rule of R85 is met at `db` or more above the power `ref` (R102, R103), the strongest
first chosen. -/
def State.detBest (s : State) (r t : Nat) (dets : List DetS) (ref : Rat) (db : Nat) : Option DetHit :=
  (List.range dets.length).foldl (fun (b : Option DetHit) j =>
    match dets[j]?, s.symAt r (j + 1) t with
    | some d, some o =>
      if s.get F.STR_DET_QUAL_N (rxO r) ≤ d.hits.countP (fun h => h.1) && (decide (ref ≤ 0) || dbGe (o.power / ref) 1 db) then
        match b with
        | some x => if x.power < o.power then some ⟨j + 1, o.power, d⟩ else b
        | none => some ⟨j + 1, o.power, d⟩
      else b
    | _, _ => b) none

/-- The re-lock that falls due in QUALIFY at boundary `t` (R102). -/
def State.relockDue (s : State) (r t : Nat) : Option DetHit :=
  if s.ctrlBit r F.STR_CTRL_RELOCK_EN then
    s.detBest r t (s.detNext r t) (s.rx r).detPower (s.get F.STR_MARGINS_RELOCK_DB (rxO r))
  else none

/-- The capture detector fires at boundary `t` (R103). -/
def State.captureDue (s : State) (r t : Nat) : Option DetHit :=
  s.detBest r t (s.detNext r t) (s.rx r).capRef (s.get F.STR_MARGINS_CAPTURE_DB (rxO r))

/-- Whether the symbol that ends at `t` makes the count of R85 (R85, R108). -/
def State.passesAt (s : State) (r t : Nat) : Bool :=
  match s.symAt r 0 t with
  | none => false
  | some o =>
    let x := s.rx r
    let m := s.get F.STR_DET_QUAL_M (rxO r)
    let hits := ((preStep x.phaseBit o.bits).1 :: x.hits).take m
    decide (s.get F.STR_DET_QUAL_N (rxO r) ≤ hits.countP id) && decide (x.symbols + 1 ≤ m + 16) && (s.relockDue r t).isNone

/-! ### Symbol timing -/

/-- Whether `t` may be the next symbol boundary of receiver `r` (R91): within 2,000 ppm and one output of a symbol after the last
one, and of a whole number of symbols after the boundary at which the loop locked, so that the rate of the loop never leaves the
2,000 ppm; or, where no boundary is known, at most a symbol after the sample last examined. -/
def State.boundaryAt (s : State) (r t : Nat) : Bool :=
  let x := s.rx r
  let p := s.chainPeriod (chainOfRx r)
  decide (x.pos < t) && (match x.symEnd with
    | some e =>
      let all := (x.lockN + 1) * s.get F.STR_SYM_CFG_SPS (rxO r) * p
      decide (500 * ((t : Int) - e - s.symT r).natAbs ≤ s.symT r + 500 * p)
        && decide (500 * (1024 * ((t : Int) - x.lockAt) - all).natAbs ≤ all + 500 * 1024 * p)
    | none => decide (t ≤ x.pos + s.symT r + p))

/-- Whether receiver `r` has read up to stamp `t` (R101): the samples are there, a replay reads them at 4 times the output rate, and a
strand that is not in use reads none (R115). -/
def State.rxReads (s : State) (r t : Nat) : Bool :=
  decide (t ≤ s.rxNow r) && s.bit F.STR_TONE_SPACING_EN (rxO r)
    && (!s.bit F.STR_STATUS_REPLAY (rxO r) || decide (t - (s.rx r).readFrom ≤ 4 * (s.tick - (s.rx r).replayAt)))

/-! ### Levels -/

/-- The offset of the registers of the head of radio receiver `r`. -/
def headO (r : Nat) : Nat := 0x100 * ((r - 576) / 8)

/-- What R93 adds to the power in dBFS to give the level, in 0.25 dB units. -/
def State.levelOff (s : State) (r : Nat) : Int :=
  let cal := s.getI F.STR_CAL_OFFSET (rxO r)
  if r < 576 then 492 - 24 * ((s.port (r / 4)).refCode : Int) + cal
  else
    let h := headO r
    s.getI F.RFS_GAIN_TBL_FS_DBM (h + 4 * s.get F.RFS_HEAD_STAT_GAIN_ENTRY h) + cal

/-- Whether the level of power `p` at receiver `r` is at least `k`, in 0.25 dB units. -/
def State.levelGe (s : State) (r : Nat) (p : Rat) (k : Int) : Bool := dbGe p 4 (k - s.levelOff r)

/-- The level threshold of receiver `r` in 0.25 dB units. -/
def State.thresh (s : State) (r : Nat) : Int := 2 * s.getI F.STR_DET_THRESH (rxO r)

/-- An evaluation of receiver `r` is due at its output stamped `t` (R84): half a symbol after the last one. -/
def State.evalDue (s : State) (r t : Nat) : Bool :=
  decide ((s.rx r).halfAt + s.symT r / 2 ≤ t + s.chainPeriod (chainOfRx r)) && s.rxReads r t

/-! ### Replays -/

/-- The receivers that share the replay limit of receiver `r`'s engine (R101). -/
def replayPeers (r : Nat) : List Nat :=
  if r < 576 then (List.range 64).map (· + 64 * (r / 64)) else (List.range 32).map (· + 576)

/-- Whether a replay of receiver `r` may start: fewer than 8 run in its engine (R101). -/
def State.replayRoom (s : State) (r : Nat) : Bool :=
  decide ((replayPeers r).countP (fun x => s.bit F.STR_STATUS_REPLAY (rxO x)) < 8)

/-- The replay that waits at receiver `r` may start now (R101): those that wait start in the order in which they began to. -/
def State.replayDue (s : State) (r : Nat) : Bool :=
  s.replayQ.find? (fun x => (replayPeers r).contains x) == some r && s.replayRoom r

/-! ### A strand about to hold its port -/

/-- Receiver `r` in QUALIFY passes at its newest output (R96). -/
def State.wouldPass (s : State) (r : Nat) : Bool :=
  s.rxSt r == 2 && s.boundaryAt r (s.rxNow r) && s.passesAt r (s.rxNow r)

/-- A replay of receiver `r` in SEARCH detects at a buffered output that it has read, and so enters QUALIFY with `REPLAY` = 1 (R96). -/
def State.wouldDetect (s : State) (r : Nat) : Bool :=
  s.rxSt r == 1 && s.bit F.STR_STATUS_REPLAY (rxO r) && (s.rx r).buf.any (fun (b : RxSample) =>
    decide ((s.rx r).pos < b.stamp) && s.evalDue r b.stamp
      && decide (b.stamp ≤ (s.rx r).halfAt + s.symT r / 2 + s.chainPeriod (chainOfRx r))
      && (match s.symAt r 0 b.stamp with
        | some o => s.levelGe r o.power (s.thresh r)
        | none => false))

/-- Receiver `r` becomes a holder of its port at this sample (R96, R108): by a qualifier pass, by a detection in a replay, or by a
capture restart that waited. -/
def State.wouldHold (s : State) (r : Nat) : Bool :=
  s.wouldPass r || s.wouldDetect r || ((s.rx r).replayWait == some true && s.replayDue r)

end Sys2Proof.Machine
end

