-- ==== Sys2Proof/Machine/Crypto.lean ====
section
/-! DEFINITION. The cipher engine's arithmetic: AES on two shares (R331), the modes of R322 and R329, the key derivation of R318, and
CRC-32C.  The block cipher and the modes are those of the standards the manual names (log entry 20). -/
namespace Sys2Proof.Machine
open Sys2Proof

/-! ### AES -/

/-- Multiplication by x in the field of AES. -/
def xtime (b : Byte) : Byte := if b.msb then (b <<< 1) ^^^ 0x1B#8 else b <<< 1

/-- Multiplication in the field of AES, over the low `n` bits of `b`. -/
def gmulN (a b : Byte) : Nat → Byte
  | 0 => 0
  | n + 1 => (if b.getLsbD 0 then a else 0) ^^^ gmulN (xtime a) (b >>> 1) n

/-- Multiplication in the field of AES. -/
def gmul (a b : Byte) : Byte := gmulN a b 8

/-- Bytewise exclusive or; the shorter list gives the length. -/
def xorL : List Byte → List Byte → List Byte
  | a :: s, b :: t => (a ^^^ b) :: xorL s t
  | _, _ => []

/-- A list cut into pieces of `n`, at most `k` of them. -/
def chunks (n : Nat) : Nat → List Byte → List (List Byte)
  | 0, _ => []
  | _, [] => []
  | k + 1, l => l.take n :: chunks n k (l.drop n)

/-- ShiftRows by `d` columns to the left (inverse: `4 - row`). -/
def shiftRows (inv : Bool) (s : List Byte) : List Byte :=
  (List.range 16).map (fun j =>
    let r := j % 4
    let c := j / 4
    s.getD (4 * ((c + (if inv then 4 - r else r)) % 4) + r) 0)

/-- One column multiplied by a circulant matrix. -/
def mixCol (m : List Byte) (c : List Byte) : List Byte :=
  (List.range 4).map (fun r =>
    (List.range 4).foldl (fun x k => x ^^^ gmul (m.getD ((k + 4 - r) % 4) 0) (c.getD k 0)) 0)

/-- MixColumns, or its inverse. -/
def mixColumns (inv : Bool) (s : List Byte) : List Byte :=
  (chunks 4 4 s).flatMap (mixCol (if inv then [14, 11, 13, 9] else [2, 3, 1, 1]))

/-! ### Two shares (R331)

No value of the datapath or of the key schedule stands unmasked: what is linear acts on each share, and a product of two masked bytes
draws a fresh byte. -/

/-- The value of two shares: what the engine gives out. -/
def Shares.value (x : Shares) : List Byte := xorL x.a x.b

/-- Shares of the exclusive or of two values. -/
def Shares.xor (x y : Shares) : Shares := ⟨xorL x.a y.a, xorL x.b y.b⟩

/-- A linear map, on each share. -/
def Shares.lin (f : List Byte → List Byte) (x : Shares) : Shares := ⟨f x.a, f x.b⟩

/-- A public value as shares, before it is masked. -/
def Shares.pub (l : List Byte) : Shares := ⟨l, List.replicate l.length 0⟩

/-- A stream of mask bytes: byte `i` of the draw that a lane names. -/
abbrev Masks := List Nat → Nat → Byte

/-- Shares remasked with the draw of `lane`. -/
def Shares.remask (r : Masks) (lane : List Nat) (x : Shares) : Shares :=
  let m := (List.range x.a.length).map (r lane)
  ⟨xorL x.a m, xorL x.b m⟩

/-- Masked bytes: the shares of one byte. -/
abbrev MByte := Byte × Byte

/-- A masked byte remasked with a fresh byte. -/
def MByte.fresh (x : MByte) (m : Byte) : MByte := (x.1 ^^^ m, x.2 ^^^ m)

/-- The product of two masked bytes, with a fresh mask byte `m`. -/
def mulSh (m : Byte) (x y : MByte) : MByte :=
  (gmul x.1 y.1 ^^^ m, ((m ^^^ gmul x.1 y.2) ^^^ gmul x.2 y.1) ^^^ gmul x.2 y.2)

/-- The square of a masked byte: squaring is linear in the field. -/
def sqSh (x : MByte) : MByte := (gmul x.1 x.1, gmul x.2 x.2)

/-- The inverse of a masked byte, its power 254, or 0 for 0, with eight fresh mask bytes. -/
def invSh (m : Nat → Byte) (x : MByte) : MByte :=
  let a2 := sqSh x
  let a3 := mulSh (m 1) (MByte.fresh a2 (m 0)) x
  let a12 := sqSh (sqSh a3)
  let a15 := mulSh (m 3) (MByte.fresh a12 (m 2)) a3
  let a240 := sqSh (sqSh (sqSh (sqSh a15)))
  let a252 := mulSh (m 5) (MByte.fresh a240 (m 4)) a12
  mulSh (m 7) (MByte.fresh a252 (m 6)) a2

/-- The linear part of the S-box. -/
def sboxLin (b : Byte) : Byte := b ^^^ b.rotateLeft 1 ^^^ b.rotateLeft 2 ^^^ b.rotateLeft 3 ^^^ b.rotateLeft 4

/-- The linear part of the inverse S-box. -/
def sboxInvLin (a : Byte) : Byte := a.rotateLeft 1 ^^^ a.rotateLeft 3 ^^^ a.rotateLeft 6

/-- The S-box, or its inverse, of a masked byte. -/
def sboxSh (inv : Bool) (m : Nat → Byte) (x : MByte) : MByte :=
  if inv then invSh m (sboxInvLin x.1 ^^^ 0x05#8, sboxInvLin x.2)
  else
    let b := invSh m x
    (sboxLin b.1 ^^^ 0x63#8, sboxLin b.2)

/-- SubBytes, or its inverse, with fresh bits for each byte. -/
def subSh (inv : Bool) (r : Masks) (lane : List Nat) (x : Shares) : Shares :=
  let l := (x.a.zip x.b).mapIdx (fun i p => sboxSh inv (r (i :: lane)) p)
  ⟨l.map (·.1), l.map (·.2)⟩

/-- The shares of some pieces, joined. -/
def joinSh (l : List Shares) : Shares := ⟨l.flatMap (·.a), l.flatMap (·.b)⟩

/-- The key schedule: words, newest first, from `i` on. -/
def keyMore (r : Masks) (lane : List Nat) (nk : Nat) (i : Nat) (rcon : Byte) : Nat → List Shares → List Shares
  | 0, ws => ws
  | n + 1, ws =>
    let t := ws.headD ⟨[], []⟩
    let sub := subSh false r (i :: lane)
    let rot := fun (w : List Byte) => w.drop 1 ++ w.take 1
    let t' := if i % nk = 0 then (sub (t.lin rot)).xor (.pub [rcon, 0, 0, 0]) else if 6 < nk ∧ i % nk = 4 then sub t else t
    keyMore r lane nk (i + 1) (if i % nk = 0 then xtime rcon else rcon) n ((ws.getD (nk - 1) ⟨[], []⟩).xor t' :: ws)

/-- A key in use: its shares, the mask bytes of the work, and the lane that names the computation. -/
structure Key where
  sh : Shares
  masks : Masks
  lane : List Nat

/-- The key in computation `j` of the work, which draws masks of its own. -/
def Key.sub (k : Key) (j : Nat) : Key := { k with lane := j :: k.lane }

/-- A value split into two shares with fresh mask bytes. -/
def Key.split (k : Key) (l : List Byte) : Shares := (Shares.pub l).remask k.masks (0 :: k.lane)

/-- The round keys of a key of 16 or 32 bytes, remasked for this use. -/
def Key.rounds (k : Key) : List Shares :=
  let sh := k.sh.remask k.masks (1 :: k.lane)
  let nk := sh.a.length / 4
  let total := 4 * (nk + 7)
  let words := (chunks 4 nk sh.a).zipWith Shares.mk (chunks 4 nk sh.b)
  let ws := (keyMore k.masks (2 :: k.lane) nk nk 1 (total - nk) words.reverse).reverse
  (List.range (nk + 7)).map (fun r => joinSh ((ws.drop (4 * r)).take 4))

/-- One block through the cipher (AES-128 or AES-256 by the key's length) or its inverse, on shares. -/
def Key.block (inv : Bool) (k : Key) (x : Shares) : Shares :=
  match (if inv then k.rounds.reverse else k.rounds) with
  | [] => x
  | k0 :: ks =>
    let last := ks.length
    (ks.foldl (fun (p : Nat × Shares) rk =>
      let n := p.1 + 1
      let sub := subSh inv k.masks (n :: 3 :: k.lane)
      let mix := Shares.lin (mixColumns inv)
      (n, if inv then
          let y := (sub (p.2.lin (shiftRows true))).xor rk
          if n = last then y else mix y
        else
          let y := (sub p.2).lin (shiftRows false)
          (if n = last then y else mix y).xor rk)) (0, x.xor k0)).2

/-- The block cipher on shares. -/
def Key.enc (k : Key) (x : Shares) : Shares := k.block false x

/-- The block cipher on a public block. -/
def aesEnc (key : Key) (b : List Byte) : List Byte := (key.enc (key.split b)).value

/-- The inverse block cipher on a public block. -/
def aesDec (key : Key) (b : List Byte) : List Byte := (key.block true (key.split b)).value

/-! ### CMAC and key derivation -/

/-- Bytes as a big-endian number. -/
def beNum (l : List Byte) : Nat := l.foldl (fun n b => n * 256 + b.toNat) 0

/-- `k` bytes of `n`, most significant first. -/
def be (n k : Nat) : List Byte := (le n k).reverse

/-- Doubling in the field of CMAC. -/
def cmacDbl (l : List Byte) : List Byte :=
  let n := beNum l
  let d := (2 * n) % 2 ^ 128
  be (if n / 2 ^ 127 = 1 then Nat.xor d 0x87 else d) 16

/-- AES-CMAC (NIST SP 800-38B), on shares. -/
def cmacSh (key : Key) (m : List Byte) : Shares :=
  let k1 := ((key.sub 0).enc ((key.sub 0).split (List.replicate 16 0))).lin cmacDbl
  let k2 := k1.lin cmacDbl
  let bl := chunks 16 (m.length / 16 + 1) m
  let n := bl.length
  let last := (bl.getLast?).getD []
  let final := if last.length = 16 then (Shares.pub last).xor k1 else (Shares.pub (padTo 16 (last ++ [0x80]))).xor k2
  let c := (bl.take (n - 1)).foldl (fun (c : Nat × Shares) b => (c.1 + 1, (key.sub c.1).enc (c.2.xor ((key.sub c.1).split b))))
    (1, Shares.pub (List.replicate 16 0))
  (key.sub c.1).enc (c.2.xor final)

/-- The CMAC of bytes, given out. -/
def cmac (key : Key) (m : List Byte) : List Byte := (cmacSh key m).value

/-- The KDF in counter mode with AES-256-CMAC (R318): `len` bytes, as shares. -/
def kdf (key : Key) (label context : List Byte) (len : Nat) : Shares :=
  (joinSh ((List.range ((len + 15) / 16)).map (fun i =>
    cmacSh (key.sub i) (le (i + 1) 1 ++ label ++ [0] ++ context ++ be (8 * len) 2)))).lin (·.take len)

/-- A key derived from another, in use. -/
def Key.derive (key : Key) (label context : List Byte) (len : Nat) : Key :=
  ⟨kdf (key.sub 0) label context len, key.masks, 1 :: key.lane⟩

/-- Four ASCII bytes of a label. -/
def labelOf (n : Nat) : List Byte := be n 4

/-- KM of a meter (R319): label "KLPM". -/
def meterKey (ka : Key) (eui prov : Nat) : Key := ka.derive (labelOf 0x4B4C504D) (le eui 8 ++ le prov 2) 32

/-- A frame key (R319): label "KLPF". -/
def frameKey (km : Key) (eui epoch purpose dir : Nat) : Key :=
  km.derive (labelOf 0x4B4C5046) (le eui 8 ++ le epoch 2 ++ le purpose 1 ++ le dir 1) 16

/-- The image key (R319): label "KLPI". -/
def imageKey (ka : Key) : Key := ka.derive (labelOf 0x4B4C5049) [] 32

/-- A link key (R319): label "KLPL"; kind 1 is Splice, 2 is Braid. -/
def linkKey (ka : Key) (kind idx : Nat) : Key := ka.derive (labelOf 0x4B4C504C) (le kind 1 ++ le idx 4) 32

/-- The anchor fingerprint (R319): label "KLPA". -/
def anchorPrint (ka : Key) : List Byte := (kdf ka (labelOf 0x4B4C5041) [] 8).value

/-! ### CTR, CCM and GCM -/

/-- The key stream of `n` bytes from a 128-bit big-endian counter block whose low `w` bits count. -/
def keyStream (key : Key) (ctr w n : Nat) : List Byte :=
  ((List.range ((n + 15) / 16)).flatMap (fun i =>
    aesEnc (key.sub i) (be (ctr / 2 ^ w * 2 ^ w + (ctr + i) % 2 ^ w) 16))).take n

/-- Bytes brought to a multiple of 16 with zeros. -/
def pad16 (l : List Byte) : List Byte := l ++ List.replicate ((16 - l.length % 16) % 16) 0

/-- CBC-MAC over whole blocks. -/
def cbcMac (key : Key) (l : List Byte) : List Byte :=
  ((chunks 16 (l.length / 16) l).foldl (fun (c : Nat × Shares) b => (c.1 + 1, (key.sub c.1).enc (c.2.xor ((key.sub c.1).split b))))
    (0, Shares.pub (List.replicate 16 0))).2.value

/-- The tag of CCM (NIST SP 800-38C) before it is enciphered; `q` is the size of the length field. -/
def ccmTag (key : Key) (nonce aad data : List Byte) (tagLen : Nat) : List Byte :=
  let q := 15 - nonce.length
  let flags := (if aad.isEmpty then 0 else 64) + 8 * ((tagLen - 2) / 2) + (q - 1)
  let b0 := le flags 1 ++ nonce ++ be data.length q
  let a := if aad.isEmpty then [] else pad16 (be aad.length 2 ++ aad)
  cbcMac key (b0 ++ a ++ pad16 data)

/-- The first counter block of CCM, with counter `i`. -/
def ccmCtr (nonce : List Byte) (i : Nat) : Nat :=
  let q := 15 - nonce.length
  beNum (le (q - 1) 1 ++ nonce ++ be i q)

/-- CCM encryption: the enciphered data and the tag. -/
def ccmEnc (key : Key) (nonce aad data : List Byte) (tagLen : Nat) : List Byte × List Byte :=
  let w := 8 * (15 - nonce.length)
  (xorL data (keyStream (key.sub 0) (ccmCtr nonce 1) w data.length),
   (xorL (ccmTag (key.sub 1) nonce aad data tagLen) (keyStream (key.sub 2) (ccmCtr nonce 0) w 16)).take tagLen)

/-- CCM decryption: the data, and whether the tag verifies. -/
def ccmDec (key : Key) (nonce aad data tag : List Byte) : List Byte × Bool :=
  let w := 8 * (15 - nonce.length)
  let p := xorL data (keyStream (key.sub 0) (ccmCtr nonce 1) w data.length)
  (p, (xorL (ccmTag (key.sub 1) nonce aad p tag.length) (keyStream (key.sub 2) (ccmCtr nonce 0) w 16)).take tag.length == tag)

/-- Multiplication in the field of GHASH, over the `n` most significant bits left of `x`. -/
def ghMul (x y : BitVec 128) : Nat → BitVec 128
  | 0 => 0
  | n + 1 =>
    let y' := if y.getLsbD 0 then (y >>> 1) ^^^ ((0xE1#128) <<< 120) else y >>> 1
    (if x.msb then y else 0) ^^^ ghMul (x <<< 1) y' n

/-- GHASH over whole blocks. -/
def ghash (h : BitVec 128) (l : List Byte) : BitVec 128 :=
  (chunks 16 (l.length / 16) l).foldl (fun y b => ghMul (y ^^^ BitVec.ofNat 128 (beNum b)) h 128) 0

/-- The tag of GCM with a 12-byte IV. -/
def gcmTag (key : Key) (iv aad cipher : List Byte) : List Byte :=
  let h := BitVec.ofNat 128 (beNum (aesEnc (key.sub 0) (List.replicate 16 0)))
  let s := ghash h (pad16 aad ++ pad16 cipher ++ be (8 * aad.length) 8 ++ be (8 * cipher.length) 8)
  xorL (be s.toNat 16) (aesEnc (key.sub 1) (iv ++ be 1 4))

/-- The key stream of GCM. -/
def gcmStream (key : Key) (iv : List Byte) (n : Nat) : List Byte := keyStream (key.sub 2) (beNum (iv ++ be 2 4)) 32 n

/-- GCM encryption: the enciphered data and the 16-byte tag. -/
def gcmEnc (key : Key) (iv aad data : List Byte) : List Byte × List Byte :=
  let c := xorL data (gcmStream key iv data.length)
  (c, gcmTag key iv aad c)

/-- GCM decryption: the data, and whether the tag verifies. -/
def gcmDec (key : Key) (iv aad data tag : List Byte) : List Byte × Bool :=
  (xorL data (gcmStream key iv data.length), (gcmTag key iv aad data).take tag.length == tag)

/-! ### Keys in use (R331, R332) -/

/-- The mask bytes of the engine's next work. -/
def State.masks (s : State) : Masks := Config.mask s.free

/-- A work has drawn its masks: the next one draws others.  DESIGN CHOICE, log entry 116: it counts as one request (R332). -/
def State.maskUse (s : State) : State := { s with free := s.free + 1, cip := { s.cip with drbgUsed := s.cip.drbgUsed + 1 } }

/-- A key that comes in from outside, as it is stored. -/
def State.share (s : State) (l : List Byte) : Shares := (Shares.pub l).remask s.masks [0]

/-- A stored key remasked, as it is stored after a use. -/
def State.remasked (s : State) (x : Shares) : Shares := x.remask s.masks [1]

/-- A stored key in use. -/
def State.useKey (s : State) (x : Shares) : Key := ⟨s.remasked x, s.masks, [2]⟩

/-! ### CRC-32C -/

/-- One bit into the reflected CRC-32C. -/
def crc32cBit (crc : BitVec 32) (b : Bool) : BitVec 32 :=
  if crc.getLsbD 0 != b then (crc >>> 1) ^^^ 0x82F63B78#32 else crc >>> 1

/-- The CRC-32C of bytes. -/
def crc32c (l : List Byte) : BitVec 32 :=
  ~~~ (l.foldl (fun c b => (List.range 8).foldl (fun c k => crc32cBit c (b.getLsbD k)) c) 0xFFFFFFFF#32)

end Sys2Proof.Machine
end

