-- ==== Sys2Proof/Machine/Taps.lean ====
section
/-! DEFINITION. The copies of the data streams that check units read (R351, R352).  What passes on a stream is kept for the windows that
wait or run on it, a marker unit at a time. -/
namespace Sys2Proof.Machine
open Sys2Proof

/-- Byte offset of check unit `u`'s registers (R361). -/
def chkO (u : Nat) : Nat := 0x40 * u

/-- What the window of unit `u` has taken of its stream, in marker units. -/
def State.chkTaken (s : State) (u : Nat) : List (List Byte) := tget (fun _ => []) s.chkSeen u

/-- The state with what unit `u` has taken replaced. -/
def State.chkKeep (s : State) (u : Nat) (l : List (List Byte)) : State := { s with chkSeen := tset (fun _ => []) s.chkSeen u l }

/-- `CHK_BYTES` shows the bytes of the window that runs (R361). -/
def State.chkCount (s : State) (u : Nat) : State :=
  s.put F.CHK_BYTES_BYTES (chkO u) (min 0xFFFFFFFF (s.chkTaken u).flatten.length)

/-- Unit `u`, whose window waits or runs, takes instance `sel` of a stream (R352).  Of stream 3, instance 0 is what belongs to no named
instance. -/
def State.chkHears (s : State) (u stream sel : Nat) : Bool :=
  let o := chkO u
  let st := s.get F.CHK_STATUS_STATE o
  let k := s.get F.CHK_SEL_SELECT o
  s.get F.CHK_CFG_STREAM o == stream && (st == 1 || st == 2) && s.get F.CHK_STATUS_OWNER o == 0
    && (match stream with
      | 2 => k == sel || k == 0xFFFF
      | 3 => k == sel || k == 0
      | 7 | 8 | 11 => true
      | _ => k == sel)

/-- A marker unit, or some bytes of a stream without them, passes on instance `sel` of a stream: the stream itself is left as it is
(R351). -/
def State.snoop (s : State) (stream sel : Nat) (bytes : List Byte) : State :=
  (List.range 16).foldl (fun (s : State) u =>
    if s.chkHears u stream sel then
      let s := s.chkKeep u (s.chkTaken u ++ [bytes])
      if s.get F.CHK_STATUS_STATE (chkO u) = 2 then s.chkCount u else s
    else s) s

end Sys2Proof.Machine
end

