-- ==== Sys2Proof/Machine/Store.lean ====
section
/-! DEFINITION. The session engine's memory: slots and contexts (R215, R216, R224 to R228), the cache (R229, R230), leases
(R231 to R234), the journal (R235 to R238), the mirror of changes to a Splice partner (R376), and command responses
(R416). -/
namespace Sys2Proof.Machine
open Sys2Proof

/-! ### Slots and contexts -/

/-- A memory byte that nothing has written. -/
def zeroB (_ : Nat) : Byte := 0

/-- The entries of a table with keys from `lo` on and below `hi` replaced by `mid`. -/
def tsplice {α : Type} (lo hi : Nat) (mid t : Table α) : Table α :=
  t.filter (fun e => decide (e.1 < lo)) ++ mid ++ t.filter (fun e => decide (hi ≤ e.1))

/-- The entries of a table with keys from `lo` on and below `hi`. -/
def trange {α : Type} (lo hi : Nat) (t : Table α) : Table α :=
  t.filter (fun e => decide (lo ≤ e.1) && decide (e.1 < hi))

/-- Bytes as table entries from key `a` on; zero bytes are not listed. -/
def cellsOf : Nat → List Byte → Table Byte
  | _, [] => []
  | a, b :: t => if b = 0 then cellsOf (a + 1) t else (a, b) :: cellsOf (a + 1) t

/-- The slot of session `k`. -/
def State.slot (s : State) (k : Nat) : Slot := tget Slot.init s.slots k

/-- The state with the slot of session `k` changed by `f`. -/
def State.onSlot (s : State) (k : Nat) (f : Slot → Slot) : State :=
  { s with slots := tset Slot.init s.slots k (f (s.slot k)) }

/-- A slot in use: not FREE. -/
def State.slotUsed (s : State) (k : Nat) : Bool := (s.slot k).st != 0

/-- The number of priority sessions (R217). -/
def State.prioCount (s : State) : Nat := (s.slots.filter (fun e => e.2.prio && e.2.st != 0)).length

/-- The cache entry of session `k`. -/
def State.cacheOf (s : State) (k : Nat) : Option CacheE := s.cache.find? (fun e => e.session == k)

/-- The whole context of session `k` is in the cache. -/
def State.cached (s : State) (k : Nat) : Bool := ((s.cacheOf k).map (·.filled)).getD false

/-- The key of byte `off` of session `k`'s context. -/
def ctxKey (k off : Nat) : Nat := 2048 * k + off

/-- Byte `off` of the context as its holder has it: the newest queued update, else the cached byte, else the home copy's
(log entry 21). -/
def State.ctxB (s : State) (k off : Nat) : Byte :=
  match s.jq.reverse.findSome? (fun u =>
      if u.session = k ∧ u.offset ≤ off then u.bytes[off - u.offset]? else none) with
  | some b => b
  | none => if s.cached k then tget zeroB s.ctx (ctxKey k off) else tget zeroB s.home (ctxKey k off)

/-- `n` context bytes as a little-endian number. -/
def State.ctxNum (s : State) (k off n : Nat) : Nat := ofLe ((List.range n).map (fun j => s.ctxB k (off + j)))

/-- `n` context bytes as a signed number. -/
def State.ctxInt (s : State) (k off n : Nat) : Int := signed (8 * n) (s.ctxNum k off n)

/-- `n` context bytes. -/
def State.ctxBytes (s : State) (k off n : Nat) : List Byte := (List.range n).map (fun j => s.ctxB k (off + j))

/-- The cached image of session `k`. -/
def State.ctxImage (s : State) (k : Nat) : List Byte := (List.range 2048).map (fun j => tget zeroB s.ctx (ctxKey k j))

/-- An image with `JSEQ` and then `CRC` filled in (R225). -/
def sealImage (img : List Byte) (jseq : Nat) : List Byte :=
  let i := img.take 16 ++ le jseq 8 ++ img.drop 24
  let z := i.take 4 ++ [0, 0, 0, 0] ++ i.drop 8
  z.take 4 ++ le (crc32c z).toNat 4 ++ z.drop 8

/-- The `CRC` of an image is right (R225). -/
def crcGood (img : List Byte) : Bool :=
  let z := img.take 4 ++ [0, 0, 0, 0] ++ img.drop 8
  decide ((img.drop 4).take 4 = le (crc32c z).toNat 4)

/-- The `JSEQ` of an image (R225). -/
def imageJseq (img : List Byte) : Nat := ofLe ((img.drop 16).take 8)

/-- The `STATE` of an image (R225). -/
def imageState (img : List Byte) : Nat := (img.getD 0 0).toNat % 4

/-- The `ADDRESS` of an image is session `k`'s (R225). -/
def imageOf (img : List Byte) (k : Nat) : Bool := decide (ofLe ((img.drop 0x28).take 2) = k)

/-- The `CRC` and the `ADDRESS` of the image of session `k` are right (R229). -/
def imageGood (img : List Byte) (k : Nat) : Bool := crcGood img && imageOf img k

/-- Bytes of a list replaced from offset `o` on. -/
def patch (l : List Byte) (o : Nat) (b : List Byte) : List Byte := l.take o ++ b ++ l.drop (o + b.length)

/-- The home copy of session `k`. -/
def State.homeImage (s : State) (k : Nat) : List Byte := (List.range 2048).map (fun j => tget zeroB s.home (ctxKey k j))

/-- The home copy of session `k` is written (R221, R236). -/
def State.homePut (s : State) (k : Nat) (img : List Byte) : State :=
  { s with home := tsplice (2048 * k) (2048 * k + 2048) (cellsOf (2048 * k) img) s.home }.snoop 3 1 img

/-- The home copy of session `k` is given up. -/
def State.homeDrop (s : State) (k : Nat) : State := { s with home := tsplice (2048 * k) (2048 * k + 2048) [] s.home }

/-- The 4,096 bytes of the store header (R222): its magic is "KN14STOR". -/
def StoreHdr.bytesOf (h : StoreHdr) : List Byte :=
  let b := padTo 4092 ([0x4B#8, 0x4E#8, 0x31#8, 0x34#8, 0x53#8, 0x54#8, 0x4F#8, 0x52#8] ++ le h.serial 8 ++ le h.gen 4 ++ le 1 4
    ++ le h.capacity 4 ++ le h.jrnTail 8)
  b ++ le (crc32c b).toNat 4

/-- The store header is written (R222). -/
def State.hdrWrite (s : State) (h : StoreHdr) : State :=
  { s with store := some h, hdrTail := h.jrnTail, hdrAt := s.tick }.snoop 3 0 h.bytesOf

/-- Changes the cache entry of session `k`. -/
def State.onCache (s : State) (k : Nat) (f : CacheE → CacheE) : State :=
  { s with cache := s.cache.map (fun e => if e.session == k then f e else e) }

/-- Stores bytes in the cached context; the slot table follows `STATE` and `FLAGS` (R216, R225). -/
def State.ctxStore (s : State) (k off : Nat) (bytes : List Byte) : State :=
  let s := { s with ctx := vaultStore s.ctx (ctxKey k off) bytes }
  let s := s.onCache k (fun e => { e with dirty := true })
  let s := if k ≠ 0 ∧ off = 0 ∧ bytes ≠ [] then s.onSlot k (fun x => { x with st := (bytes.headD 0).toNat % 4 }) else s
  if k ≠ 0 ∧ off ≤ 1 ∧ 1 < off + bytes.length then
    let f := (bytes.getD (1 - off) 0).toNat
    s.onSlot k (fun x => { x with prio := f.testBit 0, radio := f.testBit 1 })
  else s

/-! ### The mode of the store -/

/-- Cache-only mode (R249). -/
def State.cacheOnly (s : State) : Bool := s.get F.SES_STATUS_MODE == 1

/-- Updates are journalled: the store is in use and the mode is not cache-only (R235, R249, R532). -/
def State.journals (s : State) : Bool := s.storeOpen && !s.cacheOnly

/-- Class 4 of the planner is suspended (R249, R252); no slot is opened in cache-only mode. -/
def State.assocHeld (s : State) : Bool := s.cacheOnly || s.classHeld

/-- The CXL link is UP. -/
def State.cxlUp (s : State) : Bool := s.get F.CXL_LINK_STAT_STATE == 2

/-! ### The Splice mirror -/

/-- The module sends the owner's messages: it is OWNER and the link is UP (R376). -/
def State.splOwnerUp (s : State) : Bool := s.get F.SPL_STATUS_ROLE == 2 && s.get F.SPL_STATUS_LINK == 2

/-- Queues a message for the Splice partner. -/
def State.splSend (s : State) (kind : Nat) (body : List Byte) : State :=
  { s with splOut := s.splOut ++ [(⟨kind, s.splSeq, s.tick, body⟩ : Msg)], splSeq := s.splSeq + 1 }

/-- Asks the Splice partner for the contexts of sessions (R249 to R251, R381). -/
def State.splAsk (s : State) (ks : List Nat) : State :=
  match ks.head?, ks.getLast? with
  | some a, some z =>
    let want := s.spl.want ++ ks.filter (fun k => !s.spl.want.contains k)
    { s with spl := { s.spl with want := want, wantAt := s.tick } }.splSend 0x19 (le a 2 ++ le z 2)
  | _, _ => s

/-- The Splice flags of the Vault (R396), with waiting writes: bit 0 `WAS_OWNER`, 1 `PAIRED`, 2 `MIRROR_OK`. -/
def State.splFlags (s : State) : Nat := s.vaultSoonNum 0x10010C 4

/-- Sets or clears a Splice flag of the Vault. -/
def State.setSplFlag (s : State) (b : Nat) (on : Bool) : State :=
  let n := s.splFlags
  if n.testBit b = on then s else s.vaultWrite 0x10010C (le (if on then n + 2 ^ b else n - 2 ^ b) 4)

/-- Mirrors a context change: for sessions below the cursor while a bulk transfer runs (R376, R378). -/
def State.splJrn (s : State) (k : Nat) (entry : List Byte) : State :=
  let due := match s.bulk with | none => true | some c => decide (k < c)
  if s.splOwnerUp && due then s.splSend 0x11 entry else s

/-- The Vault entry of session `k` as a VAULT message carries it (R376); a member of a pair whose link is down keeps it unacknowledged
(R377). -/
def State.splVault (s : State) (k : Nat) : State :=
  if s.splOwnerUp || (s.get F.SPL_STATUS_ROLE == 2 && s.bit F.SPL_STATUS_PAIRED) then
    s.splSend 0x12 (le k 2 ++ (List.range 16).map (fun j =>
      if j < 8 then s.vaultByte (8 * k + j) else s.vaultByte (0x080000 + 8 * k + (j - 8))))
  else s

/-! ### Leases -/

/-- The lease on session `k` in force. -/
def State.leaseOf (s : State) (k : Nat) : Option Lease := s.leases.find? (fun l => l.session == k)

/-- Holder `h` has the lease on session `k`. -/
def State.leasedBy (s : State) (k h : Nat) : Bool := ((s.leaseOf k).map (fun l => l.holder == h)).getD false

/-- The ticks of `SES_LEASE_CFG.TIME`. -/
def State.leaseTicks (s : State) : Nat := msTicks (s.get F.SES_LEASE_CFG_TIME)

/-- The holder's access renews its lease (R232). -/
def State.leaseTouch (s : State) (k : Nat) : State :=
  { s with leases := s.leases.map (fun l => if l.session == k then { l with expires := s.tick + s.leaseTicks } else l) }

/-- A context that can be leased: wholly cached, not being rebuilt, and not leased (R232). -/
def State.leaseFree (s : State) (k : Nat) : Bool := s.cached k && !s.rebuilds.contains k && (s.leaseOf k).isNone

/-- Grants the lease on session `k` to holder `h`, with the next identifier. -/
def State.leaseGive (s : State) (k h : Nat) : State :=
  let s := s.onCache k (fun e => { e with lastLease := s.tick })
  { s with
    leases := s.leases ++ [⟨k, s.leaseNext, h, s.tick + s.leaseTicks⟩], leaseNext := (s.leaseNext + 1) % 65536 }

/-- The oldest waiting request on session `k` is granted if the context can be leased (R232, R233). -/
def State.grantNext (s : State) (k : Nat) : State :=
  match s.leaseQ.find? (fun q => q.session == k) with
  | some q => if s.leaseFree k then { s with leaseQ := s.leaseQ.erase q }.leaseGive k q.holder else s
  | none => s

/-- A lease of session `k` for holder `h` at once: the one it has, or a free one that no request waits for. -/
def State.leaseTry (s : State) (k h : Nat) : State × Bool :=
  if s.leasedBy k h then (s.leaseTouch k, true)
  else if s.leaseFree k && !s.leaseQ.any (fun q => q.session == k) then (s.leaseGive k h, true)
  else (s, false)

/-- Ends the lease on session `k`: every queued update that carries it is discarded (R232). -/
def State.leaseDrop (s : State) (k : Nat) : State :=
  match s.leaseOf k with
  | none => s
  | some l => { s with
      leases := s.leases.filter (fun x => x.session != k),
      jq := s.jq.filter (fun u => !(u.session == k && u.lease == some l.id)) }

/-! ### The cache -/

/-- An entry that may be evicted: neither leased, nor being filled or rebuilt, nor about to be leased (R230, R254). -/
def State.evictable (s : State) (e : CacheE) : Bool :=
  e.session != 0 && e.filled && (s.leaseOf e.session).isNone && !s.rebuilds.contains e.session
    && !s.leaseQ.any (fun q => q.session == e.session)

/-- The entry of oldest last lease, the first among equals. -/
def oldestEntry : List CacheE → Option CacheE
  | [] => none
  | e :: t => match oldestEntry t with
    | none => some e
    | some x => if x.lastLease < e.lastLease then some x else some e

/-- The victim of an eviction (R230): a standard session first. -/
def State.victim (s : State) : Option CacheE :=
  let can := s.cache.filter s.evictable
  match oldestEntry (can.filter (fun e => !(s.slot e.session).prio)) with
  | some e => some e
  | none => oldestEntry can

/-- Queues a write-back of session `k` (R236). -/
def State.writeBack (s : State) (k : Nat) : State := if s.wbq.contains k then s else { s with wbq := s.wbq ++ [k] }

/-- The entry of session `k` leaves the cache. -/
def State.evict (s : State) (k : Nat) : State :=
  { s with
    cache := s.cache.filter (fun e => e.session != k), ctx := tsplice (2048 * k) (2048 * k + 2048) [] s.ctx
  }.incWrap F.SES_CACHE_CNT_EVICTIONS

/-- The entries of the cache: 4,096, less 8 for each segment that is out of use (R229, R483). -/
def State.cacheRoom (s : State) : Nat :=
  4096 - 8 * ((List.range 512).filter (fun g => (s.vaultSoon (0x100820 + g / 8)).getLsbD (g % 8))).length

/-- Finds an entry for session `k` (R230); a dirty victim is written back first, and in cache-only mode nothing is
evicted (R249).  The flag says that the entry is there. -/
def State.allocEntry (s : State) (k : Nat) : State × Bool :=
  let new := fun (s : State) => ({ s with cache := s.cache ++ [(⟨k, false, s.tick, false⟩ : CacheE)] }, true)
  if (s.cacheOf k).isSome then (s, true)
  else if s.cache.length < s.cacheRoom then new s
  else if s.cacheOnly then (s, false)
  else match s.victim with
    | none => (s, false)
    | some v => if v.dirty || s.wbq.contains v.session then (s.writeBack v.session, false) else new (s.evict v.session)

/-- The waiting fills take entries as far as there are any (R230). -/
def State.fillsGo (s : State) : State := s.fills.foldl (fun s k => (s.allocEntry k).1) s

/-- A fill of session `k` starts, or waits for an entry (R229, R230).  The slot of a session without an accessible context
takes an empty entry: its context is about to be written. -/
def State.fillStart (s : State) (k : Nat) : State :=
  if s.cached k || s.fills.contains k || s.rebuilds.contains k then s
  else
    let st := (s.slot k).st
    if st = 0 ∨ st = 3 then
      let r := s.allocEntry k
      if r.2 then
        { r.1.onCache k (fun e => { e with filled := true }) with
          ctx := tsplice (2048 * k) (2048 * k + 2048) [] s.ctx }
      else r.1
    else if s.cacheOnly then s
    else { s with fills := s.fills ++ [k] }.fillsGo

/-- A request of holder `h` for the lease on session `k` (R229, R233). -/
def State.leaseAsk (s : State) (k h : Nat) : State :=
  if s.leasedBy k h then s.leaseTouch k
  else
    let s := { s with leaseQ := s.leaseQ ++ [(⟨k, h, s.tick⟩ : LeaseReq)] }.fillStart k
    s.grantNext k

/-! ### The journal -/

/-- The journal ring in 64-byte units (R235). -/
def ringUnits : Nat := 1048576

/-- The units of an entry with `n` data bytes (R235). -/
def entryUnits (n : Nat) : Nat := (28 + n + 63) / 64

/-- The units in use. -/
def State.jrnUsed (s : State) : Nat := s.jrn.foldl (fun (n : Nat) e => n + e.units) 0

/-- Journal fill, percent (R237). -/
def State.jrnFill (s : State) : Nat := 100 * s.jrnUsed / ringUnits

/-- The units of the PAD entry that must precede an entry of `u` units (R235). -/
def State.padUnits (s : State) (u : Nat) : Nat := if ringUnits < s.jrnPos + u then ringUnits - s.jrnPos else 0

/-- The ring has room for an entry of `n` data bytes. -/
def State.jrnRoom (s : State) (n : Nat) : Bool :=
  let u := entryUnits n
  decide (s.jrnUsed + s.padUnits u + u ≤ ringUnits)

/-- A journal entry as it stands in the ring (R235), padded to a multiple of 64 bytes. -/
def JEntry.bytesOf (e : JEntry) : List Byte :=
  let prev := match e.prev with | some p => p | none => 0xFFFFFFFF
  let len := if e.kind = 3 then e.units else e.bytes.length
  let b := le e.seq 8 ++ le e.session 2 ++ le e.kind 1 ++ le e.holder 1 ++ le e.offset 2 ++ le len 2 ++ le prev 4
    ++ [0, 0, 0, 0] ++ e.bytes
  padTo (64 * e.units) (b ++ le (crc32c b).toNat 4)

/-- An entry is written to the ring of the journal, at its tail (R235). -/
def State.jrnWrite (s : State) (e : JEntry) : State := { s with jrn := s.jrn ++ [e], jrnSeq := s.jrnSeq + 1 }.snoop 3 2 e.bytesOf

/-- Appends an entry to the journal, behind a PAD where it would pass the end of the ring (R235). -/
def State.jrnAppend (s : State) (kind k holder off : Nat) (bytes : List Byte) : State :=
  let u := entryUnits bytes.length
  let pad := s.padUnits u
  let s := if pad = 0 then s
    else { s.jrnWrite ⟨s.jrnSeq, 0, 3, holder, 0, [], none, s.jrnPos, pad, true⟩ with jrnPos := 0 }
  let prev := match (s.slot k).newest with
    | some q => (s.jrn.find? (fun e => e.seq == q)).map (·.pos)
    | none => none
  let e : JEntry := ⟨s.jrnSeq, k, kind, holder, off, bytes, prev, s.jrnPos, u, false⟩
  let s := { s.jrnWrite e with jrnPos := if s.jrnPos + u = ringUnits then 0 else s.jrnPos + u }
  (s.onSlot k (fun x => { x with newest := some e.seq })).splJrn k e.bytesOf

/-- Entries at the tail that are releasable leave the journal (R236). -/
def State.jrnTrim (s : State) : State := { s with jrn := s.jrn.dropWhile (·.free) }

/-- The sequence number at or before the oldest needed entry (R222). -/
def State.jrnTail (s : State) : Nat := (s.jrn.head?.map (·.seq)).getD s.jrnSeq

/-- An update of a context by holder `h` (R235): journalled before it takes effect, or applied at once and mirrored where no
journal is written (R249, R532).  Without the lease it is refused (R232). -/
def State.ctxUpdate (s : State) (k off : Nat) (bytes : List Byte) (h : Nat) (follow : List Rec := []) (kind : Nat := 0) :
    State :=
  if !s.leasedBy k h || bytes.isEmpty then s
  else
    let s := s.leaseTouch k
    if s.journals then
      let waits := !s.jrnRoom bytes.length || s.jq.any (·.waits)
      { s with jq := s.jq ++ [(⟨k, kind, h, (s.leaseOf k).map (·.id), off, bytes, follow, waits⟩ : JUpd)] }
    else
      let s := s.ctxStore k off bytes
      let e : JEntry := ⟨s.jrnSeq, k, kind, h, off, bytes, none, 0, entryUnits bytes.length, true⟩
      let s := { s with jrnSeq := s.jrnSeq + 1 }.splJrn k e.bytesOf
      { s with outq := s.outq ++ follow }

/-- An entry of kind `kind` that the engine makes of itself, under no lease, waits for the ring (R235, R237). -/
def State.jrnOwn (s : State) (kind k holder off : Nat) (bytes : List Byte) : State :=
  let waits := !s.jrnRoom bytes.length || s.jq.any (·.waits)
  { s with jq := s.jq ++ [(⟨k, kind, holder, none, off, bytes, [], waits⟩ : JUpd)] }

/-- An update of a context that the engine makes of itself, under no lease (R235, R346, R374): of a cached one, or of the home copy. -/
def State.ctxOwn (s : State) (k off : Nat) (bytes : List Byte) : State :=
  let st := (s.slot k).st
  if bytes.isEmpty || (!s.cached k && st != 1 && st != 2) then s
  else if s.journals then s.jrnOwn 0 k 0 off bytes
  else if !s.cached k then s
  else
    let s := s.ctxStore k off bytes
    let e : JEntry := ⟨s.jrnSeq, k, 0, 0, off, bytes, none, 0, entryUnits bytes.length, true⟩
    { s with jrnSeq := s.jrnSeq + 1 }.splJrn k e.bytesOf

/-- An update of one little-endian field. -/
def State.ctxPut (s : State) (k off n v h : Nat) : State := s.ctxUpdate k off (le v n) h

/-- A wrapping 32-bit counter of the context. -/
def State.ctxInc (s : State) (k off h : Nat) : State := s.ctxPut k off 4 (s.ctxNum k off 4 + 1) h

/-- Whether an update of session `k` waits for its journal entry. -/
def State.jqHas (s : State) (k : Nat) : Bool := s.jq.any (fun u => u.session == k)

/-- What was done under the lease on session `k` is not complete: an update waits for its journal entry, or a frame for the counter that
a reservation gives it (R338). -/
def State.leaseBusy (s : State) (k : Nat) : Bool := s.jqHas k || s.cip.txWait.any (fun x => x.1 == k)

/-! ### Contexts lost and restored -/

/-- Session `k` becomes PARKED: its context is not accessible (R215).  Slot 0x0000 is always ACTIVE. -/
def State.park (s : State) (k : Nat) : State :=
  if k = 0 then s
  else
    let s := s.onSlot k (fun x => { x with st := 3 })
    { s with
      cache := s.cache.filter (fun e => e.session != k), fills := s.fills.filter (· != k),
      rebuilds := s.rebuilds.filter (· != k), wbq := s.wbq.filter (· != k), ctx := tsplice (2048 * k) (2048 * k + 2048) [] s.ctx }

/-- Slot `k` is FREE and holds no context: its home copy is given up, so that a context opened in it later has its own CHECKPOINT as
base (R215, R238; DEDUCED, log entry 142). -/
def State.slotGone (s : State) (k : Nat) : State :=
  (s.homeDrop k).onSlot k (fun x => { x with st := 0, prio := false, radio := false })

/-- The PARKED sessions in ascending short address. -/
def State.parkedList (s : State) : List Nat := (s.slots.filter (fun e => e.2.st == 3)).map (·.1)

/-- `SES_RESTORE_STAT.REMAINING` shows the slots that await head-end restore (DESIGN CHOICE, log entry 137: not those asked of the
partner; `RESTORED` counts neither a slot that a retained store brings back). -/
def State.restoreShow (s : State) : State := s.put F.SES_RESTORE_STAT_REMAINING 0 (min s.restoreQ.length 65535)

/-- The end of a restore, when no slot is PARKED or awaits one any more (R250 to R252; DESIGN CHOICE, log entry 138: EV138 ends the
restore of a single lost context too). -/
def State.restoreEnd (s : State) : State :=
  if s.restoreQ.isEmpty && s.spl.want.isEmpty && s.parkedList.isEmpty && (s.get F.SES_STATUS_MODE == 2 || s.restoring) then
    let s := if s.get F.SES_STATUS_MODE = 2 then (s.put F.SES_STATUS_MODE 0 0).clearReason 7 else s
    { s with waitEnd := none, classHeld := false, restoring := false }.raise Ev.RESTORE_DONE 0
  else s

/-- Session `k` awaits its restore no more (R250, R252). -/
def State.restoreOff (s : State) (k : Nat) : State :=
  if s.restoreQ.contains k || s.spl.want.contains k then
    { s with restoreQ := s.restoreQ.filter (· != k), spl := { s.spl with want := s.spl.want.filter (· != k) } }.restoreShow.restoreEnd
  else s

/-- A head-end restore begins for the sessions `ks` (R252). -/
def State.headendRestore (s : State) (ks : List Nat) : State :=
  let q := s.restoreQ ++ ks.filter (fun k => !s.restoreQ.contains k)
  let s := { s with
    restoreQ := q, waitEnd := some (s.tick + sTicks (s.get F.SES_RESTORE_CFG_HEADEND_WAIT)), classHeld := true,
    restoring := true }.restoreShow
  if q.isEmpty then s.restoreEnd else s.raise Ev.RESTORE_NEEDED q.length

/-- A context is lost: PARKED and EV139 (R238, R249); while the store is in use it is restored alone by the head-end (R252).  Slot 0x0000
is never lost. -/
def State.ctxLost (s : State) (k : Nat) : State :=
  if k = 0 then s
  else
    let s := (s.park k).raise Ev.CTX_LOST k
    if s.cacheOnly then s else s.headendRestore [k]

/-- Revocation of the lease on session `k` (R234): the holder's updates without a journal entry are discarded with the lease,
the cached copy is discarded and rebuilt, and the waiting request is granted the rebuilt context.  In cache-only mode the
context is asked of the Splice partner (R249).  Slot 0x0000, which is always in the cache (R215), keeps its copy. -/
def State.revoke (s : State) (k : Nat) : State :=
  match s.leaseOf k with
  | none => s
  | some l =>
    let flight : List JUpd := match s.jq with
      | u :: _ => if u.session = k ∧ !u.waits ∧ u.lease = some l.id then [{ u with lease := none }] else []
      | [] => []
    let s := s.leaseDrop k
    let s := { s with jq := if s.cacheOnly then s.jq else flight ++ s.jq }
    let s := s.incSat F.SES_LEASE_CNT_REVOKED
    let s := s.raiseLogged Ev.LEASE_REVOKED k 0x12 0 (le k 2 ++ le l.holder 1 ++ [0] ++ le l.id 2)
    if k = 0 then s.grantNext 0
    else if s.cacheOnly then
      let s := s.park k
      if s.get F.SPL_STATUS_LINK = 2 then s.splAsk [k] else s.ctxLost k
    else
      let s := s.onCache k (fun e => { e with filled := false })
      if s.rebuilds.contains k then s else { s with rebuilds := s.rebuilds ++ [k] }

/-! ### Command responses -/

/-- The body of a COMMAND_RESPONSE record (R411). -/
def responseBody (id op result : Nat) (data : List Byte) : List Byte :=
  le id 4 ++ le op 1 ++ le result 1 ++ le data.length 2 ++ data

/-- The COMMAND_RESPONSE record. -/
def State.responseRec (s : State) (id op result session : Nat) (data : List Byte) : Rec :=
  ⟨1, 0x05, session, s.tick, responseBody id op result data, [], 0, 0, 0⟩

/-- A command is completed: its final response is kept among the last 256 (R417). -/
def State.cmdKeep (s : State) (id : Nat) (body : List Byte) : State :=
  { s with cmdDone := ((id, body) :: s.cmdDone).take 256 }

/-- Answers a command, finally unless the result is QUEUED (R416, R417). -/
def State.respond (s : State) (id op result session : Nat) (data : List Byte) : State :=
  let s := { s with outq := s.outq ++ [s.responseRec id op result session data] }
  if op = 1 ∧ result = 1 then s else s.cmdKeep id (responseBody id op result data)

end Sys2Proof.Machine
end

