-- ==== Sys2Proof/Machine/Counters.lean ====
section
/-! DEFINITION. Keys, counters and epochs of a session (R321 to R324, R337 to R345), and the building of secured frames
(R322, R143). -/
namespace Sys2Proof.Machine
open Sys2Proof

/-! ### Fields of a session -/

/-- The negotiated version, 0 = v1 to 3 = v4 (R225). -/
def State.verOf (s : State) (k : Nat) : Nat := s.ctxNum k 0x002 1 % 4
/-- The meter's EUI. -/
def State.euiOf (s : State) (k : Nat) : Nat := s.ctxNum k 0x008 8
/-- The cipher state (R337). -/
def State.cstate (s : State) (k : Nat) : Nat := s.ctxNum k 0x180 1 % 8
/-- The epoch in force. -/
def State.epochOf (s : State) (k : Nat) : Nat := s.ctxNum k 0x182 2
/-- The provisioning index. -/
def State.provOf (s : State) (k : Nat) : Nat := s.ctxNum k 0x184 2
/-- The number of REKEY frames sent (R342): the Vault's value, with waiting writes; where a commit stopped behind its first step, the
context's, since the session stays in its state (R347). -/
def State.rekeySent (s : State) (k : Nat) : Nat :=
  if s.vaultSoonNum (0x080000 + 8 * k) 2 = s.epochOf k + 1 then s.ctxNum k 0x186 2 % 4096
  else s.vaultSoonNum (0x080000 + 8 * k + 4) 2 % 4096
/-- A radio session (R225). -/
def State.isRadio (s : State) (k : Nat) : Bool := (s.slot k).radio
/-- The cord of a line session (R226). -/
def State.cordOf (s : State) (k : Nat) : Nat := s.ctxNum k 0x041 1 % 16
/-- The planner that runs cord `c` (R182, R231): holder 1 or 2. -/
def plannerOf (c : Nat) : Nat := if c < 5 then 1 else 2
/-- The planner that runs line association, for all cords (R24, R182). -/
def assocHolder : Nat := 2

/-- The holder that serves a session's exchanges: its cord's planner, or the radio coordinator; a session whose line association is in
progress is core 2's (R24, R182). -/
def State.servant (s : State) (k : Nat) : Nat :=
  if s.isRadio k then 3 else if s.assocs.any (fun a => a.session == k) then assocHolder else plannerOf (s.cordOf k)

/-- An access of an agent of the holder that serves session `k` renews its lease (R231, R232). -/
def State.agentTouch (s : State) (k : Nat) : State :=
  if s.leasedBy k (s.servant k) || s.leasedBy k 7 then s.leaseTouch k else s

/-! ### Cipher states -/

/-- The cipher state becomes `c`. -/
def State.setCstate (s : State) (k c h : Nat) : State :=
  s.ctxPut k 0x180 1 (s.ctxNum k 0x180 1 / 8 * 8 + c) h

/-- A line session's REKEY waits in class 1 (R187, R342). -/
def State.rekeyPlan (s : State) (k : Nat) : State :=
  if s.isRadio k || s.planQ.any (fun q => q.session == k && q.cls == 1) then s
  else { s with planQ := s.planQ ++ [(⟨k, 1, 4, 1, s.tick, false, false⟩ : PReq)] }

/-- A session still to be rekeyed stays in class 1 when its attempts are used up, and after a restore (R187, R337, R342).  DESIGN
CHOICE, log entry 133: at once, and one that is UNREACHABLE only when it must be. -/
def State.rekeyAgain (s : State) (k : Nat) : State :=
  let c := s.cstate k
  if (s.slot k).st = 2 ∧ s.verOf k = 3 ∧ (c = 2 ∨ (c = 1 ∧ s.ctxNum k 0x041 1 / 64 ≠ 2)) then s.rekeyPlan k else s

/-- Entry to REPROVISION (R337). -/
def State.enterReprovision (s : State) (k h : Nat) : State :=
  (s.setCstate k 5 h).raise Ev.REPROVISION_NEEDED k

/-- Entry to REKEY_DUE or REJOIN_DUE, from NORMAL only (R337). -/
def State.enterDue (s : State) (k h : Nat) : State :=
  if s.cstate k ≠ 0 then s
  else if s.verOf k = 3 then
    let s := ((s.setCstate k 1 h).raise Ev.REKEY_DUE k).rekeyPlan k
    s.raiseIf (s.epochOf k == 0xFFFF) Ev.REPROVISION_NEEDED k
  else (s.setCstate k 3 h).raise Ev.REKEY_DUE k

/-- Entry to REKEY_REQUIRED, REJOIN_REQUIRED or REPROVISION, when a counter would exceed its last value (R337, R342). -/
def State.enterRequired (s : State) (k h : Nat) : State :=
  let c := s.cstate k
  if s.verOf k = 3 then
    if s.epochOf k = 0xFFFF ∨ s.rekeySent k = 4095 then (if c = 5 then s else s.enterReprovision k h)
    else if 2 ≤ c then s
    else (s.setCstate k 2 h).rekeyPlan k
  else if c = 4 ∨ c = 5 then s
  else s.setCstate k 4 h

/-- A session in REKEY_REQUIRED whose last REKEY counter is used, and whose last REKEY drew no answer, enters REPROVISION (R337, R342).
DEDUCED, log entry 118: when that REKEY's exchange has ended. -/
def State.rekeySpent (s : State) (k h : Nat) : State :=
  if s.verOf k = 3 ∧ s.cstate k = 2 ∧ (s.epochOf k = 0xFFFF ∨ s.rekeySent k = 4095) then s.enterReprovision k h else s

/-! ### Keys -/

/-- The engine computes: its entropy source is good, it is not fenced, and no anchor is being programmed (R316, R332, R334). -/
def State.engineUp (s : State) : Bool :=
  s.bit F.CIP_STATUS_ENTROPY_OK && !s.bit F.CIP_STATUS_FENCED && s.cip.blowing.isNone

/-- Work of kind `n` may complete: the engine computes, or the work was in progress when the entropy source failed (R347). -/
def State.workUp (s : State) (n : Nat) : Bool := s.engineUp || s.cip.flight == n

/-- Keys can be derived: the anchor is programmed and the engine computes (R317). -/
def State.cipherUp (s : State) : Bool := s.bit F.CIP_STATUS_ANCHOR && s.engineUp

/-- Frame-path CCM waits and can run (R27, R332). -/
def State.ccmWaits (s : State) : Bool := !s.macWait.isEmpty && s.workUp 1

/-- The registers show the anchor that the fuses hold (R316, R319). -/
def State.anchorShow (s : State) : State :=
  let fp := match s.anchor with | some ka => anchorPrint (s.useKey ka) | none => List.replicate 8 0
  let s := s.putB F.CIP_STATUS_ANCHOR 0 s.anchor.isSome
  (s.put F.CIP_FINGERPRINT_LO_FP 0 (ofLe (fp.take 4))).put F.CIP_FINGERPRINT_HI_FP 0 (ofLe (fp.drop 4))

/-- The frame key of a tag, derived from the anchor (R319). -/
def State.deriveKey (s : State) (t : KeyTag) : Key :=
  frameKey (meterKey (s.useKey (s.anchor.getD ⟨[], []⟩)) t.eui t.prov) t.eui t.epoch t.purpose t.dir

/-- The frame key of a tag in use (R319, R321): the cached one, or derived. -/
def State.keyOf (s : State) (t : KeyTag) : Key :=
  match s.keys.find? (fun e => e.tag == t) with
  | some e => s.useKey e.key
  | none => s.deriveKey t

/-- A use of a frame key (R321, R331): a hit remasks its entry and makes it the most recently used; a miss starts a derivation. -/
def State.keyUse (s : State) (t : KeyTag) : State :=
  match s.keys.find? (fun e => e.tag == t) with
  | some e =>
    ({ s with keys := { e with key := s.remasked e.key } :: s.keys.filter (fun x => x.tag != t) }.maskUse).incWrap
      F.CIP_KCACHE_STAT_HITS
  | none =>
    let s := s.maskUse.incWrap F.CIP_KCACHE_STAT_MISSES
    if s.keyq.contains t then s else { s with keyq := s.keyq ++ [t] }

/-- Erases the key cache; a derivation in flight is then not cached (R321). -/
def State.keysErase (s : State) : State :=
  { s with keys := [], keyq := [], cip := { s.cip with flight := if s.cip.flight = 2 then 0 else s.cip.flight } }

/-- Erases the keys of an EUI (R321). -/
def State.keysEraseEui (s : State) (eui : Nat) : State :=
  { s with keys := s.keys.filter (fun e => e.tag.eui != eui), keyq := s.keyq.filter (fun t => t.eui != eui) }

/-- The tags of the keys in use for session `k` (R319, R323, R341, R342): TRAFFIC under its epoch in both directions, REKEY under the
next where it is to be rekeyed, and ASSOC of the meter where it awaits an association. -/
def State.keysFor (s : State) (k : Nat) (assoc : Bool) : List KeyTag :=
  let e := s.epochOf k
  let t := fun (epoch purpose dir : Nat) => (⟨s.euiOf k, s.provOf k, epoch, purpose, dir⟩ : KeyTag)
  let c := s.cstate k
  [t e 0 0, t e 0 1] ++ (if s.verOf k = 3 ∧ (c = 1 ∨ c = 2) ∧ e ≠ 0xFFFF then [t (e + 1) 1 0, t (e + 1) 1 1] else [])
    ++ (if assoc then [t 0 2 1] else [])

/-- The keys of a prefetched context are derived ahead once it is cached (R321). -/
def State.keysAhead (s : State) (k : Nat) : State :=
  if !s.cip.ahead.contains k || !s.cached k then s
  else
    let s := { s with cip := { s.cip with ahead := s.cip.ahead.filter (· != k) } }
    if s.bit F.CIP_CTRL_PREFETCH && s.cipherUp && k != 0 then
      (s.keysFor k (s.assocs.any (fun a => a.session == k) || s.mac.assocs.any (fun a => a.session == k))).foldl
        (fun (s : State) t =>
          if s.keyq.contains t || s.keys.any (fun e => e.tag == t) then s else { s with keyq := s.keyq ++ [t] }) s
    else s

/-- The context of session `k` is prefetched, and its keys with it (R229, R321). -/
def State.prefetch (s : State) (k : Nat) : State :=
  let s := { s with cip := { s.cip with ahead := if s.cip.ahead.contains k then s.cip.ahead else s.cip.ahead ++ [k] } }
  (s.fillStart k).keysAhead k

/-! ### Vault entries of a session -/

/-- The key state as the Vault holds it (R335). -/
def keyStateBytes (epoch prov sent mirror : Nat) : List Byte := le epoch 2 ++ le prov 2 ++ le (sent % 4096) 2 ++ le mirror 1 ++ [0]

/-- TXC of session `k` with waiting writes. -/
def State.txcSoon (s : State) (k : Nat) : Nat := s.vaultSoonNum (8 * k) 4
/-- TXC of session `k` as written. -/
def State.txc (s : State) (k : Nat) : Nat := s.vaultNum (8 * k) 4
/-- RXM of session `k` as written. -/
def State.rxm (s : State) (k : Nat) : Nat := s.vaultNum (8 * k + 4) 4

/-- A VAULT message of session `k` waits for the partner's acknowledgement (R377). -/
def State.vaultUnacked (s : State) (k : Nat) : Bool :=
  s.bit F.SPL_STATUS_PAIRED && s.splOut.any (fun m => m.kind == 0x12 && ofLe (m.body.take 2) == k)

/-- A reservation of TXC waits or is in progress. -/
def State.txReserving (s : State) (k : Nat) : Bool := s.txcSoon k != s.txc k

/-- The next transmit counter: tx_next, or behind those of the frames that wait for a reservation (R338). -/
def State.txNext (s : State) (k : Nat) : Nat :=
  s.cip.txWait.foldl (fun (n : Nat) x => if x.1 = k then max n (x.2 + 1) else n) (s.ctxNum k 0x188 4)

/-- Starts a reservation of the next block of transmit counters (R338), above tx_next where that lies beyond the ceiling (R345), unless one is under way or the partner has not
acknowledged the previous write (R377). -/
def State.txReserve (s : State) (k : Nat) : State :=
  if s.txReserving k || s.vaultUnacked k then s
  else
    let past := s.txNext k - s.txc k
    let n := min (s.txc k + 4096 * (1 + past / 4096)) 0xFFFFFFFF
    if n = s.txc k then s else s.vaultWrite (8 * k) (le n 4) (.reserve k 0 n)

/-- With tx_next at `c` the next reservation of session `k` is due (R338). -/
def State.txLow (s : State) (k c : Nat) : Bool := decide (s.txc k ≤ c + s.get F.CIP_CFG_AHEAD)

/-- Transmit counter `c` of session `k` is used: tx_next follows it, and the cipher state (R338). -/
def State.txUsed (s : State) (k h c : Nat) : State :=
  let s := s.ctxPut k 0x188 4 (c + 1) h
  if 0xFFFFF000 ≤ c then s.enterDue k h else s

/-- Takes the next transmit counter (R338): none when the build is refused; the flag says that the frame waits for a
reservation, and tx_next with it. -/
def State.txTake (s : State) (k h : Nat) : State × Option (Nat × Bool) :=
  let c := s.txNext k
  if 0xFFFFFFFE < c then (((s.raise Ev.NONCE_EXHAUSTED k).enterRequired k h), none)
  else
    let waits := decide (s.txc k ≤ c)
    let s := if waits || s.txLow k (c + 1) then s.txReserve k else s
    if waits then ({ s with cip := { s.cip with txWait := s.cip.txWait ++ [(k, c)] } }, some (c, true))
    else (s.txUsed k h c, some (c, false))

/-! ### Building frames -/

/-- The MPDU of an unsecured frame (R133). -/
def plainMpdu (ftype dest src : Nat) (payload : List Byte) : List Byte :=
  let m := macBytes ⟨ftype, false, false, false, dest, src, 0, 0, 0⟩ ++ payload
  m ++ le (crc32 m).toNat 4

/-- The CCM nonce of a frame (R322). -/
def frameNonce (src counter epoch dir : Nat) : List Byte := le src 2 ++ le counter 4 ++ le epoch 2 ++ le dir 1 ++ [0, 0, 0, 0]

/-- The MPDU of a secured frame from the module (R322, R324, R133): `route` is the route header, if any. -/
def securedMpdu (key : Key) (ftype dest counter epoch purpose : Nat) (route payload : List Byte) : List Byte :=
  let mac := macBytes ⟨ftype, true, false, !route.isEmpty, dest, 0, counter, epoch % 16, purpose⟩
  let e := ccmEnc key (frameNonce 0 counter epoch 0) mac payload 8
  let m := mac ++ route ++ e.1 ++ e.2
  m ++ le (crc32 m).toNat 4

/-- The tag of session `k`'s key. -/
def State.keyTag (s : State) (k epoch purpose dir : Nat) : KeyTag := ⟨s.euiOf k, s.provOf k, epoch, purpose, dir⟩

/-- Builds a secured frame of purpose TRAFFIC for session `k` on the strand of receiver `rx` (R324, R338, R143): the MPDU, and whether it waits for a
reservation; none when the build is refused. -/
def State.buildTraffic (s : State) (rx k h ftype : Nat) (route payload : List Byte) : State × Option (List Byte × Bool) :=
  if 1016 < route.length + payload.length then (s.raise Ev.LENGTH_REJECT rx, none)
  else if !s.cipherUp || s.cstate k == 2 || s.cstate k == 4 || s.cstate k == 5 then (s, none)
  else
    let r := s.txTake k h
    match r.2 with
    | none => (r.1, none)
    | some (c, waits) =>
      let s := r.1
      let t := s.keyTag k (s.epochOf k) 0 0
      (s.keyUse t, some (securedMpdu (s.keyOf t) ftype k c t.epoch 0 route payload, waits))

/-- A REKEY frame can be built for session `k` (R342). -/
def State.rekeyCan (s : State) (k : Nat) : Bool :=
  s.verOf k == 3 && (s.cstate k == 1 || s.cstate k == 2) && s.epochOf k != 0xFFFF && s.rekeySent k != 4095 && s.cipherUp
    && !s.vaultUnacked k

/-- Builds a REKEY frame (R342): `REKEY_SENT` goes to the Vault first, so the frame waits for that write. -/
def State.buildRekey (s : State) (rx k h : Nat) (route header : List Byte) : State × Option (List Byte × Bool) :=
  if !s.rekeyCan k then (s, none)
  else
    let n := s.rekeySent k
    let e := s.epochOf k
    let t := s.keyTag k (e + 1) 1 0
    let payload := header ++ le (e + 1) 2 ++ le (s.provOf k) 2
    if 1016 < route.length + payload.length then (s.raise Ev.LENGTH_REJECT rx, none)
    else
      let mpdu := securedMpdu (s.keyOf t) 9 k n (e + 1) 1 route payload
      let s := s.vaultWrite (0x080000 + 8 * k) (keyStateBytes e (s.provOf k) (n + 1) 0) (.keyState k)
      let s := s.ctxPut k 0x186 2 (n + 1) h
      (s.keyUse t, some (mpdu, true))

/-! ### The receive side -/

/-- The frame awaits an association ACK from slot `k` (R208, R282). -/
def State.awaitsAck (s : State) (k : Nat) : Bool :=
  s.assocs.any (fun a => a.session == k) || s.mac.assocs.any (fun a => a.session == k)

/-- The smallest PROV at or above `p0` whose low four bits are `n` (R341). -/
def provFrom (p0 n : Nat) : Nat := p0 + (n + 16 - p0 % 16) % 16

/-- The epoch and PROV under which a secured frame of session `k` is deciphered (R323), or none for an epoch miss. -/
def State.rxEpoch (s : State) (k : Nat) (m : Mac) : Option (Nat × Nat) :=
  let e := s.epochOf k
  if m.purpose = 2 then (if s.awaitsAck k then some (0, provFrom (s.provOf k) m.epoch4) else none)
  else if m.purpose = 3 ∨ (s.slot k).st = 1 ∨ s.cstate k = 4 ∨ s.cstate k = 5 then none
  else if m.epoch4 = e % 16 then (if s.cstate k = 2 then none else some (e, s.provOf k))
  else if s.verOf k = 3 ∧ m.epoch4 = (e + 1) % 16 then some (e + 1, s.provOf k)
  else none

/-! ### Counters across events (R345) -/

/-- The counter bytes (R346) after a restore that does not come from the retained store, or an image at or below the Vault's
key state: tx_next from TXC, rx_next no lower than RXM − 4,096, inexact. -/
def State.ctrInexact (s : State) (k rx : Nat) : List (Nat × List Byte) :=
  let mirror := Nat.testBit (s.vaultSoonNum (0x080000 + 8 * k + 6) 1) 0
  let txc := s.txcSoon k
  let rxm := s.vaultSoonNum (8 * k + 4) 4
  let tx := if mirror && s.own then txc + 4096 else txc
  [(0x188, le (min tx 0xFFFFFFFF) 4), (0x18C, le txc 4), (0x190, le (max rx (rxm - 4096)) 4), (0x194, le rxm 4),
    (0x19C, le rxm 4), (0x1A0, le 0 4)]

/-- The image of a session restored otherwise than from the retained store, with its counter bytes (R345, row 2): the key state is the
Vault's. -/
def State.ctrRestored (s : State) (k : Nat) (img : List Byte) : List Byte :=
  let f := fun o n => ofLe ((img.drop o).take n)
  let ks := 0x080000 + 8 * k
  let ps := s.ctrInexact k (f 0x190 4) ++ [(0x180, le (f 0x180 1 % 8 + 8) 1), (0x182, le (s.vaultSoonNum ks 2) 2),
    (0x184, le (s.vaultSoonNum (ks + 2) 2) 2), (0x186, le (s.rekeySent k) 2)]
  ps.foldl (fun l p => patch l p.1 p.2) img

/-- The image of a WRITE or RESTORE with its counter bytes replaced (R218, R345).  An image whose (PROV, EPOCH) is above the
Vault's writes the key state and the ceiling; the flag says so. -/
def State.ctrImage (s : State) (k : Nat) (img : List Byte) : List Byte × Bool :=
  let f := fun o n => ofLe ((img.drop o).take n)
  let ks := 0x080000 + 8 * k
  let ve := s.vaultSoonNum ks 2
  let vp := s.vaultSoonNum (ks + 2) 2
  let above := decide (vp < f 0x184 2) || (f 0x184 2 == vp && decide (ve < f 0x182 2))
  if above then
    let tx := max (f 0x188 4) (s.txcSoon k)
    let ps : List (Nat × List Byte) := [(0x188, le tx 4), (0x18C, le tx 4), (0x194, le (s.vaultSoonNum (8 * k + 4) 4) 4)]
    (ps.foldl (fun l p => patch l p.1 p.2) img, true)
  else
    (s.ctrRestored k img, false)

/-- The Vault writes that such an image asks for. -/
def State.ctrImageVault (s : State) (k : Nat) (img : List Byte) (above : Bool) : State :=
  if !above then s
  else
    let f := fun o n => ofLe ((img.drop o).take n)
    let s := s.vaultWrite (0x080000 + 8 * k) (keyStateBytes (f 0x182 2) (f 0x184 2) (f 0x186 2) 0)
    s.vaultWrite (8 * k) (le (f 0x188 4) 4)

end Sys2Proof.Machine
end

