-- ==== Sys2Proof/Machine/Exchange.lean ====
section
/-! DEFINITION. The modes of a session (R199, R200) and the end of an exchange (R186, R201 to R204, R213). -/
namespace Sys2Proof.Machine
open Sys2Proof

/-! ### Modes -/

/-- The offset of a policy group's registers. -/
def grpO (g : Nat) : Nat := 8 * g

/-- The policy group of session `k` (R226). -/
def State.groupOfSes (s : State) (k : Nat) : Nat := s.ctxNum k 0x040 1 % 8

/-- The `INTERVAL` of session `k`'s group, in ticks. -/
def State.intervalOf (s : State) (k : Nat) : Nat := sTicks (60 * s.get F.PLN_GRP_A_INTERVAL (grpO (s.groupOfSes k)))

/-- A mode from its byte (R226). -/
def modeOf (b : Nat) : Mode := ⟨b % 8, b / 8 % 2, b / 16 % 4⟩

/-- The byte of a mode. -/
def Mode.byte (m : Mode) : Nat := m.rate % 8 + 8 * (m.levels % 2) + 16 * (m.coding % 4)

/-- Symbol rate in units of 25 Hz (R113). -/
def symRate (line : Bool) (idx : Nat) : Nat :=
  if line then 6 * 2 ^ idx
  else match idx with
    | 0 => 500 | 1 => 1000 | 2 => 2000 | 3 => 4000 | 4 => 6000 | 5 => 8000 | _ => 12000

/-- The information rate of a mode (R199), in a fixed unit. -/
def Mode.info (m : Mode) (line : Bool) : Nat :=
  symRate line m.rate * (1 + m.levels) * (match m.coding with | 0 => 6 | 1 => 8 | _ => 9)

/-- REQ of a mode (R199), in 0.25 dB units. -/
def Mode.req (m : Mode) : Int :=
  (if m.levels = 1 then 20 else 0) + (match m.coding with | 0 => 24 | 1 => 30 | _ => 34)

/-- A mode comes before another in the order of R199. -/
def Mode.lower (line : Bool) (a b : Mode) : Bool :=
  decide (a.info line < b.info line) || (a.info line == b.info line && decide (a.req < b.req))

/-- The modes of a list that are not dominated (R199). -/
def undominated (line : Bool) (l : List Mode) : List Mode :=
  l.filter (fun m => !l.any (fun x => x.info line == m.info line && decide (x.req < m.req)))

/-- The lowest of a list of modes. -/
def lowestMode (line : Bool) : List Mode → Option Mode
  | [] => none
  | m :: t => match lowestMode line t with
    | none => some m
    | some x => if x.lower line m then some x else some m

/-- The highest of a list of modes. -/
def highestMode (line : Bool) : List Mode → Option Mode
  | [] => none
  | m :: t => match highestMode line t with
    | none => some m
    | some x => if m.lower line x then some x else some m

/-- The next higher mode that is not dominated (R199). -/
def modeUp (line : Bool) (l : List Mode) (m : Mode) : Option Mode :=
  lowestMode line ((undominated line l).filter (fun x => m.lower line x))

/-- The next lower mode that is not dominated (R199). -/
def modeDown (line : Bool) (l : List Mode) (m : Mode) : Option Mode :=
  highestMode line ((undominated line l).filter (fun x => x.lower line m))

/-- Twice the lowest and twice the highest tone of a line strand's group of four tones (R114), in units of 25 Hz. -/
def State.fourTones (s : State) (r : Nat) : Int × Int :=
  let c : Int := s.get F.STR_TONE_CENTRE_CENTRE (rxO r)
  let d : Int := s.get F.STR_TONE_SPACING_SPACING (rxO r)
  (2 * c - 3 * d, 2 * c + 3 * d)

/-- The rate indexes of slot `t` of port `p` (R191): with them R115 holds in any mode of the port's strands, 4-FSK among them, each up
to its own highest rate.  A slot that is not in use has none. -/
def State.slotRates (s : State) (p t : Nat) : List Nat :=
  let on := fun k => s.bit F.STR_TONE_SPACING_EN (rxO (4 * p + k))
  let g := s.fourTones (4 * p + t)
  let gap := fun k =>
    let x := s.fourTones (4 * p + k)
    max (x.1 - g.2) (g.1 - x.2)
  let band := decide ((80 * s.get F.PLN_BAND_LOW_KHZ : Nat) ≤ g.1) && decide (g.2 ≤ (80 * s.get F.PLN_BAND_HIGH_KHZ : Nat))
  if on t && band then
    (List.range 7).filter (fun r => decide (symRate true r ≤ s.get F.STR_TONE_SPACING_SPACING (rxO (4 * p + t)))
      && (List.range 4).all (fun k => k == t || !on k || decide (4 * (symRate true r : Int) ≤ gap k)))
  else []

/-- Slot `t` carries rate index `r` on each of some ports (R191). -/
def State.ratesOn (s : State) (ps : List Nat) (t r : Nat) : Bool := ps.all (fun p => (s.slotRates p t).contains r)

/-- The highest rate index of slot `t` of port `p` (R191). -/
def State.slotMax (s : State) (p t : Nat) : Nat := (s.slotRates p t).foldl max 0

/-- The modes allowed to line session `k` on slot `t` of the ports `ps` (R191, R199). -/
def State.allowedModes (s : State) (k : Nat) (ps : List Nat) (t : Nat) : List Mode :=
  let o := grpO (s.groupOfSes k)
  let lo := s.get F.PLN_GRP_B_MIN_RATE o
  let hi := s.get F.PLN_GRP_B_MAX_RATE o
  let four := s.bit F.PLN_GRP_B_ALLOW_4FSK o && decide (1 ≤ s.verOf k)
  ((List.range 7).filter (s.ratesOn ps t)).flatMap (fun r => [0, 1].flatMap (fun l => [0, 1, 2].filterMap (fun c =>
    if lo ≤ r ∧ r ≤ hi ∧ (l = 0 ∨ four) ∧ (s.get F.PLN_GRP_B_ALLOW_CODING o).testBit c then some (⟨r, l, c⟩ : Mode)
    else none)))

/-- `10 log10 (a / b)` in 0.25 dB units. -/
def ratioDb (a b : Nat) : Int := dbRound ((a : Rat) / b) 4

/-- The predicted margin of mode `m` (R200), 0.25 dB units. -/
def predicted (line : Bool) (margin : Int) (cur m : Mode) : Int :=
  margin - (m.req - cur.req) - ratioDb (m.info line) (cur.info line)

/-- A margin moved towards a sample by 2 ^ -shift of the difference (R200), in whole units, ties away from zero. -/
def moved (margin sample : Int) (shift : Nat) : Int := margin + roundAway (((sample - margin : Int) : Rat) / 2 ^ shift)

/-! ### Pins and reach -/

/-- Pin kind `b` of session `k` is set (R209): 0 PORTS, 1 SLOT, 2 MODE, 3 WINDOW, 4 NO_COMB. -/
def State.pinned (s : State) (k b : Nat) : Bool := (s.ctxNum k 0x04B 1).testBit b

/-- The reach of session `k` (R204). -/
def State.reach (s : State) (k : Nat) : Nat := s.ctxNum k 0x041 1 / 64

/-- The reach of session `k` becomes `v`. -/
def State.setReach (s : State) (k v h : Nat) : State :=
  if s.reach k = v then s else s.ctxPut k 0x041 1 (s.ctxNum k 0x041 1 % 64 + 64 * v) h

/-- The ports of session `k`, best first (R226). -/
def State.portsOf (s : State) (k : Nat) : List Nat :=
  (List.range 4).filterMap (fun j =>
    let b := s.ctxNum k (0x042 + j) 1
    if 128 ≤ b then some (16 * s.cordOf k + b % 16) else none)

/-- The port set of session `k` becomes `ports`. -/
def State.setPorts (s : State) (k h : Nat) (ports : List Nat) : State :=
  let b := (List.range 4).map (fun j => match ports[j]? with
    | some p => BitVec.ofNat 8 (128 + p % 16)
    | none => (0 : Byte))
  s.ctxUpdate k 0x042 b h

/-- Ports by falling SNR, in the order given among equals. -/
def bestFirst : List (Nat × Int) → List (Nat × Int)
  | [] => []
  | x :: t =>
    let l := bestFirst t
    l.takeWhile (fun y => decide (x.2 < y.2)) ++ x :: l.dropWhile (fun y => decide (x.2 < y.2))

/-! ### The end of an exchange -/

/-- The offset of a cord's PLN registers. -/
def cordO (c : Nat) : Nat := 0x10 * c

/-- A pending command of session `k` ends (R228, R416). -/
def State.cmdEnd (s : State) (k result h : Nat) (data : List Byte) : State :=
  if s.ctxNum k 0x400 2 = 0 then s
  else
    let id := s.ctxNum k 0x404 4
    let r := s.responseRec id 1 result k data
    let s := s.ctxUpdate k 0x400 [0, 0] h [r]
    s.cmdKeep id (responseBody id 1 result data)

/-- The pending command of session `k` is kept: the session must join again or be provisioned again (R344). -/
def State.cmdHeld (s : State) (k : Nat) : Bool := s.cstate k == 4 || s.cstate k == 5

/-- A pending command of session `k` fails (R201, R273), unless it is kept. -/
def State.cmdFail (s : State) (k h : Nat) : State := if s.cmdHeld k then s else s.cmdEnd k 4 h []

/-- Session `k` is RETRYING and its misses have reached `LOST_MISSES` (R204). -/
def State.lostNow (s : State) (k n : Nat) : Bool :=
  s.reach k == 1 && decide (s.get F.PLN_GRP_A_LOST_MISSES (grpO (s.groupOfSes k)) ≤ n)

/-- Session `k` becomes UNREACHABLE (R204): EV110; the reads and phase polls that wait are not made, for it is polled in class 3 once per
`PLN_DISC.PERIOD` from now on. -/
def State.goLost (s : State) (k h : Nat) : State :=
  let s := { s with planQ := s.planQ.filter (fun q => !(q.session == k && (q.cls == 2 || q.cls == 3 || q.cls == 5))) }
  (s.setReach k 2 h).raise Ev.SESSION_UNREACHABLE k

/-- The request code of session `k`'s pending command (R184): an on-demand read, or a command. -/
def State.cmdReq (s : State) (k : Nat) : Nat := if (s.ctxNum k 0x402 1).testBit 0 then 1 else 3

/-- A session's attempts are exhausted (R201, R204); the command of one that must join again waits on (R344). -/
def State.readFails (s : State) (k cls h : Nat) : State :=
  let s := s.raise Ev.POLL_RETRY_EXHAUSTED k
  let n := min 255 (s.ctxNum k 0x04A 1 + 1)
  let s := (s.ctxPut k 0x04A 1 n h).ctxPut k 0x064 1 0 h
  let s := if cls = 0 then
      (if s.cmdHeld k then { s with planQ := s.planQ ++ [(⟨k, 0, s.cmdReq k, 1, s.tick, false, false⟩ : PReq)] } else s.cmdEnd k 4 h [])
    else s
  let s := if cls = 2 ∨ cls = 3 then s.ctxPut k 0x054 8 (s.ctxNum k 0x054 8 + s.intervalOf k) h else s
  if s.lostNow k n then s.goLost k h else s

/-- An exchange fails, or is stale, and is retried (R201, R202, R204): `RETRY_MAX_PRIO` counts for a failure behind block rounds, and
the single poll of an UNREACHABLE session is not retried. -/
def State.exchRetry (s : State) (e : Exch) (stale : Bool) (h : Nat) : State :=
  let k := e.session
  let again := fun (a : Nat) (st : Bool) (s : State) => { s with
    planQ := s.planQ ++ [(⟨k, e.cls, e.request, a, e.due, st, e.missed⟩ : PReq)] }
  if stale && !e.again then again e.attempt true s
  else
    let s := if s.reach k = 0 then s.setReach k 1 h else s
    let block := decide (0 < e.blockRounds) && (s.slot k).prio && decide (2 ≤ s.verOf k)
    let extra := if block then s.get F.PLN_RETRY_RETRY_MAX_PRIO else s.get F.PLN_GRP_A_RETRY_MAX (grpO (s.groupOfSes k))
    if s.reach k = 2 ∧ e.cls = 3 then s.readFails k e.cls h
    else if e.attempt < 1 + extra then (again (e.attempt + 1) false s).ctxPut k 0x064 1 (e.attempt + 1) h
    else s.readFails k e.cls h

/-- An exchange succeeds (R189, R204); with a command's exchange its command ends (R228; log entry 139: after an ALARM reply too). -/
def State.exchSuccess (s : State) (e : Exch) (h : Nat) : State :=
  let k := e.session
  let s := if e.cls = 0 then s.cmdEnd k 0 h e.answer else s
  let s := (s.ctxPut k 0x05C 8 s.tick h).ctxPut k 0x064 1 0 h
  let s := (s.ctxPut k 0x054 8 (s.tick + s.intervalOf k) h).ctxPut k 0x04A 1 0 h
  let lost := s.reach k == 2
  let s := if lost && !s.pinned k 0 && !e.heard.isEmpty then
      s.setPorts k h (((bestFirst e.heard).map (·.1)).take 4)
    else s
  let s := s.setReach k 0 h
  let s := { s with overdue := s.overdue.filter (· != k) }
  -- an on-demand read serves the read that is due (R210)
  if e.cls = 0 ∧ e.request = 1 then
    { s with planQ := s.planQ.filter (fun q => !(q.session == k && (q.cls == 2 || q.cls == 3))) }
  else s

/-- The receivers of an exchange. -/
def Exch.strands (e : Exch) : List Nat := e.ports.map (fun p => 4 * p + e.slot)

/-- An ASSIGN that no accepted ACK has answered is repeated in a later round, up to `ASSIGN_TRIES` times (R208). -/
def State.assignAgain (s : State) (k outcome : Nat) : State :=
  match s.assocs.find? (fun a => a.session == k) with
  | some a =>
    if outcome ≠ 1 ∧ a.tries < s.get F.PLN_ASSOC_ASSIGN_TRIES then
      { s with planQ := s.planQ ++ [(⟨k, 4, 7, a.tries + 1, s.tick, false, false⟩ : PReq)] }
    else s
  | none => s

/-- A round whose last exchange has ended is over: its ports are free after the gap (R192, R196). -/
def State.roundOver (s : State) (n : Nat) : State :=
  if s.exchs.any (fun e => e.round == n) then s
  else match s.rounds.find? (fun r => r.num == n) with
    | none => s
    | some r =>
      let s := { s with
        rounds := s.rounds.filter (fun x => x.num != n), pinCombs := s.pinCombs.filter (fun x => x.2.2 != n) }
      { s with roundEnd := r.ports.foldl (fun t p => tset (fun _ => 0) t p s.tick) s.roundEnd }

/-- What round `n` has used of the line up to now for a class counts (R187, R213). -/
def State.lineUsed (s : State) (c cls : Nat) (ports : List Nat) (n : Nat) : State :=
  let began := ((s.rounds.find? (fun r => r.num == n)).map (·.start)).getD s.tick
  { s with planDone := (⟨s.tick, c, cls, ports, began⟩ : PlanDone)
      :: s.planDone.filter (fun d => decide (s.tick < d.ended + sTicks 60)) }

/-- The line time of entries for one port over the last 60 s, in ticks (R187): what the members of one round use together counts
once. -/
def State.lineTicks (s : State) (l : List PlanDone) : Nat :=
  ((l.map (·.began)).eraseDups).foldl (fun (n : Nat) b =>
    n + ((l.filter (fun d => d.began == b)).foldl (fun (m : Nat) d => max m d.ended) 0 - max b (s.tick - sTicks 60))) 0

/-- What the end of an exchange leaves in its session's context, and its retry (R186, R201, R204, R227). -/
def State.exchCtx (s : State) (e : Exch) (outcome h : Nat) : State :=
  let k := e.session
  let s := if e.request = 7 then s.assignAgain k outcome
    else if outcome = 1 then s.exchSuccess e h
    else (s.ctxInc k 0x30C h).exchRetry e (outcome == 8) h
  (if e.cls = 1 ∧ outcome ≠ 1 then s.rekeySpent k h else s).rekeyAgain k

/-- The exchange of session `k` ends with an outcome (R186): the cord's registers and the session follow, and the blocks kept
for it are discarded (R137).  Where the planner has lost the session's lease, or was not given it, the context follows once it has it,
rebuilt where the lease was revoked (R210, R227; DESIGN CHOICE, log entry 140). -/
def State.exchEnd (s : State) (k outcome : Nat) : State :=
  match s.exchs.find? (fun e => e.session == k) with
  | none => s
  | some e =>
    let h := plannerOf e.cord
    let kept := s.blockStore.filter (fun b => e.strands.contains b.rx)
    let s := { s with
      exchs := s.exchs.filter (fun x => x.session != k),
      blockStore := s.blockStore.filter (fun b => !e.strands.contains b.rx) }
    -- blocks kept and not complete: verdict BLOCK
    let s := kept.foldl (fun s b => ((s.put F.STR_FRM_LAST_VERDICT (rxO b.rx) 13).incSat F.STR_FRM_CNT_A_REJECTED
      (rxO b.rx)).raise Ev.BLOCK_INCOMPLETE b.rx) s
    let outcome := if !kept.isEmpty && (outcome == 2 || outcome == 3 || outcome == 4) then 7 else outcome
    let o := cordO e.cord
    let s := s.incWrap F.PLN_CORD_EXCH_COUNT o
    let s := if outcome = 1 then s else s.incWrap F.PLN_CORD_FAIL_COUNT o
    let s := ((s.put F.PLN_CORD_LAST_SESSION o k).put F.PLN_CORD_LAST_OUTCOME o outcome).put F.PLN_CORD_LAST_CLASS o e.cls
    let s := s.put F.PLN_CORD_LAST_ATTEMPT o (min 15 e.attempt)
    let s := s.lineUsed e.cord e.cls e.ports e.round
    let s := if s.splOwnerUp then s.splSend 0x13 (le k 2 ++ le outcome 1) else s
    let late := e.request != 7 && !s.leasedBy k h && (s.slot k).st == 2
    let s := if late then { s with lateEnds := s.lateEnds ++ [(e, outcome)] }.leaseAsk k h else s.exchCtx e outcome h
    s.roundOver e.round

/-- The reply, or the re-sent blocks, of an exchange did not arrive (R186, R202): while block rounds are left and blocks are kept, the
missing ones are asked for again. -/
def State.exchMiss (s : State) (e : Exch) (outcome : Nat) : State :=
  if e.step = 4 && decide (e.blockRounds < s.get F.PLN_RETRY_BLOCK_ROUNDS) && s.blockStore.any (fun b => e.strands.contains b.rx) then
    { s with exchs := s.exchs.map (fun (x : Exch) => if x.session = e.session then { x with step := 6 } else x) }
  else s.exchEnd e.session outcome

end Sys2Proof.Machine
end

