-- ==== Sys2Proof/Machine/Signal.lean ====
section
/-! DEFINITION. What line ports, filter chains and receivers do to one another: a chain's restart (R67 to R69), holding a
receiver (R82, R83), the end of an attempt or a frame (R95), the reference code (R96), a step request of a port's PGA (R97,
R98), the inhibit of a port (R49) and the wake of a cord engine (R461). -/
namespace Sys2Proof.Machine
open Sys2Proof

/-! ### Exchanges at a port or receiver -/

/-- Whether an exchange is in flight on port `p`: it occupies the port, or the port is one of its round's (R40). -/
def State.exchOn (s : State) (p : Nat) : Bool :=
  s.exchs.any (fun e => e.ports.contains p) || s.rounds.any (fun r => r.ports.contains p)

/-- The exchange that receiver `r` serves. -/
def State.exchOfRx (s : State) (r : Nat) : Option Exch := s.exchs.find? (fun e => e.strands.contains r)

/-- The ports of one transmission: those of port `p`'s triple, or the port (R38, R192). -/
def State.withTriple (s : State) (p : Nat) : List Nat :=
  if s.bit F.LP_CFG_COUPLING (lpO p) && p % 16 != 15 then
    let l := 16 * (p / 16) + p % 16 / 3 * 3
    [l, l + 1, l + 2]
  else [p]

/-- The lead of port `p`'s triple in the words `view` (R38): a triple that the live `COUPLING` forms, or that a waiting LP commit will
form. -/
def State.tripleOf (s : State) (p : Nat) : Option Nat :=
  let j := p % 16
  let soon := s.after (s.pendingCells 2)
  let on := s.bit F.LP_CFG_COUPLING (lpO p) || F.LP_CFG_COUPLING.afterOf soon (lpO p) == 1
  if j = 15 ∨ !on then none else some (p - j % 3)

/-- Port `p` sends the frames of an exchange: it is the first of its ports, or in the triple of that one (R38). -/
def State.sendsFor (s : State) (p : Nat) (e : Exch) : Bool :=
  match e.ports with
  | q :: _ => (s.withTriple q).contains p
  | [] => false

/-- The exchanges whose frame port `p`'s transmission carries: those it sends for that have a frame to send. -/
def State.pollsOn (s : State) (p : Nat) : List Exch :=
  s.exchs.filter (fun e => s.sendsFor p e && (e.step == 0 || e.step == 3 || e.step == 5))

/-- The sweeps whose DISCOVERY frame port `p` sends (R205). -/
def State.sweepsOn (s : State) (p : Nat) : List Sweep :=
  s.sweeps.filter (fun w => w.ports.contains p && decide (s.tick ≤ w.e))

/-- The mode of DISCOVERY, JOIN and ASSIGN (R205). -/
def State.joinMode (s : State) : Mode := ⟨s.get F.PLN_DISC2_RATE, 0, 0⟩

/-- The payload of a DISCOVERY frame (R205). -/
def State.discPayload (s : State) (w : Sweep) : List Byte :=
  le w.num 2 ++ le w.slots 1 ++ le (w.slotLen / msTicks 1) 1 ++ le s.joinMode.byte 1 ++ le (s.get F.PLN_DISC2_PERMIT) 1

/-- The frame `m` on receiver `r`'s synthesiser, its last coded symbol ending at `e` (R192, R205); none from a strand that is not in
use (R115). -/
def State.burstTo (s : State) (r e version : Nat) (m : List Byte) : List Burst :=
  if s.bit F.STR_TONE_SPACING_EN (rxO r) then
    let b := s.burst r (s.strTx r) version 0 m
    [{ b with start := e - b.last }]
  else []

/-- The version of the frames sent to an exchange's meter (R143): the one negotiated. -/
def State.exchVer (s : State) (e : Exch) : Nat :=
  match s.assocs.find? (fun a => e.request == 7 && a.session == e.session) with
  | some a => a.ver
  | none => s.verOf e.session

/-- The frames of port `p`'s next transmission, on the strands of its lead (R38, R192, R205). -/
def State.burstsOn (s : State) (p : Nat) : List Burst :=
  let q := s.leadOf p
  (s.pollsOn p).flatMap (fun e =>
    s.burstTo (4 * q + e.slot) (((s.rounds.find? (fun r => r.num == e.round)).map (·.e)).getD 0) (s.exchVer e) e.tx)
  ++ (s.sweepsOn p).flatMap (fun w =>
    s.burstTo (4 * q + w.slot) w.e (s.get F.PLN_KLP_MAX) (plainMpdu 5 0xFFFF 0 (s.discPayload w)))

/-- A sync word found on a port of a sweep marks its reply slot as used (R205, R206). -/
def State.sweepHeard (s : State) (r t : Nat) : State :=
  { s with sweeps := s.sweeps.map (fun w =>
      if w.ports.contains (r / 4) && w.slot == r % 4 && decide (w.e + msTicks 10 ≤ t) then
        let j := (t - (w.e + msTicks 10)) / w.slotLen
        if j < w.slots ∧ !w.used.contains j then { w with used := w.used ++ [j] } else w
      else w) }

/-- Ends every listed exchange with one outcome (R186). -/
def State.endAll (s : State) (es : List Exch) (outcome : Nat) : State :=
  es.foldl (fun s e => s.exchEnd e.session outcome) s

/-! ### Receivers -/

/-- The state with receiver `r` in state `k`; `FROZEN` follows, and a line port notes when a strand leaves the frozen states. -/
def State.setRxSt (s : State) (r k : Nat) : State :=
  let s := if r < 576 && s.frozen r && decide (k < 3) then s.onPort (r / 4) (fun x => { x with thawed := s.tick }) else s
  (s.put F.STR_STATUS_STATE (rxO r) k).putB F.STR_STATUS_FROZEN (rxO r) (decide (3 ≤ k))

/-- A strand is a holder of its port in a frozen state, or in QUALIFY on buffered samples (R96). -/
def State.holder (s : State) (r : Nat) : Bool :=
  s.frozen r || (s.rxSt r == 2 && s.bit F.STR_STATUS_REPLAY (rxO r))

/-- Whether port `p` has a holder (R96), or a strand that becomes one at this sample (R108). -/
def State.hasHolder (s : State) (p : Nat) : Bool :=
  (List.range 4).any (fun k => s.holder (4 * p + k) || s.wouldHold (4 * p + k))

/-- The codes of port `p` as they stand are kept for the samples before this tick: of the last 64 samples (R33, R176). -/
def State.codesNote (s : State) (p : Nat) : State :=
  let now := (s.get F.LP_STATUS_GAIN_CODE (lpO p), (s.port p).refCode)
  s.onPort p (fun x => { x with
    codes := (s.tick, now) :: x.codes.filter (fun e => decide (s.tick < e.1 + 32 * 64) && e.1 != s.tick) })

/-- The PGA code and the reference code of port `p` at its sample stamped `t` (R33, R96). -/
def State.codesAt (s : State) (p t : Nat) : Nat × Nat :=
  match ((s.port p).codes.reverse.find? (fun e => decide (t < e.1))) with
  | some e => e.2
  | none => (s.get F.LP_STATUS_GAIN_CODE (lpO p), (s.port p).refCode)

/-- At the first sample at which the port has no holder, the reference code is set to the PGA code (R96). -/
def State.refUpdate (s : State) (p : Nat) : State :=
  if s.hasHolder p then s
  else (s.codesNote p).onPort p (fun x => { x with refCode := s.get F.LP_STATUS_GAIN_CODE (lpO p) })

/-- The reference code follows for the port of a line receiver. -/
def State.refUpdateRx (s : State) (r : Nat) : State := if r < 576 then s.refUpdate (r / 4) else s

/-- The source word of EV052 for a group (R181): 16c + g; an implicit group has no number, so there the word is free (log
entry 2). -/
def State.combSrc (s : State) (c : CombS) : Nat × State :=
  if c.group < 16 then (16 * c.cord + c.group, s) else ((s.draw 16).1.toNat, (s.draw 16).2)

/-- The soft values of a member: those it kept when it left, or its receiver's (R174). -/
def State.memberSoft (s : State) (c : CombS) (r : Nat) : List (Int × Nat) :=
  match c.kept.find? (fun k => k.1 == r) with
  | some k => k.2
  | none => (s.rx r).soft

/-- The joined members of a group that were not dropped. -/
def CombS.live (c : CombS) : List CombM := c.members.filter (fun m => !m.dropped)

/-- Whether receiver `r` is among the members that joined. -/
def CombS.has (c : CombS) (r : Nat) : Bool := c.members.any (fun m => m.rx == r)

/-- The combining group to which receiver `r`'s present frame belongs (R173). -/
def State.combOf (s : State) (r : Nat) : Option CombS :=
  if (s.rx r).member then s.combs.find? (fun c => c.has r) else none

/-- The state with group `c` replaced. -/
def State.combSet (s : State) (c c' : CombS) : State := { s with combs := s.combs.map (fun (x : CombS) => if x == c then c' else x) }

/-- One combined value (R173), from the weight, value and weight q of each joined member. -/
def combValue (l : List (Nat × Int × Nat)) : Int × Nat :=
  let wq := l.foldl (fun (a : Nat) x => a + x.1 * x.2.2) 0
  let w := l.foldl (fun (a : Nat) x => a + x.1) 0
  if wq = 0 then (0, 0)
  else
    let sum := l.foldl (fun (a : Int) x => a + x.1 * x.2.2 * x.2.1) 0
    let v := max (-7) (min 7 (roundAway ((sum : Rat) / wq)))
    let q := (roundAway ((wq : Rat) / w)).toNat
    (v, if q = 0 then 1 else q)

/-- The values that every joined member of a group still in the frame has delivered. -/
def State.combLen (s : State) (c : CombS) : Nat :=
  match c.live.map (fun m => (s.memberSoft c m.rx).length) with
  | [] => 0
  | n :: l => l.foldl min n

/-- The first `n` combined values of a group, as far as its members have delivered (R173). -/
def State.combined (s : State) (c : CombS) (n : Nat) : List (Int × Nat) :=
  let ms := c.members.map (fun m => (m.w, s.memberSoft c m.rx))
  (List.range (min n (s.combLen c))).map (fun k =>
    combValue (ms.map (fun m => (m.1, (m.2.getD k (0, 0)).1, (m.2.getD k (0, 0)).2))))

/-- The values a frame has behind its sync word: header and body in coded bits. -/
def frameBits (h : PhyHdr) : Nat := 88 + h.bodyLen

/-- Hands a frame's body to the frame unit (R88, R173). -/
def State.handOver (s : State) (r : Nat) (group : List Nat) (h : PhyHdr) (vals : List (Int × Nat)) (snr : Int) : State :=
  let heard := if group.isEmpty then [r] else group
  let b : Body := {
    rx := r, group := group, hdr := h, prio := false, tick := 0, blockNo := none, vals := vals,
    collided := heard.filter (fun x => (s.rx x).collided), snr := snr, sync := (s.rx r).syncTick,
    syncs := heard.map (fun x => (x, dbRound (s.rx x).syncSnr 4)), erasedPct := 0,
    rssi := s.getI F.STR_LAST_LEVEL_RSSI (rxO r) }
  { s with delivered := s.delivered ++ [b] }

/-- A group's frame goes to the frame unit once every joined member that was not dropped has delivered; with none left it is over
(R173, R174). -/
def State.combFinish (s : State) (c : CombS) : State :=
  if c.done || c.live.any (fun m => !c.kept.any (fun k => k.1 == m.rx)) then s
  else if c.live.isEmpty then s.combSet c { c with done := true }
  else
    let h := (hdrDecode (s.combined c 88)).1
    let s' := s.handOver (c.ref.getD 0) (c.members.map (·.rx)) h ((s.combined c (frameBits h)).drop 88) (dbRound c.snrSum 4)
    s'.combSet c { c with done := true }

/-- A joined member that leaves the frozen states, or lags, contributes nothing more (R174): its values so far are kept,
and a group that then waits for no one delivers. -/
def State.combDrop (s : State) (r : Nat) : State :=
  match s.combOf r with
  | none => s
  | some c =>
    match c.live.find? (fun m => m.rx == r) with
    | none => s
    | some m =>
      if c.done then s
      else
        let c' : CombS := { c with
          members := c.members.map (fun (x : CombM) => if x.rx == r then { x with dropped := true } else x),
          kept := c.kept.filter (fun k => k.1 != r) ++ [(r, (s.rx r).soft)] }
        let s := s.combSet c c'
        let o := mnO (16 * c.cord + c.group)
        let s := if c.group < 16 then
            s.put F.MNS_COMB_STAT_DROPPED o (s.get F.MNS_COMB_STAT_DROPPED o ||| 2 ^ m.place) else s
        let src := (s.incSat F.MNS_COMB_CNT_DROPS).combSrc c
        (src.2.raise Ev.COMB_MEMBER_DROP src.1).combFinish c'

/-- Whether a frame of receiver `r` is on its way to a verdict. -/
def State.inPipeline (s : State) (r : Nat) : Bool :=
  let mine := fun (b : Body) => b.rx == r || b.group.contains r
  s.delivered.any mine || s.bodies.any mine || s.viterbi.any (fun v => (v.2.map mine).getD false)
    || s.macWait.any (fun m => mine m.body)

/-- Whether receiver `r` may still give its exchange a reply: it listens, it is in a frame or a replay, or a frame of it is
being judged. -/
def State.rxBusy (s : State) (r : Nat) : Bool :=
  (s.rx r).listen || s.frozen r || s.bit F.STR_STATUS_REPLAY (rxO r) || (s.rx r).replayWait.isSome || s.inPipeline r

/-- The exchange of receiver `r` ends with `outcome`, unless another of its receivers may still give a reply (R174,
R186). -/
def State.rxOutcome (s : State) (r outcome : Nat) : State :=
  match s.exchOfRx r with
  | none => s
  | some e => if e.strands.any (fun x => x != r && s.rxBusy x) then s else s.exchMiss e outcome

/-- Receiver `r` is back in SEARCH: AGC and AFC stop, the correction is 0, the detectors are clear (R81, R90). -/
def State.rxSearch (s : State) (r : Nat) : State :=
  let s := (s.setRxSt r 1).put F.STR_AFC_EST_C (rxO r) 0
  s.onRx r (fun x => { x with
      symbols := 0, hits := [], phaseBit := none, det := [], corr := [], symEnd := none, lowRun := 0, syncBits := [],
      syncPow := [], outRun := [], corrected := false, clamped := false, soft := [], member := false, collided := false,
      symPow := 0, errPow := 0, blankSum := 0, blankN := 0 })

/-- Receiver `r` is in HOLD; a replay in progress or waiting ends with it (R82). -/
def State.rxHold (s : State) (r : Nat) : State :=
  let s := ((s.rxSearch r).setRxSt r 0).putB F.STR_STATUS_REPLAY (rxO r) false
  let s := { s with replayQ := s.replayQ.filter (· != r) }
  (s.onRx r (fun x => { x with replayWait := none, replayCap := false })).refUpdateRx r

/-- `STR_LAST_RX`, `STR_LAST_LEVEL` and the time stamp begin to describe a new attempt (R95).  `STATUS` stays until the attempt
ends.  DESIGN CHOICE, log entry 104: what the attempt does not latch reads 0. -/
def State.rxFresh (s : State) (r : Nat) : State :=
  let o := rxO r
  let keep := s.get F.STR_LAST_RX_STATUS o
  let s := (s.setLive (F.STR_LAST_RX.addr + o) 0).put F.STR_LAST_RX_STATUS o keep
  ((s.setLive (F.STR_LAST_LEVEL.addr + o) 0).putTime F.STR_LAST_TIME_LO o 0).putB F.STR_LAST_RX_AFC_CLAMPED o (s.rx r).clamped

/-- The SNR of a frame in 0.25 dB (R94): mean symbol power to decision-error power, erasures left out.  With no error power the
ratio has no value, and the result is free (log entry 2). -/
def State.frameSnr (s : State) (r : Nat) : Int × State :=
  let x := s.rx r
  if x.errPow ≤ 0 ∨ x.symPow ≤ 0 then (signed 10 (s.draw 10).1.toNat, (s.draw 10).2) else (dbRound (x.symPow / x.errPow) 4, s)

/-- The end of an attempt or a frame with status `st` (R95); a frame latches its SNR (R94). -/
def State.rxEnd (s : State) (r st : Nat) : State :=
  let s := if s.frozen r then
      let n := s.frameSnr r
      n.2.putI F.STR_LAST_LEVEL_SNR (rxO r) n.1
    else s.rxFresh r
  s.put F.STR_LAST_RX_STATUS (rxO r) st

/-- A condition of R82 holds receiver `r`: a frame in a frozen state ends PREEMPTED with EV071 (R83), and its exchange is
lost (R186). -/
def State.rxForceHold (s : State) (r : Nat) : State :=
  if s.frozen r then
    let s := ((s.rxEnd r 6).incSat F.STR_CNT_MISC_PREEMPT (rxO r)).raise Ev.STR_PREEMPTED r
    ((s.combDrop r).rxHold r).rxOutcome r 5
  else if s.rxSt r = 0 then s
  else s.rxHold r

/-! ### Filter chains -/

/-- The settling count D of R68. -/
def State.settleD (s : State) (c : Nat) : Nat :=
  let mf := max 1 (s.get F.FC_CFG_FIR_RATIO (fcO c))
  let t := s.setTaps c (s.activeSet c)
  (t - 1 + mf - 1) / mf + (if s.get F.FC_CFG_CIC_RATIO (fcO c) ≤ 1 then 0 else (4 + mf - 1) / mf)

/-- The restart of a chain (R67): everything the datapath holds is cleared, a fade ends with the new set, a pending swap and the
samples that wait stay, and D outputs are to come before the first settled one (R68).  A receiver behind it loses its
look-back buffer (R99).  A strand chain behind a restarting port chain is held by the unsettled samples that reach it (R69). -/
def State.chainRestart (s : State) (c : Nat) : State :=
  let o := fcO c
  let s := ((s.putB F.FC_STATUS_HIGH o false).putB F.FC_STATUS_LOW o false).putB F.FC_BANK_FADING o false
  let s := s.put F.FC_STATUS_SETTLE_LEFT o (min 65535 (s.settleD c))
  let s := s.onChain c (fun x => { ChainS.init with
      inq := x.inq, held := false, settleN := s.settleD c, swapReq := x.swapReq, swapFade := x.swapFade, swapLen := x.swapLen,
      out := x.out, outSettled := x.outSettled, outTick := x.outTick })
  match rxOfChain c with
  | some r => s.onRx r (fun x => { x with buf := [] })
  | none => s

/-- Every chain of a cord restarts (R71, R461). -/
def State.cordRestart (s : State) (cord : Nat) : State :=
  let s := (List.range 16).foldl (fun s j => s.chainRestart (16 * cord + j)) s
  (List.range 64).foldl (fun s j => s.chainRestart (144 + 64 * cord + j)) s

/-! ### Ports -/

/-- The state code of port `p` (R29). -/
def State.portSt (s : State) (p : Nat) : Nat := s.get F.LP_STATUS_STATE (lpO p)

/-- Whether the clock of the engine that serves `cord` runs: its own, or CE9 in its place (R483). -/
def State.engineOf (s : State) (cord : Nat) : Nat :=
  if s.bit F.BST_SUBST_VALID && s.get F.BST_SUBST_CORD == cord then 9 else cord

/-- Whether the cord's engine runs. -/
def State.cordRuns (s : State) (cord : Nat) : Bool := s.bitAt F.PWR_DOMAIN_STAT 0 (s.engineOf cord)

/-- A planned wake of cord `c`, 100 µs before a T0 or a listen window, comes within `n` ticks (R461). -/
def State.wakeNear (s : State) (c n : Nat) : Bool :=
  let t := s.tick + 3840 + n
  s.rounds.any (fun r => r.cord == c && decide (r.t0 ≤ t))
    || s.exchs.any (fun e => e.cord == c && decide (e.openAt ≤ t) && decide (s.tick < e.closeAt))
    || s.sweeps.any (fun w => w.cord == c && decide (w.e ≤ t) && decide (s.tick < w.ends))

/-- Cord `c` is out of service (R483): its engine is marked and CE9 does not serve it, or its coefficient memory is marked. -/
def State.cordOut (s : State) (c : Nat) : Bool :=
  (s.marked c && !(s.bit F.BST_SUBST_VALID && s.get F.BST_SUBST_CORD == c)) || s.marked (14 + c)

/-- Both Viterbi units are marked: no frame is decoded, and no exchange or pair is served (R483). -/
def State.noDecoder (s : State) : Bool := s.marked 10 && s.marked 11

/-- The module stands by for its Splice partner: its strand receivers stay in HOLD (R379). -/
def State.standsBy (s : State) : Bool := decide (3 ≤ s.get F.SPL_STATUS_ROLE) && decide (s.get F.SPL_STATUS_ROLE ≤ 5)

/-- Whether port `p` is inhibited (R49): its cord's reference, its own drive faults, or the loss of two cores (R25). -/
def State.inhibited (s : State) (p : Nat) : Bool :=
  s.bitAt F.LP_LREF_STAT 0 (p / 16) || (s.port p).driveInh || s.twoCoresLost

/-- The port follows the faults at it (R29): from WATCH or AWAKE to TX_INHIBIT while one lasts, and back, as the clock of its
cord's engine stands.  No other state changes here. -/
def State.portFault (s : State) (p : Nat) : State :=
  let st := s.portSt p
  if s.inhibited p then
    if st = 1 ∨ st = 2 then s.put F.LP_STATUS_STATE (lpO p) 4 else s
  else if st = 4 then s.put F.LP_STATUS_STATE (lpO p) (if s.cordRuns (p / 16) then 2 else 1) else s

/-- The cord engine wakes (R29, R47): a port in WATCH goes to AWAKE, its port chain takes the samples that its front end holds
first, and the run of watch windows ends. -/
def State.portWake (s : State) (p : Nat) : State :=
  let st := s.portSt p
  if st = 1 ∨ st = 4 then
    let held := (s.port p).watchBuf.map (fun (x : BitVec 14 × Nat) => (⟨x.1.setWidth 18 <<< 4, 0, true, x.2⟩ : ChainIn))
    let s := s.onChain p (fun x => { x with inq := x.inq ++ held })
    let s := s.onPort p (fun x => { x with watchBuf := [], watchRun := 0 })
    if st = 1 then s.put F.LP_STATUS_STATE (lpO p) 2 else s
  else s

/-- The cord engine stops its clock (R29): a port in AWAKE goes to WATCH. -/
def State.portSleep (s : State) (p : Nat) : State :=
  if s.portSt p = 2 then s.put F.LP_STATUS_STATE (lpO p) 1 else s

/-- The synthesisers of port `p` stop at once, with their clock or with the DAC held off: nothing of their frames counts as sent
(R144). -/
def State.portHalt (s : State) (p : Nat) : State :=
  let gone := (s.port p).tx
  let s := gone.foldl (fun (s : State) b => s.onRx (4 * s.leadOf p + b.strand) (fun x => { x with txOn := false })) s
  s.onPort p (fun x => { x with planned := none, tx := [], tailDue := none })

/-- Clears the port's bit in the word of the next shift (R44, R49). -/
def State.aenClear (s : State) (p : Nat) : State :=
  { s with aen := { s.aen with want := s.aen.want &&& ~~~ ((1 : BitVec 144) <<< p), waiting := true } }

/-- A frame whose ramp-up has not begun at tick `t` sends nothing. -/
def Burst.never (b : Burst) (t : Nat) : Burst := { b with start := t, per := 0, levels := [], whole := false }

/-- A frame in progress at tick `t` ends at its next symbol boundary, followed by its ramp-down; one that has not begun sends nothing
(R49). -/
def Burst.endAt (b : Burst) (t : Nat) : Burst :=
  if t < b.start then b.never t
  else if b.last ≤ t ∨ b.cut.isSome then b
  else { b with levels := b.levels.take ((t - b.first + b.per - 1) / b.per), whole := false }

/-- A frame that a mask cut meets at tick `t` (R124): it ramps down over 32 DAC samples, its own ramp-down among what is cut; one that
has not begun sends nothing.  A frame whose last symbol fell into the block that began at `from'` counts as not sent (R144). -/
def Burst.cutAt (b : Burst) (from' t : Nat) : Burst :=
  if t < b.start then b.never t
  else
    let b := if b.last ≤ from' then b else { b with whole := false }
    if b.over ≤ t ∨ b.cut.isSome then b else { b with cut := some t }

/-- The frames of port `p`'s transmission, and so of its whole triple, end strand by strand (R49). -/
def State.txEnd (s : State) (p : Nat) : State :=
  (s.withTriple p).foldl (fun s q => s.onPort q (fun x => { x with tx := x.tx.map (fun b => b.endAt s.tick) })) s

/-- A port meets an inhibit (R49): a transmission not started is not started and its exchanges end NOT_STARTED; one in progress is
ended strand by strand and its exchanges end LOST.  The enable is cleared by the next shift, after the last ramp-down. -/
def State.portInhibit (s : State) (p : Nat) : State :=
  if s.portSt p = 3 then (s.endAll (s.pollsOn p) 5).txEnd p
  else
    let started := (s.port p).planned.isSome
    let s := if started then (s.endAll (s.pollsOn p) 9).aenClear p else s
    (s.onPort p (fun x => { x with planned := none })).portFault p

/-! ### The start of a transmission -/

/-- The first tick at which the planned sample may leave: the planned one, or the first DAC boundary (16 ticks) after it
at which the enable has been latched for `LEAD` (R37, R43). -/
def firstSample (planned enabled lead : Nat) : Nat :=
  let due := enabled + usTicksUp lead
  if due ≤ planned then planned else planned + (due - planned + 15) / 16 * 16

/-- The exchanges whose frame port `p` does not send end NOT_STARTED: a frame still without its counter reservation (R193), or one of
a strand that is not in use (R115). -/
def State.txClean (s : State) (p : Nat) : State :=
  s.endAll ((s.pollsOn p).filter (fun e =>
    decide (0 < e.wait) || !s.bit F.STR_TONE_SPACING_EN (rxO (4 * s.leadOf p + e.slot)))) 9

/-- Port `p` may enter TX (R30, R37, R49). -/
def State.txMay (s : State) (p : Nat) : Bool := s.own && s.up.tap != 1 && s.portSt p == 2 && !s.inhibited p

/-- The first sample of port `p`'s transmission falls due at this tick (R37). -/
def State.txFalls (s : State) (p : Nat) : Bool :=
  match (s.port p).planned, (s.port p).enabledAt with
  | some _, some en =>
    let s := s.txClean p
    let l := s.burstsOn p
    !l.isEmpty && s.txMay p && decide (firstSample (firstOf l) en (s.get F.LP_AEN_CFG_LEAD) ≤ s.tick)
  | _, _ => false

/-- A transmission of receiver `r`'s port starts at this sample: the receiver is preempted, and nothing else is done (R108). -/
def State.rxTxStarts (s : State) (r : Nat) : Bool := decide (r < 576) && s.txFalls (r / 4)

/-! ### The PGA -/

/-- The lowest code of automatic mode: a `MIN_CODE` above `MAX_CODE` counts as `MAX_CODE` (R50). -/
def State.pgaMin (s : State) (p : Nat) : Nat :=
  min (s.get F.LP_PGA_MIN_CODE (lpO p)) (s.get F.LP_PGA_MAX_CODE (lpO p))

/-- Judges the next step of port `p`'s move (R97, R98): granted, it takes effect 3 samples later (R33); otherwise it is
held, and EV073 is raised when it first becomes held.  A step in flight comes first: each step is requested where the one before
it takes effect (R34). -/
def State.pgaJudge (s : State) (p : Nat) (auto : Bool) : State :=
  let cur := s.get F.LP_STATUS_GAIN_CODE (lpO p)
  let x := s.port p
  match x.target with
  | none => s
  | some t =>
    if x.step.isSome || s.portSt p == 3 || s.portSt p == 0 then s
    else if t = cur then s.onPort p (fun x => { x with target := none, held := none })
    else
      let up := decide (cur < t)
      if up || !s.hasHolder p || decide (x.refCode < cur) then
        s.onPort p (fun x => { x with step := some (up, s.tick + 96), held := none })
      else
        let fresh := x.held != some up
        let s := s.onPort p (fun x => { x with held := some up, heldAuto := auto })
        s.raiseIf fresh Ev.PGA_STEP_WAIT (4 * p)

/-- A request for a move to code `t` replaces whatever remains of an earlier one (R34). -/
def State.pgaRequest (s : State) (p t : Nat) (auto : Bool) : State :=
  let x := s.port p
  let keep := x.held == some (decide (s.get F.LP_STATUS_GAIN_CODE (lpO p) < t))
  let s := s.onPort p (fun x => { x with target := some t, heldAuto := auto, held := if keep then x.held else none })
  s.pgaJudge p auto

/-- In manual mode the gain moves to `GAIN_CODE` (R34). -/
def State.pgaManual (s : State) (p : Nat) : State :=
  if s.bit F.LP_PGA_MODE (lpO p) then s else s.pgaRequest p (s.get F.LP_PGA_GAIN_CODE (lpO p)) false

/-- Line and radio work is stopped as a whole: a thermal stop (R463), a lost clock (R456), or a profile that could not be applied
(R455). -/
def State.workOff (s : State) : Bool := s.bit F.PWR_DOMAIN_STAT_THERM_STOP || s.bit F.PWR_DOMAIN_STAT_FALLBACK || s.up.dead

/-- A cord engine's clock starts (R461), or a wake meets a clock that runs: its ports go from WATCH to AWAKE, and after a stop of
more than 426.7 µs every chain of the cord restarts. -/
def State.cordWake (s : State) (cord : Nat) (byEnergy : Bool) : State :=
  if s.workOff then s
  else
    let runs := s.cordRuns cord
    let long := !runs && decide (tget (fun _ => 0) s.cordStop cord + 16384 < s.tick)
    let s := if runs then s
      else
        let s := s.putBit F.PWR_DOMAIN_STAT 0 (s.engineOf cord) true
        if byEnergy then s.incWrap F.PWR_WAKE_CNT_ENERGY else s.incWrap F.PWR_WAKE_CNT_PLANNED
    let s := if long then s.cordRestart cord else s
    let s := (List.range 16).foldl (fun s j => s.portWake (16 * cord + j)) s
    (List.range 64).foldl (fun s j => s.onRx (64 * cord + j) (fun x => { x with stopped := false })) s

end Sys2Proof.Machine
end

