-- ==== Sys2Proof/Machine/Crossing.lean ====
section
/-! DEFINITION. The mains zero-crossing detector and the tracking of cycles (R151 to R157), and the triggers of sync groups
(R73, R74). -/
namespace Sys2Proof.Machine
open Sys2Proof

/-! ### Sync groups -/

/-- A trigger of group `g` stamped `S` schedules the group's restart (R73, R74); when its instant has passed as the trigger
arrives, the restart is late and comes at each chain's first sample after the arrival. -/
def State.syncTrigger (s : State) (g stamp : Nat) : State :=
  let due := stamp + 32 * s.get F.FC_SYNC_CFG_OFFSET (wO g)
  let late := decide (due < s.tick)
  { s with syncDue := s.syncDue ++ [⟨g, if late then s.tick + 1 else due, late, false, []⟩] }

/-- The groups 1 to 15 whose armed source is `src`, and the trigger of each, stamped `S`: `ONESHOT` clears `ARMED`. -/
def State.syncSource (s : State) (stamp : Nat) (wants : State → Nat → Bool) : State :=
  (List.range 16).foldl (fun s g =>
    if 1 ≤ g && s.bit F.FC_SYNC_CFG_ARMED (wO g) && wants s g then
      let s := if s.bit F.FC_SYNC_CFG_ONESHOT (wO g) then s.putB F.FC_SYNC_CFG_ARMED (wO g) false else s
      s.syncTrigger g stamp
    else s) s

/-- A rising edge of `PPS_IN` triggers the groups armed for it. -/
def State.syncPps (s : State) (stamp : Nat) : State :=
  s.syncSource stamp (fun s g => s.get F.FC_SYNC_CFG_SOURCE (wO g) == 2)

/-- A valid crossing of phase `ph` of set `a` triggers the groups armed for it. -/
def State.syncCross (s : State) (a ph : Nat) (neg : Bool) (stamp : Nat) : State :=
  s.syncSource stamp (fun s g => s.get F.FC_SYNC_CFG_SOURCE (wO g) == 1 && s.get F.FC_SYNC_CFG_SET (wO g) == a
    && s.get F.FC_SYNC_CFG_PHASE (wO g) == ph && s.bit F.FC_SYNC_CFG_POLARITY (wO g) == neg)

/-! ### Crossings -/

/-- A list with the item at `k` replaced. -/
def listSet {α : Type} (l : List α) (k : Nat) (v : α) : List α := l.mapIdx (fun j x => if j = k then v else x)

/-- Whether the angle `d`/`p` of a turn lies within 30° of `deg` degrees (R154). -/
def nearAngle (d p deg : Nat) : Bool :=
  decide (360 * d ≤ (deg + 30) * p) && decide ((deg - 30) * p ≤ 360 * d)

/-- The rotation judged at the L1+ crossing `z` that ends the cycle opened at `z0` (R154): 1 positive, 2 negative,
3 fault. -/
def rotationOf (crossed : List (Nat × Nat)) (z0 z : Nat) : Nat :=
  let at' := fun k => (crossed.find? (fun c => c.1 == k && decide (z0 ≤ c.2) && decide (c.2 ≤ z))).map (fun c => c.2 - z0)
  match at' 1, at' 2 with
  | some d2, some d3 =>
    let p := z - z0
    if nearAngle d2 p 120 && nearAngle d3 p 240 then 1
    else if nearAngle d2 p 240 && nearAngle d3 p 120 then 2 else 3
  | _, _ => 3

/-- Set `a` enters COASTING (R155): EV049, and `COAST_CYCLES` back to 0. -/
def State.mnsCoast (s : State) (a : Nat) : State :=
  let s := (s.put F.MNS_SET_STAT_STATE (setO a) 2).put F.MNS_SET_STAT_COAST_CYCLES (setO a) 0
  (s.onSet a (fun m => { m with goodRun := 0 })).raise Ev.MNS_COASTING a

/-- Set `a` enters UNLOCKED at a profile switch (R155), and `COAST_CYCLES` returns to 0 (R178). -/
def State.mnsUnlock (s : State) (a : Nat) : State :=
  let s := (s.put F.MNS_SET_STAT_STATE (setO a) 0).put F.MNS_SET_STAT_COAST_CYCLES (setO a) 0
  s.onSet a (fun m => { m with goodRun := 0 })

/-- Whether `p` is a good period (R155): 45 Hz to 66 Hz, and within 0.5 % of its reference where it has one. -/
def goodPeriod (ref : Option Nat) (p : Nat) : Bool :=
  decide (581818 ≤ p) && decide (p ≤ 853333)
    && (match ref with
        | none => true
        | some r => decide (200 * ((p : Int) - r).natAbs ≤ r))

/-- The period that an L1+ stamp `z` ends is judged, and the state of set `a` follows (R155, R156). -/
def State.mnsPeriod (s : State) (a z0 z : Nat) : State :=
  let o := setO a
  let p := z - z0
  let st := s.get F.MNS_SET_STAT_STATE o
  let ref := if st = 0 then (s.mset a).prevPeriod else some (s.get F.MNS_PERIOD_TICKS o)
  if goodPeriod ref p then
    let s := (s.put F.MNS_PERIOD_TICKS o p).onSet a (fun m => { m with goodRun := m.goodRun + 1, prevPeriod := some p })
    let s := if st != 1 && decide (8 ≤ (s.mset a).goodRun) then
        (s.put F.MNS_SET_STAT_STATE o 1).raise Ev.MNS_LOCKED a
      else s
    if s.get F.MNS_SET_STAT_STATE o = 1 then s.onSet a (fun m => { m with cycleZ := z, cycleP := p }) else s
  else
    let s := s.onSet a (fun m => { m with goodRun := 0, prevPeriod := none })
    if st = 1 then (s.onSet a (fun m => { m with cycleZ := z, cycleP := s.get F.MNS_PERIOD_TICKS o })).mnsCoast a else s

/-- The rotation of set `a` is judged at an L1+ crossing while all three phases are present (R154). -/
def State.mnsRotate (s : State) (a z0 z : Nat) : State :=
  if s.get F.MNS_SET_STAT_PRESENT (setO a) != 7 then s
  else
    let r := rotationOf (s.mset a).crossed z0 z
    let old := s.get F.MNS_SET_STAT_ROTATION (setO a)
    let s := (s.put F.MNS_SET_STAT_ROTATION (setO a) r).onSet a (fun m => { m with lastRot := r })
    s.raiseIf (old != 0 && old != r) Ev.MNS_ROTATION a

/-- A valid crossing of phase `ph` of set `a`, stamped `t` (R152 to R155, R73). -/
def State.mnsCross (s : State) (a ph : Nat) (neg : Bool) (t : Nat) : State :=
  let o := setO a
  let kind := if neg then 3 + ph else ph
  let z0 := (s.mset a).prevZ
  let s := s.putTime F.MNS_ZC_TIME_LO (o + 8 * kind) t
  let s := s.onSet a (fun m => { m with
    lastX := listSet m.lastX ph (some t),
    beyond := listSet (listSet m.beyond (2 * ph) false) (2 * ph + 1) false,
    crossed := (kind, t) :: m.crossed.filter (fun c => decide (t < c.2 + sTicks 200)) })
  let s := s.put F.MNS_SET_STAT_PRESENT o (s.get F.MNS_SET_STAT_PRESENT o ||| 2 ^ ph)
  let s := if kind = 0 then
      let s := s.incWrap F.MNS_CYCLES_COUNT o
      let s := match z0 with
        | some z => (s.mnsRotate a z t).mnsPeriod a z t
        | none => s
      s.onSet a (fun m => { m with prevZ := some t })
    else s
  s.syncCross a ph neg t

/-- A settled output `y` of the mains chain of phase `ph` of set `a`, with overall ratio `m`, at tick `t` (R152,
R153). -/
def State.mnsOutput (s : State) (a ph m : Nat) (y : Int) (t : Nat) : State :=
  let x := s.mset a
  let hyst := s.get F.MNS_ZC_CFG_HYST (setO a)
  let prev := x.prevOut.getD ph none
  let was := x.prevSign.getD ph false
  let now := if y = 0 then was else decide (0 < y)
  let cross := match prev with
    | none => none
    | some (b, tb) =>
      let away := x.beyond.getD (2 * ph + (if was then 0 else 1)) false
      let mag := b.natAbs + y.natAbs
      let frac := if mag = 0 then 0 else (2 * b.natAbs * 1000 * m + mag) / (2 * mag)
      let z := tb + frac - 8 * s.get F.MNS_ZC_CFG_DELAY (setO a)
      let spaced := match x.lastX.getD ph none with | none => true | some l => decide (l + 192000 ≤ z)
      if was != now && away && spaced then some z else none
  let s := match cross with
    | some z => s.mnsCross a ph (!now) z
    | none => s
  let far := decide (hyst < y.natAbs)
  s.onSet a (fun q => { q with
    prevOut := listSet q.prevOut ph (some (y, t)), prevSign := listSet q.prevSign ph now,
    beyond := if far then listSet q.beyond (2 * ph + (if now then 0 else 1)) true else q.beyond })

/-- The output before an unsettled one is not consecutive with the next settled one (R151, R152). -/
def State.mnsGap (s : State) (a ph : Nat) : State :=
  s.onSet a (fun q => { q with prevOut := listSet q.prevOut ph none })

end Sys2Proof.Machine
end

