-- ==== Sys2Proof/Machine/LinePorts.lean ====
section
/-! DEFINITION. Line ports, coupling and the amplifier chain (R29 to R52), with the transmit statistics and the mask
monitor (R118 to R124). -/
namespace Sys2Proof.Machine
open Sys2Proof

/-- The port triples of a cord (R38): their first ports. -/
def tripleLeads (cord : Nat) : List Nat := (List.range 5).map (fun t => 16 * cord + 3 * t)

/-- Whether the three ports from `p` on agree in the field `f` of the words `view`. -/
def tripleEq (view : Nat → Word) (f : Fld) (p : Nat) : Bool :=
  let v := fun k => f.afterOf view (lpO (p + k))
  v 0 == v 1 && v 1 == v 2

/-- Whether strands of equal number of the triple led by port `p` agree in the registers that rules 0x36, 0x44 and 0x48
name. -/
def tripleStrandsEq (view : Nat → Word) (p : Nat) : Bool :=
  (List.range 4).all (fun k =>
    let ch := fun j a => view (0x060000 + fcO (144 + 4 * (p + j) + k) + a)
    let rc := fun j a => view (0x080000 + rxO (4 * (p + j) + k) + a)
    [0x00, 0x04].all (fun a => ch 0 a == ch 1 a && ch 1 a == ch 2 a)
      && [0x04, 0x08, 0x0C, 0x10, 0x58, 0x5C, 0x60, 0x64].all (fun a => rc 0 a == rc 1 a && rc 1 a == rc 2 a))

/-- The rules of an LP commit (R39, R148), judged on the captured cells. -/
def lpRules (cords : List Nat) (s : State) (cells : List (Nat × Word)) : Option (Nat × Nat) :=
  let view := s.after cells
  let pend := s.pendingCells 3 ++ s.pendingCells 4
  let pview := fun a => match pend.find? (fun c => c.1 == a) with | some c => c.2 | none => s.live a
  let coup := fun p => F.LP_CFG_COUPLING.afterOf view (lpO p)
  let perCord := fun (f : Nat → Bool) (r : Nat) => cords.map (fun c => (f c, r, c))
  let leads := fun c => (tripleLeads c).filter (fun p => coup p == 1)
  let shapeOk := fun p =>
    F.LP_SHAPE_EN.afterOf view (lpO p) == 0 ||
      (let k := F.LP_SHAPE_SET.afterOf view (lpO p)
       s.setValid p k && decide (s.setTaps p k ≤ 32))
  firstFail (
    perCord (fun c => (tripleLeads c).all (fun p => coup p == coup (p + 1) && coup p == coup (p + 2))) 0x20
    ++ perCord (fun c => coup (16 * c + 15) == 0) 0x21
    ++ perCord (fun c => (leads c).all (fun p => tripleEq view F.LP_CFG_ENABLE p && tripleEq view F.LP_CFG_MAINS_SET p))
        0x22
    ++ perCord (fun c => (List.range 16).all (fun j =>
        [0x00, 0x0C].all (fun a => shadowLegal (0x040000 + lpO (16 * c + j) + a)
          (view (0x040000 + lpO (16 * c + j) + a))))) 0x23
    ++ perCord (fun c => (List.range 16).all (fun j => shapeOk (16 * c + j))) 0x24
    ++ perCord (fun c => (leads c).all (fun p =>
        view (F.LP_SHAPE.addr + lpO p) == view (F.LP_SHAPE.addr + lpO (p + 1))
          && view (F.LP_SHAPE.addr + lpO p) == view (F.LP_SHAPE.addr + lpO (p + 2)))) 0x25
    ++ perCord (fun c => (leads c).all (fun p => s.bit F.LP_CFG_COUPLING (lpO p)
        || (tripleStrandsEq s.live p && tripleStrandsEq pview p))) 0x26
    ++ perCord (fun c => !s.instPending 2 c) 0x27)

/-- LP_COMMIT (R39, R40, R148). -/
def execLpCommit (i : Iface) (w : Word) (s : State) : Out := s.answer <|
  let cords := cordsOf (F.LP_COMMIT_CORDS.of w)
  .next ((s.wlogNote i F.LP_COMMIT.addr w).commit i 2 cords (lpRules cords))

/-- Port `p` goes to OFF (R29).  From TX it sends no further sample: a transmission that an inhibit was ending is over, and the shift
that clears its enable is requested `TAIL` later (R44); the receive path is in the monitor setting no longer (R31).  An enable
asked for a transmission that has not begun is taken back.  DESIGN CHOICE, log entry 125. -/
def State.portOff (s : State) (p : Nat) : State :=
  let x := s.port p
  let s := if x.planned.isSome then s.aenClear p else s
  let tail := if x.tx.isEmpty then x.tailDue else some (s.tick + usTicksUp (s.get F.LP_AEN_CFG_TAIL))
  let s := (s.portHalt p).onPort p (fun x => { x with
    held := none, step := none, target := none, watchBuf := [], watchRun := 0, monitor := false, clearedAt := none,
    tailDue := tail, txLeft := if s.portSt p = 3 then s.tick else x.txLeft })
  s.put F.LP_STATUS_STATE (lpO p) 0

/-- A port takes its applied enable and set (R29, R162): the port goes to OFF, or from OFF to WATCH, where the gain moves to its
manual code (R34); a change of `MAINS_SET` clears its map. -/
def State.lpApplied (s : State) (old : State) (p : Nat) : State :=
  let en := s.get F.LP_CFG_ENABLE (lpO p)
  let was := old.get F.LP_CFG_ENABLE (lpO p)
  let s := if s.setOf p != old.setOf p then { s with maps := s.maps.filter (fun e => e.1 / 128 != p) } else s
  if en == was then s
  else if en == 0 then s.portOff p
  else
    let s := (s.put F.LP_STATUS_STATE (lpO p) 1).portFault p
    (s.onPort p (fun x => { x with lastOver := s.tick, lastDown := s.tick })).pgaManual p

/-- The ports of cord `c` whose words in the pending LP commits differ from their live ones (R40). -/
def State.lpChanged (s : State) (c : Nat) : List Nat :=
  let cells := s.pendingCells 2
  ((List.range 16).map (16 * c + ·)).filter (fun p => [0x00, 0x0C, 0x2C].any (fun a =>
    let a := 0x040000 + lpO p + a
    s.after cells a != s.live a))

/-- LP_COMMIT_APPLY (R40): the first instant at which no port of the cord whose captured value differs from its live one
has an exchange in flight. -/
def execLpCommitApply (cord : Fin 9) (s : State) : Out := s.answer <|
  let c := cord.val
  if s.instPending 2 c && !(s.lpChanged c).any s.exchOn then
    .next ((List.range 16).foldl (fun (t : State) j => t.lpApplied s (16 * c + j)) (s.applyInst 2 c))
  else .next s

/-- LP_PGA_WRITE (R34): the fields are written; in manual mode the write requests a move to `GAIN_CODE`. -/
def execLpPgaWrite (i : Iface) (p : Fin 144) (w : Word) (s : State) : Out := s.answer <|
  let o := lpO p.val
  let s := s.wlogNote i (F.LP_PGA.addr + o) w
  let keep := s.get F.LP_PGA_GAIN_CODE o
  let s := s.fieldWrite (F.LP_PGA.addr + o) w
  if s.bit F.LP_PGA_MODE o then .next (s.put F.LP_PGA_GAIN_CODE o keep)
  else .next (s.pgaRequest p.val (F.LP_PGA_GAIN_CODE.of w) false)

/-- Whether the level controller of port `p` runs: automatic mode, and not in TX or OFF (R34, R35). -/
def State.pgaAuto (s : State) (p : Nat) : Bool :=
  s.bit F.LP_PGA_MODE (lpO p) && s.portSt p != 3 && s.portSt p != 0

/-- OVERRANGE_WINDOW (R34, R49): a window with 4 or more samples at −0.5 dBFS or above. -/
def execOverrangeWindow (p : Fin 144) (n : Fin 65) (s : State) : Out := s.answer <|
  let o := lpO p.val
  if n.val < 4 || !s.pgaAuto p.val then .next s
  else
    let s := (s.incSat F.LP_COUNTS_OVERRANGE o).putB F.LP_FLAGS_OVERRANGE o true
    let s := s.raise Ev.LP_OVERRANGE p.val
    let s := s.onPort p.val (fun x => { x with lastOver := s.tick })
    let cur := s.get F.LP_STATUS_GAIN_CODE o
    .next (if s.pgaMin p.val < cur then s.pgaRequest p.val (cur - 1) true else s)

/-- Whether the up-step condition of R34 holds: a peak below −21 dBFS (in 0.01 dB) over 20 ms without a down-step. -/
def State.upCond (s : State) (p : Nat) (peak : Int) : Bool :=
  decide (peak < -2100) && decide ((s.port p).lastDown + 24000 * 32 ≤ s.tick)

/-- PGA_UP_STEP_REQUEST (R34). -/
def execPgaUpStepRequest (p : Fin 144) (peak : Int) (s : State) : Out := s.answer <|
  let cur := s.get F.LP_STATUS_GAIN_CODE (lpO p.val)
  if s.pgaAuto p.val && s.upCond p.val peak && decide (cur < s.get F.LP_PGA_MAX_CODE (lpO p.val)) then
    -- the next up-step looks at the 20 ms that follow
    .next ((s.onPort p.val (fun x => { x with lastDown := s.tick })).pgaRequest p.val (cur + 1) true)
  else .next s

/-- PGA_STEP_EFFECT (R33, R34): the granted step takes effect 3 samples after its request, the stream is compensated from
the same sample on, and the next step of the move is requested. -/
def execPgaStepEffect (p : Fin 144) (s : State) : Out := s.answer <|
  let o := lpO p.val
  match (s.port p.val).step with
  | none => .next s
  | some (up, t) =>
    if s.tick < t then .next s
    else
      let cur := s.get F.LP_STATUS_GAIN_CODE o
      let s := (s.codesNote p.val).put F.LP_STATUS_GAIN_CODE o (if up then cur + 1 else cur - 1)
      let s := s.onPort p.val (fun x => { x with step := none, lastDown := if up then x.lastDown else s.tick })
      .next ((s.refUpdate p.val).pgaJudge p.val (s.port p.val).heldAuto)

/-- PGA_HELD_GRANT (R98): the first sample at which R97 permits the held request. -/
def execPgaHeldGrant (p : Fin 144) (s : State) : Out := s.answer <|
  match (s.port p.val).held with
  | none => .next s
  | some _ => .next ((s.refUpdate p.val).pgaJudge p.val (s.port p.val).heldAuto)

/-- PGA_REQUEST_WITHDRAW (R98), in automatic mode only: a held down request after 24,000 samples without an overrange
window, or a held up request whose condition no longer holds. -/
def execPgaRequestWithdraw (p : Fin 144) (peak : Int) (s : State) : Out := s.answer <|
  let x := s.port p.val
  match x.held with
  | none => .next s
  | some up =>
    let due := if up then !s.upCond p.val peak else decide (x.lastOver + 24000 * 32 ≤ s.tick)
    if s.bit F.LP_PGA_MODE (lpO p.val) && due then
      .next (s.onPort p.val (fun x => { x with held := none, target := none }))
    else .next s

/-- The mean square of ADC words, full scale 1. -/
def meanSq (l : List Rat) : Rat := (l.foldl (fun (a : Rat) x => a + x * x) 0) / max 1 l.length

/-- An ADC word as a fraction of full scale (R31). -/
def adcFrac (x : BitVec 14) : Rat := (x.toInt : Rat) / 8192

/-- The samples `xs` through the watch band-pass from state `z` (R46): its outputs and its next state. -/
def bandRun (low high : Nat) : List Rat → List Rat → List Rat × List Rat
  | z, [] => ([], z)
  | z, x :: t =>
    let y := Config.bandPass low high z x
    let r := bandRun low high y.2 t
    (y.1 :: r.1, r.2)

/-- WATCH_WINDOW (R46, R47): the 64 ADC samples of a window pass the band-pass; the level of what
leaves it is recorded, and the front end keeps the last 512 samples.  After `WINDOWS` consecutive windows at or above `THRESH` with
`WAKE_EN` = 1 the cord engine wakes and EV033 is raised.  The recorded level is rounded to the nearest 0.5 dB (log entry 97). -/
def execWatchWindow (p : Fin 144) (a : AdcRun) (s : State) : Out := s.answer <|
  let o := lpO p.val
  let inWatch := s.portSt p.val == 1 || (s.portSt p.val == 4 && !s.cordRuns (p.val / 16))
  if !inWatch || a.words.length != 64 then .next s
  else
    let x := s.port p.val
    let y := bandRun (s.get F.LP_WATCH_BAND_LOW_KHZ) (s.get F.LP_WATCH_BAND_HIGH_KHZ) x.watchZ (a.words.map adcFrac)
    -- 0.5 dB units: twice the level in dBµV is 2 × 10 log10 (2 × mean square) + 246 − 12 × code
    let pow := 2 * meanSq y.1
    let full : Int := 246 - 12 * (s.get F.LP_STATUS_GAIN_CODE o : Int)
    let level := if dbGe pow 2 (40 - full) then min 255 (dbRound pow 2 + full - 40).toNat else 0
    let reached := dbGe pow 2 (40 + (s.get F.LP_WATCH_THRESH o : Int) - full)
    let run := if reached then x.watchRun + 1 else 0
    let kept := x.watchBuf ++ a.words.mapIdx (fun j v => (v, a.last - 32 * (63 - j)))
    let s := (s.put F.LP_STATUS_WATCH_LEVEL o level).onPort p.val (fun x => { x with
      watchRun := run, watchZ := y.2, watchBuf := kept.drop (kept.length - 512) })
    if s.get F.LP_WATCH_WINDOWS o ≤ run && s.bit F.LP_WATCH_WAKE_EN o then
      .next ((s.cordWake (p.val / 16) true).raise Ev.LP_WAKE p.val)
    else .next s

/-- The nearest integer to a quarter of `q`. -/
def quarter (q : Int) : Int := roundAway ((q : Rat) / 4)

/-- EV036 when the reference lies below `MIN_RATIO` (R48). -/
def State.monLow (s : State) (p : Nat) (ref : Int) : State :=
  if ref < 4 * s.getI F.LP_MON_CFG_MIN_RATIO (lpO p) then
    (s.putB F.LP_FLAGS_MON_LOW (lpO p) true).raise Ev.LP_MONITOR_LOW p
  else s

/-- The power ratio of R48 of block `b` of port `p`'s transmission, 0.1 dB units: the ADC words `adc` in the monitor setting of
4 V full scale (R31) against the 256 DAC words of 2 V full scale (R36).  A block in which the DAC drives nothing has no ratio: the
value is free (log entry 98). -/
def State.monRatio (s : State) (p b : Nat) (adc : List (BitVec 14)) : Int × State :=
  let rx := 4 * meanSq (adc.map adcFrac)
  let tx := meanSq ((List.range 256).map (fun (n : Nat) => ((s.dacWord p (256 * b + n)).1 : Rat) / 2048))
  if tx ≤ 0 then ((s.draw 12).1.toInt, (s.draw 12).2) else (max (-2048) (min 2047 (dbRound (rx / tx) 10)), s)

/-- MON_BLOCK (R48): the ratio is reported; the first four blocks give the reference; two consecutive blocks
beyond `STEP_DB` of it are an impedance step, whose mean is the new reference. -/
def execMonBlock (p : Fin 144) (adc : List (BitVec 14)) (s : State) : Out := s.answer <|
  let o := lpO p.val
  let n := (s.port p.val).monN
  let due := decide ((s.port p.val).txStart + 4096 * (n + 1) ≤ s.tick) && decide (256 * (n + 1) ≤ s.txSamples p.val)
  if s.portSt p.val != 3 || !due || adc.length != 128 then .next s
  else
    let r := s.monRatio p.val n adc
    let ratio := r.1
    let s := (r.2.putI F.LP_STATUS_MON_RATIO o ratio).onPort p.val (fun x => { x with monN := n + 1 })
    let x := s.port p.val
    match x.monRef with
    | none =>
      let sum := x.monSum + ratio
      let s := s.onPort p.val (fun x => { x with monSum := sum })
      if n + 1 < 4 then .next s
      else .next ((s.onPort p.val (fun x => { x with monRef := some sum })).monLow p.val sum)
    | some ref =>
      let far := decide ((s.get F.LP_MON_CFG_STEP_DB o * 40 : Nat) < (4 * ratio - ref).natAbs)
      match far, x.monPrev with
      | false, _ => .next (s.onPort p.val (fun x => { x with monPrev := none }))
      | true, none => .next (s.onPort p.val (fun x => { x with monPrev := some ratio }))
      | true, some prev =>
        let ref' := 2 * (prev + ratio)
        let s := s.onPort p.val (fun x => { x with monPrev := none, monRef := some ref' })
        let s := (s.putB F.LP_FLAGS_IMP_STEP o true).incSat F.LP_COUNTS_MON_STEPS o
        let s := s.raiseLogged Ev.IMPEDANCE_STEP (4 * p.val) 0x10 (s.setOf p.val)
          (le p.val 2 ++ le (toSigned 16 (quarter ref)) 2 ++ le (toSigned 16 (quarter ref')) 2)
        .next (s.monLow p.val ref')

/-- A port of port `p`'s triple that sends already (R38). -/
def State.txOther (s : State) (p : Nat) : Option Nat := (s.withTriple p).find? (fun q => s.portSt q == 3 && !(s.port q).tx.isEmpty)

/-- Port `p` joins the waveform of its triple. -/
def State.txJoins (s : State) (p : Nat) : Bool := (s.txOther p).isSome

/-- The polls of port `p` go out `d` ticks late (R43), and the ends of their sync words with them (R167). -/
def State.pollsLater (s : State) (p d : Nat) : State :=
  let mine := s.pollsOn p
  { s with exchs := s.exchs.map (fun e => if mine.contains e then { e with pollS := e.pollS + d } else e) }

/-- The frames that port `p` sends, the first of them at `first0` or as much later as `first` is (R43); a member of a triple whose
other ports send already joins their waveform (R38). -/
def State.txFrames (s : State) (p : Nat) (l : List Burst) (shift : Nat) : List Burst :=
  match s.txOther p with
  | some q => (s.port q).tx
  | none => l.map (fun b => { b with start := b.start + shift })

/-- A DAC sample boundary at or after `t`, counted from `t0` (R36). -/
def dacFrom (t0 t : Nat) : Nat := t0 + (t - t0 + 15) / 16 * 16

/-- TRANSMISSION_START (R29, R35, R37, R43): every condition of R37 holds.  The port enters TX, the PGA goes to monitor,
the reference code is set, a step not yet made and a held automatic request are withdrawn and the port's receivers are preempted; a
first sample that was held counts as late. -/
def execTransmissionStart (p : Fin 144) (s : State) : Out := s.answer <|
  let o := lpO p.val
  let x := s.port p.val
  match x.planned, x.enabledAt with
  | some _, some en =>
    let s := s.txClean p.val
    let l := s.burstsOn p.val
    let t0 := firstOf l
    let first := firstSample t0 en (s.get F.LP_AEN_CFG_LEAD)
    if l.isEmpty then .next ((s.onPort p.val (fun x => { x with planned := none })).aenClear p.val)
    else if s.txMay p.val && decide (first ≤ s.tick) then
      let s := if t0 < first then (s.incSat F.LP_AEN_STAT_LATE_COUNT).raise Ev.AEN_LATE p.val else s
      let late := dacFrom t0 s.tick - t0
      let s := if s.txJoins p.val then s else s.pollsLater p.val late
      let tx := s.txFrames p.val l late
      let s := s.put F.LP_STATUS_STATE o 3
      let s := s.onPort p.val (fun x => { x with
        planned := none, tx := tx, txStart := firstOf tx, clearedAt := none, monitor := true, monN := 0, monSum := 0,
        monRef := none, monPrev := none, maskN := 0, maskRun := 0, maskSeen := false, tailDue := none, step := none,
        refCode := s.get F.LP_STATUS_GAIN_CODE o,
        held := if x.heldAuto then none else x.held, target := if x.heldAuto then none else x.target })
      let s := tx.foldl (fun s b => s.onRx (4 * s.leadOf p.val + b.strand) (fun r => { r with txOn := true })) s
      .next ((List.range 4).foldl (fun s k => s.rxForceHold (4 * p.val + k)) s)
    else .next s
  | _, _ => .next s

/-- What the limiter and the DAC did in port `p`'s transmission (R119, R120, R147): the limiter's figures are those of the port whose
synthesisers run. -/
def State.txFigures (s : State) (p : Nat) : State :=
  let o := lpO p
  let n := s.txSamples p
  let l := limStats (fun i => s.txGain p i) n
  let s := s.incSat F.LP_CREST_STAT_DAC_CLIP o (s.dacClips p)
  if s.leadOf p != p then s
  else
    let s := (s.put F.LP_CREST_STAT_LIMITED o (if n = 0 then 0 else l.1 * 10000 / n)).put F.LP_CREST_STAT_MAX_CUT o (min l.2 255)
    s.raiseIf (s.bit F.LP_CREST_EN o && decide (n < 100 * l.1)) Ev.CREST_LIMIT (4 * p)

/-- The strands of port `p` have sent: a frame sent whole is counted on its strand (R144, R145). -/
def State.txCount (s : State) (p : Nat) : State :=
  if s.leadOf p != p then s
  else (s.port p).tx.foldl (fun (s : State) b =>
    let r := 4 * p + b.strand
    let s := s.onRx r (fun x => { x with txOn := false })
    if b.whole then s.incSat F.STR_FRM_CNT_B_TX_FRAMES (rxO r) else s) s

/-- TRANSMISSION_END (R44, R49, R118 to R120, R227): the last ramp-down of the port's transmission has ended; `limited` DAC samples had the
driver's current limit active. -/
def execTransmissionEnd (p : Fin 144) (limited : Nat) (s : State) : Out := s.answer <|
  let o := lpO p.val
  let x := s.port p.val
  let done := txOver x.tx
  if s.portSt p.val != 3 || x.tx.isEmpty || decide (s.tick < done) then .next s
  else
    let fault := decide (s.txSamples p.val < 100 * limited)
    let s := (s.txFigures p.val).txCount p.val
    let run := if fault then x.driveRun + 1 else 0
    let s := if fault then (s.putB F.LP_FLAGS_DRIVE_FAULT o true).raise Ev.LP_DRIVE_FAULT p.val else s
    let s := s.onPort p.val (fun x => { x with
      driveRun := run, driveInh := x.driveInh || decide (3 ≤ run), tx := [],
      tailDue := some (done + usTicksUp (s.get F.LP_AEN_CFG_TAIL)) })
    let mine := s.pollsOn p.val
    let s := { s with exchs := s.exchs.map (fun (e : Exch) =>
      if mine.contains e then { e with step := if e.step = 0 then 2 else if e.step = 3 then 4 else e.step } else e) }
    let s := mine.foldl (fun (s : State) e => s.ctxInc e.session 0x304 (s.servant e.session)) s
    let acks := (mine.filter (fun (e : Exch) => e.step == 5)).map (·.session)
    let s := acks.foldl (fun s k => s.exchEnd k 1) s
    .next (if s.inhibited p.val then s.aenClear p.val else s)

/-- TX_EXIT (R29, R35, R98): 10 µs after the latch that clears the port's enable.  The PGA is back at the code it held,
the settling mark covers 8 samples, the level controller starts afresh, and a held manual request is judged again. -/
def execTxExit (p : Fin 144) (s : State) : Out := s.answer <|
  let x := s.port p.val
  match x.clearedAt with
  | none => .next s
  | some t =>
    if s.portSt p.val != 3 || !x.tx.isEmpty || s.tick < t + 384 then .next s
    else
      let s := (s.put F.LP_STATUS_STATE (lpO p.val) 2).portFault p.val
      let s := s.onPort p.val (fun x => { x with
        clearedAt := none, monitor := false, txLeft := s.tick, settleEnd := s.tick + 256, lastOver := s.tick,
        lastDown := s.tick, tailDue := none })
      let s := if s.cordRuns (p.val / 16) then s else s.portSleep p.val
      .next ((s.refUpdate p.val).pgaJudge p.val false)

/-- LREF_FAULT (R49): the offset (mV) has been above 0.25 V for more than 10 ms. -/
def execLrefFault (cord : Fin 9) (mv : Int) (s : State) : Out := s.answer <|
  if mv.natAbs ≤ 250 || s.bitAt F.LP_LREF_STAT 0 cord.val then .next s
  else
    let s := (s.putBit F.LP_LREF_STAT 0 cord.val true).raise Ev.LREF_FAULT cord.val
    .next ((List.range 16).foldl (fun s j => s.portInhibit (16 * cord.val + j)) s)

/-- LREF_CLEAR (R49): the offset (mV) has been below 0.20 V for 100 ms. -/
def execLrefClear (cord : Fin 9) (mv : Int) (s : State) : Out := s.answer <|
  if 200 ≤ mv.natAbs || !s.bitAt F.LP_LREF_STAT 0 cord.val then .next s
  else
    let s := s.putBit F.LP_LREF_STAT 0 cord.val false
    .next ((List.range 16).foldl (fun s j => s.portFault (16 * cord.val + j)) s)

/-- LP_FLAGS_CLEAR (R49, R50): the flags written 1 clear; clearing `DRIVE_FAULT` releases the inhibit from drive
faults.  DESIGN CHOICE, log entry 96: it also restarts the count of consecutive faulty transmissions. -/
def execLpFlagsClear (i : Iface) (p : Fin 144) (w : Word) (s : State) : Out := s.answer <|
  let a := F.LP_FLAGS.addr + lpO p.val
  let s := (s.wlogNote i a w).fieldWrite a w
  if F.LP_FLAGS_DRIVE_FAULT.on w then
    .next ((s.onPort p.val (fun x => { x with driveInh := false, driveRun := 0 })).portFault p.val)
  else .next s

/-- The planners ask for the enable of port `p` 52 µs before the first sample T0 of a round that holds it (R193). -/
def State.askDue (s : State) (p t0 : Nat) : Bool :=
  s.rounds.any (fun r => r.ports.contains p && r.t0 == t0) && decide (t0 ≤ s.tick + usTicksUp 52)

/-- AEN_SHIFT_REQUEST (R43, R193): the change joins the word of the next shift; with an enable comes the planned first sample
of the round.  A port in TX_INHIBIT starts none (R49), nor does a module that does not own its boards (R30). -/
def execAenShiftRequest (p : Fin 144) (on : Bool) (t0 : Nat) (s : State) : Out := s.answer <|
  if !s.own then .next s
  else if !on then .next (s.aenClear p.val)
  else if s.inhibited p.val || s.portSt p.val == 0 then .next (s.endAll (s.pollsOn p.val) 9)
  else if s.askDue p.val t0 then
    let s := s.onPort p.val (fun x => { x with planned := some t0 })
    .next { s with aen := { s.aen with want := s.aen.want ||| ((1 : BitVec 144) <<< p.val), waiting := true } }
  else .next s

/-- Starts a shift cycle with the word to be captured: all zero for the first one of an owner (R45). -/
def State.aenStart (s : State) : State :=
  let word := if s.aen.zeroOwed then 0 else s.aen.want
  let s' := s.incWrap F.LP_AEN_STAT_SHIFT_COUNT
  { s' with aen := { s.aen with shifting := some (word, s.tick), waiting := s.aen.zeroOwed, zeroOwed := false } }

/-- AEN_SHIFT (R41, R43, R45): no shift runs, the last one is over and a request or the all-zero word waits. -/
def execAenShift (s : State) : Out := s.answer <|
  if s.own && s.aen.shifting.isNone && decide (s.aen.lastEnd ≤ s.tick) && (s.aen.waiting || s.aen.zeroOwed) then
    .next s.aenStart
  else .next s

/-- A port sees its bit latched: the time of an enable, or of the clearing that ends TX (R29, R37). -/
def State.aenLatched (s : State) (word : BitVec 144) (p : Nat) : State :=
  let was := s.aen.latched.getLsbD p
  let now := word.getLsbD p
  if was == now then s
  else if now then s.onPort p (fun x => { x with enabledAt := some s.tick, clearedAt := none })
  else s.onPort p (fun x => { x with
    enabledAt := none, clearedAt := if s.portSt p == 3 then some s.tick else none })

/-- AEN_LATCH (R41): 15.000 µs (576 ticks) after the start of the shift the word is latched on the boards; the cycle is
over after 592 ticks. -/
def execAenLatch (s : State) : Out := s.answer <|
  match s.aen.shifting with
  | none => .next s
  | some (word, t0) =>
    if s.tick < t0 + 576 then .next s
    else
      let s' := (List.range 144).foldl (fun t p => t.aenLatched word p) s
      let s' := (List.range 5).foldl (fun t n =>
        t.setLive (F.LP_AEN_WORD.addr + 4 * n) ((word >>> (32 * n)).setWidth 32)) s'
      .next { s' with aen := { s'.aen with shifting := none, latched := word, lastEnd := t0 + 592 } }

/-- The levels of `AEN_DAT`, `AEN_CLK` and `AEN_LAT` at tick `t` (R41, R45); none: high impedance.  A period of 4 ticks begins
with the falling edge of the clock, on which the data changes; LP143's bit comes first.  DEDUCED, log entry 99: the clock stays low
in periods 144 to 147, so that a full shift moves every stage 144 times. -/
def State.aenPins (s : State) (t : Nat) : Option (Bool × Bool × Bool) :=
  if !s.own then none
  else match s.aen.shifting with
    | some (word, t0) =>
      let k := (t - t0) / 4
      some (if k < 144 then (word.getLsbD (143 - k), decide (2 ≤ (t - t0) % 4), false) else (false, false, decide (k < 146)))
    | none => some (false, false, decide (s.aen.lastEnd ≤ t + 16) && decide (t + 8 < s.aen.lastEnd))

/-- AEN_IDLE_SHIFT (R43): no shift has run for 1 ms, so the current word is shifted again. -/
def execAenIdleShift (s : State) : Out := s.answer <|
  if s.own && s.aen.shifting.isNone && decide (s.aen.lastEnd + msTicks 1 ≤ s.tick) then .next s.aenStart else .next s

/-- AEN_TAIL_EXPIRY (R44): `TAIL` after the last transmitted sample, a shift that clears the port's bit is requested. -/
def execAenTailExpiry (p : Fin 144) (s : State) : Out := s.answer <|
  match (s.port p.val).tailDue with
  | none => .next s
  | some t =>
    if s.tick < t then .next s
    else .next ((s.aenClear p.val).onPort p.val (fun x => { x with tailDue := none }))

/-- The point of block `b` of port `p`'s transmission with the largest excess over its limit, in 0.25 dB units, if any point exceeds
it (R123); the lowest of equals. -/
def State.maskWorst (s : State) (p b : Nat) : Option (Nat × Int) :=
  ((List.range 64).filter (fun k => !dbLe (s.maskPoint p b k) 2 (s.getI F.LP_MASK_LIMIT (wO k)))).foldl
    (fun (best : Option (Nat × Int)) (k : Nat) =>
      let ex := dbRound (s.maskPoint p b k) 4 - 2 * s.getI F.LP_MASK_LIMIT (wO k)
      match best with
      | some x => if x.2 < ex then some (k, ex) else best
      | none => some (k, ex)) none

/-- A mask cut (R124, R144): the synthesisers of port `p`'s triple ramp down, and every exchange whose poll is on the transmission
fails; `from'` is the start of the block that brought the cut. -/
def State.maskCut (s : State) (p from' : Nat) : State :=
  let t := s.tick
  let s := s.endAll (s.pollsOn p) 6
  (s.withTriple p).foldl (fun s q => s.onPort q (fun x => { x with tx := x.tx.map (fun b => b.cutAt from' t) })) s

/-- MASK_BLOCK (R123, R124): block `b`, the next whole block of 256 DAC words of a transmitting port.  DESIGN CHOICE, log entry 100:
`POINT` and `EXCESS` follow the first violating block of a transmission only, and a last block that is not whole is not
analysed. -/
def execMaskBlock (p : Fin 144) (b : Nat) (s : State) : Out := s.answer <|
  let o := lpO p.val
  let n := (s.port p.val).maskN
  let from' := (s.port p.val).txStart + 4096 * n
  if s.portSt p.val != 3 || b != n || decide (s.tick < from' + 4096) || decide (s.txSamples p.val < 256 * (n + 1)) then .next s
  else
    let worst := if s.bit F.LP_MASK_CFG_EN o then s.maskWorst p.val n else none
    let s := s.onPort p.val (fun x => { x with maskN := n + 1 })
    match worst with
    | none => .next (s.onPort p.val (fun x => { x with maskRun := 0 }))
    | some (k, ex) =>
      let excess := min ex.toNat 255
      let first := !(s.port p.val).maskSeen
      let s := (s.incSat F.LP_MASK_STAT_BLOCKS o).onPort p.val (fun x => { x with maskRun := x.maskRun + 1, maskSeen := true })
      let s := if first then
          ((s.put F.LP_MASK_STAT_POINT o k).put F.LP_MASK_STAT_EXCESS o excess).raiseLogged Ev.TX_MASK_VIOLATION
            (4 * p.val) 0x11 (s.setOf p.val) (le p.val 2 ++ le k 1 ++ le excess 1)
        else s
      if s.bit F.LP_MASK_CFG_ACTION o && decide (s.get F.LP_MASK_CFG_COUNT o ≤ (s.port p.val).maskRun) then
        .next (s.maskCut p.val from')
      else .next s

end Sys2Proof.Machine
end

