-- ==== Sys2Proof/Machine/Datapath.lean ====
section
/-! DEFINITION. The datapath of a filter chain: port compensation, blanker, mixer, CIC, FIR, output word, fades, swaps and
thresholds (R33, R53 to R66, R68, R69, R74, R163), what it feeds (R53, R99), and the load of chains and engines (R57). -/
namespace Sys2Proof.Machine
open Sys2Proof

/-! ### Chains, engines and load -/

/-- The cord of a port or strand chain. -/
def cordOfChain (c : Nat) : Nat := if c < 144 then c / 16 else (c - 144) / 64

/-- Whether the engine that computes chain `c` runs (R53, R461). -/
def State.chainRuns (s : State) (c : Nat) : Bool :=
  if c < 720 then s.cordRuns (cordOfChain c)
  else if c < 726 then !s.bit F.PWR_DOMAIN_STAT_FALLBACK && !s.marked 23
  else s.bit F.PWR_DOMAIN_STAT_RADIO

/-- Whether chain `c` carries complex data behind its mixer (R53). -/
def complexChain (c : Nat) : Bool := decide (144 ≤ c) && !(decide (720 ≤ c) && decide (c < 726))

/-- The load engine of chain `c` (R57): 0 to 8 the cords, 9 the mains unit, 10 to 13 the heads. -/
def engineOfChain (c : Nat) : Nat :=
  if c < 720 then cordOfChain c else if c < 726 then 9 else 10 + (c - 726) / 8

/-- The chains of load engine `e`. -/
def chainsOf (e : Nat) : List Nat :=
  if e < 9 then (List.range 16).map (· + 16 * e) ++ (List.range 64).map (· + (144 + 64 * e))
  else if e = 9 then (List.range 6).map (· + 720)
  else (List.range 8).map (· + (726 + 8 * (e - 10)))

/-- The load of chain `c` with a set of `taps` taps, in MMAC/s (R57). -/
def loadOf (view : Nat → Word) (c taps : Nat) : Rat :=
  inRate view c / max 1 (ratioOf view c) * taps * (if complexChain c then 2 else 1) / 1000000

/-- The tap count that counts for load: 0 while the set is not valid (R57). -/
def State.loadTaps (s : State) (c k : Nat) : Nat := if s.setValid c k then s.setTaps c k else 0

/-- The nominal load of engine `e` in the words `view`. -/
def State.engineLoad (s : State) (view : Nat → Word) (e : Nat) : Rat :=
  (chainsOf e).foldl (fun sum c => sum + loadOf view c (s.loadTaps c (s.activeSet c))) 0

/-- The load of engine `e` with the fades in progress (R57). -/
def State.engineNow (s : State) (e : Nat) : Rat :=
  (chainsOf e).foldl (fun sum c =>
    let own := loadOf s.live c (s.loadTaps c (s.activeSet c))
    sum + own + (if s.bit F.FC_BANK_FADING (fcO c) then loadOf s.live c (s.loadTaps c (s.chain c).fadeOld) else 0)) 0

/-- The nominal limit of engine `e`, MMAC/s; the limit with fades is twice it (R57). -/
def loadLimit (e : Nat) : Nat := if e < 9 then 2400 else if e = 9 then 300 else 1600

/-! ### The port stream -/

/-- What the steps between the reference code and the PGA code of port `p` at its sample stamped `t` add to it, in 0.02 dB: 6 dB and the
calibrated error of each step (R33, R50). -/
def State.stepGain (s : State) (p t : Nat) : Int :=
  let cur := (s.codesAt p t).1
  let ref := (s.codesAt p t).2
  let w := s.live (F.LP_PGA_CAL.addr + lpO p)
  let sum := fun (lo hi : Nat) => (List.range' lo (hi - lo)).foldl
    (fun (a : Int) k => a + 300 + signed 4 (bitsOf w (4 * k + 3) (4 * k))) 0
  sum ref cur - sum cur ref

/-- An ADC word as stream 1 carries it (R352): 14 bits, sign-extended to 16. -/
def adcBytes (i : ChainIn) : List Byte := le ((i.re.sshiftRight 4).signExtend 16).toNat 2

/-- A sample of port `p`'s stream behind the compensation (R33, R96): the ADC word, in bits 17 to 4, times the inverse of the steps
since the reference code, rounded to nearest, ties away from zero (DESIGN CHOICE, log entry 4); the settling mark of R35 makes it
unsettled. -/
def State.portSample (s : State) (p : Nat) (i : ChainIn) : ChainIn :=
  let adc := ((i.re >>> 4) <<< 4).toInt
  let g := s.stepGain p i.stamp
  let v := if g = 0 then adc else (sat 18 (roundAway (adc * ampDb (-(g : Rat) / 50)))).1
  { i with re := BitVec.ofInt 18 v, im := 0, settled := i.settled && decide ((s.port p).settleEnd ≤ i.stamp) }

/-! ### The blanker -/

/-- The blanker of line strand `r`. -/
def State.blanker (s : State) (r : Nat) : BlankS := tget (fun _ => BlankS.init) s.blankers r

/-- The blanker of line strand `r` takes up `MNS_BLANK_CFG` and its mode as a listen window opens (R164, R176). -/
def State.blankLatch (s : State) (r : Nat) : State :=
  { s with blankers := tset (fun _ => BlankS.init) s.blankers r { s.blanker r with cfg := some (s.live (F.MNS_BLANK_CFG.addr + mnO r)) } }

/-- `MNS_BLANK_CFG` as in force at the blanker of line strand `r`: as it stood when the last window opened (R176). -/
def State.blankCfg (s : State) (r : Nat) : Word := ((s.blanker r).cfg).getD (s.live (F.MNS_BLANK_CFG.addr + mnO r))

/-- One input sample `x` of the strand chain of line strand `r` passes its blanker (R163): what leaves the 32-sample delay,
and whether it is marked blanked.  σ² takes a sample as it leaves, when it is known whether it is zeroed (log
entry 12). -/
def State.blankSample (s : State) (r : Nat) (x : Int) (settled : Bool) : (Int × Bool) × State :=
  let o := mnO r
  let b := s.blanker r
  let w := s.blankCfg r
  let k : Rat := F.MNS_BLANK_CFG_K.of w
  let imp := decide (k * k * b.sigma2 < 4 * x * x)
  let bypass := s.bit F.MNS_BLANK_STAT_MODE o
  let guard := F.MNS_BLANK_CFG_GUARD.of w
  let s := if imp then s.incSat F.MNS_BLANK_STAT_IMPULSES o else s
  let counts := settled && s.portSt (r / 4) != 3
  let mark := !bypass && (imp || decide (0 < b.guard))
  let older := if !bypass && imp then
      b.delay.mapIdx (fun j d => if j < guard then (d.1, d.2.1, true) else d)
    else b.delay
  let line := (x, counts, mark) :: older
  let g' := if bypass then 0 else if imp then guard else b.guard - 1
  let keep := fun (b' : BlankS) => { s with blankers := tset (fun _ => BlankS.init) s.blankers r b' }
  match (line.drop 32).head? with
  | none => ((0, false), keep { b with guard := g', delay := line })
  | some (v, use, bl) =>
    let sh : Rat := 2 ^ F.MNS_BLANK_CFG_RMS_SHIFT.of w
    let sig := if use && !bl then b.sigma2 + ((v * v : Int) - b.sigma2) / sh else b.sigma2
    ((if bl then 0 else v, bl), keep { b with sigma2 := sig, guard := g', delay := line.take 32 })

/-! ### Mixer, CIC and FIR -/

/-- The mixer of R54: the input multiplied by the conjugate of a full-scale oscillator.  DESIGN CHOICE, log entry 4: the products are
rounded to nearest, ties away from zero. -/
def mixSample (re im : Int) (phase : BitVec 32) : Int × Int :=
  let c := cosTurns ((phase.toNat : Rat) / 2 ^ 32)
  let d := sinTurns ((phase.toNat : Rat) / 2 ^ 32)
  (roundAway (re * c + im * d), roundAway (im * c - re * d))

/-- Four integrators in a row.  DESIGN CHOICE, log entry 101: their words wrap at 64 bits. -/
def integrate : List (BitVec 64) → BitVec 64 → List (BitVec 64)
  | [], _ => []
  | a :: t, x => (a + x) :: integrate t (a + x)

/-- Four combs in a row: their new delays, and what leaves the last. -/
def combine : List (BitVec 64) → BitVec 64 → List (BitVec 64) × BitVec 64
  | [], x => ([], x)
  | d :: t, x =>
    let r := combine t (x - d)
    (x :: r.1, r.2)

/-- The shift of the CIC output: `ceil (4 log2 Mc)` (R54). -/
def cicShift (mc : Nat) : Nat := if mc ≤ 1 then 0 else Nat.log2 (mc ^ 4 - 1) + 1

/-- One sample of a chain with CIC ratio `mc` into the CIC, and from there into the FIR history (R54, R55, R61). -/
def cicSample (mc : Nat) (ch : ChainS) (x : Int × Int) : ChainS :=
  if mc ≤ 1 then { ch with hist := (x :: ch.hist).take 1024, firIns := ch.firIns + 1 }
  else
    let ii := integrate (ch.cicInt.take 4) (BitVec.ofInt 64 x.1)
    let iq := integrate (ch.cicInt.drop 4) (BitVec.ofInt 64 x.2)
    let ch := { ch with cicInt := ii ++ iq }
    if (ch.idx + 1) % mc != 0 then ch
    else
      let ci := combine (ch.cicComb.take 4) (ii.getD 3 0)
      let cq := combine (ch.cicComb.drop 4) (iq.getD 3 0)
      let sc : Rat := 2 ^ cicShift mc
      let y := (roundAway ((ci.2.toInt : Rat) / sc), roundAway ((cq.2.toInt : Rat) / sc))
      { ch with cicComb := ci.1 ++ cq.1, hist := (y :: ch.hist).take 1024, firIns := ch.firIns + 1 }

/-- The output word of one bank on one component, and the saturations of accumulator and word (R54, R65). -/
def State.bankOut (s : State) (c k : Nat) (h : List Int) : Int × Bool × Bool :=
  let a := firAcc (s.coefOf (memOf c) k) h 0 (s.setTaps c k) (0, false)
  let y := sat 18 (roundAway ((a.1 * 2 ^ s.get F.FC_CFG_OUT_SHIFT (fcO c) : Int) / (2 ^ 17 : Rat)))
  (y.1, a.2, y.2)

/-- The output of a component: the active bank, or the blend of both banks during a fade (R62).  DESIGN CHOICE, log entry 102: the
blend is rounded to nearest, ties away from zero. -/
def State.compOut (s : State) (c : Nat) (h : List Int) : Int × Bool × Bool :=
  let x := s.chain c
  let new := s.bankOut c (s.activeSet c) h
  if s.bit F.FC_BANK_FADING (fcO c) && decide (x.fadeI < x.fadeN) then
    let old := s.bankOut c x.fadeOld h
    let w : Rat := (roundAway ((65536 * (x.fadeI + 1) : Nat) / (x.fadeN : Rat)) : Rat) / 65536
    let y := sat 18 (roundAway ((1 - w) * old.1 + w * new.1))
    (y.1, old.2.1 || new.2.1, old.2.2 || new.2.2 || y.2)
  else new

/-! ### What follows an output -/

/-- Saturation in an output (R65). -/
def State.chainSat (s : State) (c : Nat) (acc out : Bool) : State :=
  if acc || out then
    let o := fcO c
    let fresh := !s.bit F.FC_FLAGS_ACC_SAT o && !s.bit F.FC_FLAGS_OUT_SAT o
    let s := s.incSat F.FC_SAT_COUNT_COUNT o
    let s := if acc then s.putB F.FC_FLAGS_ACC_SAT o true else s
    let s := if out then s.putB F.FC_FLAGS_OUT_SAT o true else s
    if fresh then (s.putBit F.FC_SAT_PEND (wO (c / 32)) (c % 32) true).raise Ev.FC_SATURATE c else s
  else s

/-- Integer square root of `n`, below `2 ^ bits`. -/
def isqrt (n : Nat) : Nat → Nat → Nat
  | 0, r => r
  | b + 1, r => if (r + 2 ^ b) * (r + 2 ^ b) ≤ n then isqrt n b (r + 2 ^ b) else isqrt n b r

/-- The metric of an output (R66). -/
def State.chainMetric (s : State) (c : Nat) (y : Int × Int) : Int :=
  if s.bit F.FC_THR_CFG_METRIC (fcO c) then
    if complexChain c then (isqrt (y.1 * y.1 + y.2 * y.2).toNat 19 0 : Nat) else (y.1.natAbs : Nat)
  else y.1

/-- A threshold event of chain `c` (R66). -/
def State.thrEvent (s : State) (c : Nat) : State :=
  (s.putBit F.FC_THR_PEND (wO (c / 32)) (c % 32) true).raise Ev.FC_THRESHOLD c

/-- The conditions HIGH and LOW on a settled output (R66); exits come before entries. -/
def State.chainThr (s : State) (c : Nat) (y : Int × Int) : State :=
  let o := fcO c
  let m := s.chainMetric c y
  let u := s.getI F.FC_THR_UPPER_UPPER o
  let l := s.getI F.FC_THR_LOWER_LOWER o
  let h : Int := s.get F.FC_THR_HYST_HYST o
  let dur := max 1 (s.get F.FC_THR_CFG_MIN_DUR o)
  let high := s.bit F.FC_STATUS_HIGH o
  let low := s.bit F.FC_STATUS_LOW o
  let x := s.chain c
  let hiRun := if (if high then decide (m < u - h) else s.bit F.FC_THR_CFG_UPPER_EN o && decide (u ≤ m))
    then x.hiRun + 1 else 0
  let loRun := if (if low then decide (l + h < m) else s.bit F.FC_THR_CFG_LOWER_EN o && decide (m ≤ l))
    then x.loRun + 1 else 0
  let hiT := decide (dur ≤ hiRun)
  let loT := decide (dur ≤ loRun)
  let s := s.onChain c (fun x => { x with hiRun := if hiT then 0 else hiRun, loRun := if loT then 0 else loRun })
  let exitEv := s.bit F.FC_THR_CFG_EXIT_EV o
  let s := if high && hiT then s.putB F.FC_STATUS_HIGH o false else s
  let s := if high && hiT && exitEv then s.thrEvent c else s
  let s := if low && loT then s.putB F.FC_STATUS_LOW o false else s
  let s := if low && loT && exitEv then s.thrEvent c else s
  let s := if !high && hiT then (s.putB F.FC_STATUS_HIGH o true).thrEvent c else s
  if !low && loT then (s.putB F.FC_STATUS_LOW o true).thrEvent c else s

/-! ### Receivers behind a chain -/

/-- Whether the listen window of receiver `r` covers the sample stamped `t` (R82, R101). -/
def State.inWindow (s : State) (r t : Nat) : Bool :=
  let x := s.rx r
  if x.listen then (match x.shutAt with | some c => decide (t < c) | none => true) else decide (t < x.windowShut)

/-- Whether none of the conditions of R82 holds receiver `r`; a strand that is not in use does not receive (R115), a standby's
strands (R379) and those of a cord out of service (R483) stay in HOLD. -/
def State.rxMayRun (s : State) (r : Nat) : Bool :=
  let x := s.rx r
  x.listen && s.inWindow r (s.rxNow r) && !x.stopped && s.bit F.STR_TONE_SPACING_EN (rxO r)
    && (decide (576 ≤ r) || (s.portSt (r / 4) != 3 && !s.standsBy && !s.cordOut (r / 64)))
    && s.bit F.FC_STATUS_SETTLED (fcO (chainOfRx r))

/-- A receiver in HOLD leaves it for SEARCH at a chain output at which no condition of R82 holds; it examines the outputs from this
one on. -/
def State.rxRelease (s : State) (r : Nat) : State :=
  if s.rxSt r = 0 && s.rxMayRun r && (s.rx r).replayWait.isNone then
    (s.rxSearch r).onRx r (fun x => { x with readFrom := s.rxNow r, pos := s.rxNow r - 1, halfAt := 0 })
  else s

/-- An output of chain `c` reaches what lies behind it: the four strand chains of a port (R53), or a receiver's buffer (R99). -/
def State.deliverOut (s : State) (c : Nat) (y : Int × Int) (settled : Bool) (tick : Nat) : State :=
  let x := s.chain c
  let s := s.onChain c (fun x => { x with out := y, outSettled := settled, outTick := tick, blankN := 0 })
  let s := s.putB F.FC_STATUS_SETTLED (fcO c) settled
  if c < 144 then
    let i : ChainIn := ⟨BitVec.ofInt 18 y.1, 0, settled, tick⟩
    (List.range 4).foldl (fun (s : State) k => s.onChain (144 + 4 * c + k) (fun x => { x with inq := x.inq ++ [i] })) s
  else match rxOfChain c with
    | none => s
    | some r =>
      let b : RxSample := ⟨y.1, y.2, settled, tick, (x.blankN : Rat) / max 1 (ratioOf s.live c)⟩
      s.onRx r (fun x => { x with buf := (b :: x.buf).take (s.bufLen r) })

/-! ### An output -/

/-- A zero output with the settled bit 0 (R68, R69): a receiver behind the chain is in HOLD (R82). -/
def State.zeroOut (s : State) (c tick : Nat) : State :=
  let s := (s.deliverOut c (0, 0) false tick).onChain c (fun x => { x with hiRun := 0, loRun := 0 })
  if 720 ≤ c ∧ c < 726 then s.mnsGap ((c - 720) / 3) ((c - 720) % 3)
  else match rxOfChain c with
    | some r => s.rxForceHold r
    | none => s

/-- A computed output (R54, R62, R65): both banks during a fade, saturation, thresholds, and what lies behind the chain:
the crossing detector, strand chains or a receiver. -/
def State.computeOut (s : State) (c tick : Nat) : State :=
  let x := s.chain c
  let i := s.compOut c (x.hist.map (·.1))
  let q := if complexChain c then s.compOut c (x.hist.map (·.2)) else (0, false, false)
  let y := (i.1, q.1)
  let s := (s.deliverOut c y true tick).put F.FC_STATUS_SETTLE_LEFT (fcO c) 0
  let s := s.onChain c (fun x => { x with fadeI := if s.bit F.FC_BANK_FADING (fcO c) then x.fadeI + 1 else x.fadeI })
  let s := (s.chainSat c (i.2.1 || q.2.1) (i.2.2 || q.2.2)).chainThr c y
  let s := if 720 ≤ c ∧ c < 726 then s.mnsOutput ((c - 720) / 3) ((c - 720) % 3) (ratioOf s.live c) y.1 tick else s
  match rxOfChain c with
  | some r => s.rxRelease r
  | none => s

/-! ### An output boundary -/

/-- The engine's nominal load with set `k` active on chain `c` (R57, R63). -/
def State.loadWith (s : State) (c k : Nat) : Rat :=
  s.engineLoad s.live (engineOfChain c) - loadOf s.live c (s.loadTaps c (s.activeSet c)) + loadOf s.live c (s.loadTaps c k)

/-- Whether a swap of chain `c` to set `k` can start at an output boundary (R64, and the nominal limit of R57). -/
def State.swapReady (s : State) (c k : Nat) (fade : Bool) : Bool :=
  let e := engineOfChain c
  let dead := !s.setValid c (s.activeSet c)
  !s.bit F.FC_BANK_FADING (fcO c) && !s.instPending 3 c
    && (dead || (s.bit F.FC_STATUS_SETTLED (fcO c) && decide (s.setTaps c k - 1 ≤ (s.chain c).firIns)))
    && decide (s.loadWith c k ≤ loadLimit e)
    && (!fade || decide (s.engineNow e + loadOf s.live c (s.loadTaps c k) ≤ 2 * loadLimit e))

/-- A swap to set `k` starts (R61, R62, R64): the pointers exchange, and a fade begins; with no valid set active before, the
chain restarts. -/
def State.swapStart (s : State) (c k : Nat) (fade : Bool) (len : Nat) : State :=
  let o := fcO c
  let old := s.activeSet c
  let dead := !s.setValid c old
  let s := ((s.put F.FC_BANK_ACTIVE_SET o k).put F.FC_BANK_STANDBY_SET o old).putB F.FC_BANK_PENDING o false
  let s := if fade then
      (s.putB F.FC_BANK_FADING o true).onChain c (fun x => { x with fadeOld := old, fadeN := len, fadeI := 0 })
    else s
  if dead then s.chainRestart c else s

/-- A request becomes the chain's pending swap (R64): EV041. -/
def State.swapDefer (s : State) (c : Nat) (q : SwapReq) : State :=
  let o := fcO c
  let s := (s.put F.FC_BANK_PENDING_SET o q.set).putB F.FC_BANK_PENDING o true
  let s := s.onChain c (fun x => { x with swapReq := none, swapFade := q.fade, swapLen := q.len })
  ((s.putB F.FC_FLAGS_SWAP_DEFERRED o true).put F.FC_LAST_SWAP_DEFERRED 0 c).raise Ev.FC_SWAP_DEFERRED c

/-- A request met at the first output boundary after it starts or becomes pending; a pending swap starts when it can (R64). -/
def State.swapJudge (s : State) (c : Nat) : State :=
  match (s.chain c).swapReq with
  | some q =>
    if s.swapReady c q.set q.fade then (s.onChain c (fun x => { x with swapReq := none })).swapStart c q.set q.fade q.len
    else s.swapDefer c q
  | none =>
    let k := s.get F.FC_BANK_PENDING_SET (fcO c)
    let x := s.chain c
    if s.bit F.FC_BANK_PENDING (fcO c) && s.swapReady c k x.swapFade then s.swapStart c k x.swapFade x.swapLen else s

/-- A fade whose N outputs are out has ended (R62). -/
def State.fadeEnd (s : State) (c : Nat) : State :=
  let x := s.chain c
  if s.bit F.FC_BANK_FADING (fcO c) && decide (x.fadeN ≤ x.fadeI) then s.putB F.FC_BANK_FADING (fcO c) false else s

/-- Chain `c` applies its shadows (R75); a changed ratio restarts it. -/
def State.fcApply (s : State) (c : Nat) : State :=
  if !s.instPending 3 c || s.bit F.FC_BANK_FADING (fcO c) then s
  else
    let s' := s.applyInst 3 c
    let same := s'.get F.FC_CFG_CIC_RATIO (fcO c) == s.get F.FC_CFG_CIC_RATIO (fcO c)
      && s'.get F.FC_CFG_FIR_RATIO (fcO c) == s.get F.FC_CFG_FIR_RATIO (fcO c)
    if same then s' else s'.chainRestart c

/-- Chain `c` stands at an output boundary: the sample that completes an output has passed, and no other after it (R55). -/
def State.atBoundary (s : State) (c : Nat) : Bool :=
  decide (0 < (s.chain c).idx) && (s.chain c).idx % max 1 (ratioOf s.live c) == 0

/-- An output boundary of chain `c`: the end of a fade, then a commit, then a swap (R62, R64, R75). -/
def State.chainBoundary (s : State) (c : Nat) : State := ((s.fadeEnd c).fcApply c).swapJudge c

/-- The output that falls due at an output boundary (R55, R68); none where the chain restarts there. -/
def State.chainOut (s : State) (c tick : Nat) : State :=
  let s := s.chainBoundary c
  let x := s.chain c
  if x.idx = 0 then s
  else
    let s := s.onChain c (fun x => { x with outs := x.outs + 1 })
    if !s.setValid c (s.activeSet c) then s.zeroOut c tick
    else if x.outs < x.settleN then
      (s.zeroOut c tick).put F.FC_STATUS_SETTLE_LEFT (fcO c) (min 65535 (x.settleN - (x.outs + 1)))
    else s.computeOut c tick

/-! ### An input sample -/

/-- Whether the image loader writes the configuration: start-up step 3, or the APPLY phase of a profile switch (R72). -/
def State.loaderWrites (s : State) : Bool := s.get F.PWR_START_STAT_STEP == 2 || s.profPhase == 4

/-- The earliest restart instant of a triggered group shows (R74). -/
def State.syncShow (s : State) (g t : Nat) (late : Bool) : State :=
  let s := (s.putBit F.FC_SYNC_STAT 0 g true).putTime F.FC_SYNC_TIME_LO (8 * g) t
  let s := if late then s.putBit F.FC_SYNC_STAT 0 (16 + g) true else s
  s.raiseIf (s.bit F.FC_SYNC_CFG_EV_EN (wO g)) Ev.FC_SYNC_RESTART g

/-- The chains of sync group `g`. -/
def State.syncMembers (s : State) (g : Nat) : List Nat :=
  (List.range 758).filter (fun c => s.get F.FC_CFG_SYNC_GROUP (fcO c) == g)

/-- Chain `c` of group `g` restarts for the trigger `d` at its sample stamped `t` (R74): the first chain to restart sets the group's
registers, and the earliest instant stays in them. -/
def State.syncServe (s : State) (c g t : Nat) (d : SyncDue) : State :=
  let d' : SyncDue := { d with done := true, gone := c :: d.gone }
  let all := (s.syncMembers g).all d'.gone.contains
  let s := { s with syncDue := if all then s.syncDue.erase d else s.syncDue.map (fun x => if x == d then d' else x) }
  if !d.done then s.syncShow g t d.late
  else if t < s.getTime F.FC_SYNC_TIME_LO (8 * g) then s.putTime F.FC_SYNC_TIME_LO (8 * g) t else s

/-- Chain `c` restarts once, at its first sample, stamped `t`, for all triggers of its group that reach that sample (R74). -/
def State.syncStep (s : State) (c t : Nat) : State :=
  let g := s.get F.FC_CFG_SYNC_GROUP (fcO c)
  let due := s.syncDue.filter (fun d => d.group == g && g != 0 && decide (d.due ≤ t) && !d.gone.contains c)
  if due.isEmpty then s else (due.foldl (fun (s : State) d => s.syncServe c g t d) s).chainRestart c

/-- A head's sample as its chains take it (R261): 16 bits of I and of Q, at bits 17 to 2 of the input word. -/
def headSample (i : ChainIn) : ChainIn := { i with re := (i.re >>> 2) <<< 2, im := (i.im >>> 2) <<< 2 }

/-- The input of a chain behind its input stage: a port's compensation, a strand's blanker, a head's 16-bit words, and whether the sample
is blanked. -/
def State.inputStage (s : State) (c : Nat) (i : ChainIn) : (ChainIn × Bool) × State :=
  if c < 144 then ((s.portSample c i, false), s)
  else if c < 720 then
    let b := s.blankSample (c - 144) i.re.toInt i.settled
    (({ i with re := BitVec.ofInt 18 b.1.1, im := 0 }, b.1.2), b.2)
  else if 726 ≤ c then ((headSample i, false), s)
  else ((i, false), s)

/-- A settled sample passes the mixer, the CIC and into the FIR history (R54 to R56). -/
def State.chainFeed (s : State) (c : Nat) (i : ChainIn) (blanked : Bool) : State :=
  let o := fcO c
  let afc := match rxOfChain c with
    | some r => s.live (F.STR_AFC_EST_C.addr + rxO r)
    | none => 0
  -- the mixer of the listen strand follows the parent's channel (R283, R284)
  let tune := if c = 726 + 8 * s.get F.MAC_SUB_LISTEN_HEAD then s.mac.listenTune else 0
  let x := s.chain c
  let y := if complexChain c then mixSample i.re.toInt i.im.toInt x.phase else (i.re.toInt, i.im.toInt)
  let ch := cicSample (s.get F.FC_CFG_CIC_RATIO o) x y
  s.onChain c (fun _ => { ch with
    phase := x.phase + (s.live (F.FC_NCO.addr + o) + afc + tune), idx := x.idx + 1, blankN := x.blankN + (if blanked then 1 else 0) })

/-- One input sample of chain `c` (R55, R69, R72): an unsettled one holds the chain in restart, where it gives a zero output every M
samples; the first settled one after it is index 0. -/
def State.chainSample (s : State) (c : Nat) (i : ChainIn) : State :=
  let s := s.syncStep c i.stamp
  let b := s.inputStage c i
  let i := b.1.1
  let s := b.2
  let m := max 1 (ratioOf s.live c)
  if !i.settled || s.loaderWrites then
    let s := if (s.chain c).held then s else s.chainRestart c
    let n := (s.chain c).idx + 1
    let s := s.onChain c (fun x => { x with held := true, idx := n })
    if n % m = 0 then ((s.chainBoundary c).onChain c (fun x => { x with held := true })).zeroOut c i.stamp else s
  else
    let s := (if (s.chain c).held then s.chainRestart c else s).chainFeed c i b.1.2
    if (s.chain c).idx % m = 0 then s.chainOut c i.stamp else s

/-- The samples that wait at chain `c` pass, while its engine runs (R53, R461); a port delivers none outside AWAKE, TX and
TX_INHIBIT (R29). -/
def State.chainRun (s : State) (c : Nat) : State :=
  if !s.chainRuns c || (decide (c < 144) && decide (s.portSt c < 2)) then s
  else (s.chain c).inq.foldl (fun (s : State) i => s.chainSample c i) (s.onChain c (fun x => { x with inq := [] }))

/-- New input samples of chain `c`; a strand chain takes the outputs of its port chain alone (R53). -/
def State.chainStep (s : State) (c : Nat) (ins : List ChainIn) : State :=
  let s := if c < 144 ∧ 2 ≤ s.portSt c then s.snoop 1 c (ins.flatMap adcBytes) else s
  let s := if 144 ≤ c ∧ c < 720 then s else s.onChain c (fun x => { x with inq := x.inq ++ ins })
  s.chainRun c

end Sys2Proof.Machine
end

