-- ==== Sys2Proof/Machine/Reception.lean ====
section
/-! DEFINITION. What a receiver does with one symbol: levels (R93), AGC and AFC (R89, R90), qualifier, sync word, re-lock,
capture, the step tracker and level loss (R85, R86, R102 to R107), weights (R166), combining groups (R171 to R175), and the
replays (R100, R101). -/
namespace Sys2Proof.Machine
open Sys2Proof

/-! ### Levels -/

/-- The level of power `p` at receiver `r` in 0.25 dB units.  DESIGN CHOICE, log entry 106: the nearest step, ties upwards. -/
def State.levelOf (s : State) (r : Nat) (p : Rat) : Int := dbRound p 4 + s.levelOff r

/-! ### AGC and AFC -/

/-- The AGC code that puts power `p` on the target (R89), in the range 0 to 256. -/
def State.agcIdeal (s : State) (r : Nat) (p : Rat) : Nat :=
  let x : Rat := ((192 - 4 * s.get F.STR_AGC_CFG_TARGET (rxO r) : Int) - dbRound p 16) / 3
  (max 0 (min 256 (roundAway x))).toNat

/-- The AGC takes the code for power `p` in one step. -/
def State.agcSet1 (s : State) (r : Nat) (p : Rat) : State := s.put F.STR_STATUS_AGC_CODE (rxO r) (s.agcIdeal r p)

/-- A half-symbol correction of the AGC in QUALIFY (R89): how the loop moves is not stated, only that it lies within
±0.5 dB of the target from the eighth symbol on, so the code is a free value within that bound (log entry 2). -/
def State.agcCorrect (s : State) (r : Nat) (p : Rat) : State :=
  let d := s.draw 9
  let ideal : Int := s.agcIdeal r p
  let code : Int := if (s.rx r).halfSyms < 16 then d.1.toNat else ideal + ((d.1.toNat % 5 : Nat) : Int) - 2
  d.2.put F.STR_STATUS_AGC_CODE (rxO r) (max 0 (min 256 code)).toNat

/-- The largest correction c (R90): `LIMIT`/64 of the symbol rate, in the units of `FC_NCO.FREQ`. -/
def State.afcLimit (s : State) (r : Nat) : Nat :=
  let c := if r < 576 then 144 + r else 150 + r
  s.get F.STR_AFC_CFG_LIMIT (rxO r) * 16 * 2 ^ 32 / max 1 (s.get F.STR_SYM_CFG_SPS (rxO r) * ratioOf s.live c)

/-- The AFC takes a symbol (R90): a correlated one joins those it estimates over; EV067 when the limit is first met in the
attempt. -/
def State.afcUpdate (s : State) (r : Nat) (hit : Bool) (z : List (Int × Int)) : State :=
  let s := if hit then s.onRx r (fun x => { x with corr := z ++ x.corr }) else s
  if !s.bit F.STR_AFC_CFG_EN (rxO r) then s.put F.STR_AFC_EST_C (rxO r) 0
  else if !hit then s
  else
    let est := Config.freqEst (s.getI F.STR_AFC_EST_C (rxO r)) (s.rx r).corr
    let lim : Int := s.afcLimit r
    let past := decide (lim < est.natAbs)
    let c := if est > lim then lim else if est < -lim then -lim else est
    let s := s.putI F.STR_AFC_EST_C (rxO r) c
    if past && !(s.rx r).clamped then
      let s := s.onRx r (fun x => { x with clamped := true })
      let s := if 3 ≤ s.rxSt r then s.putB F.STR_LAST_RX_AFC_CLAMPED (rxO r) true else s
      s.raise Ev.AFC_LIMIT r
    else s

/-! ### Entry to QUALIFY -/

/-- Receiver `r` enters QUALIFY on power `p` (R84, R89): the AGC is set in one step, and `STR_CTRL` is read (R108). -/
def State.rxQualify (s : State) (r : Nat) (p : Rat) : State :=
  let s := (s.agcSet1 r p).setRxSt r 2
  let s := s.put F.STR_AFC_EST_C (rxO r) 0
  s.onRx r (fun x => { x with
    detPower := p, power := p, halfSyms := 0, symbols := 0, hits := [], phaseBit := none, det := [], corr := [], symEnd := none,
    lowRun := 0, clamped := false, ctrl := s.get F.STR_CTRL (rxO r), soft := [], member := false, collided := false,
    corrected := false, outRun := [], centre := 0, blankSum := 0, blankN := 0 })

/-! ### Replays -/

/-- The stamp of the oldest output in the look-back buffer of receiver `r` (R99). -/
def State.oldest (s : State) (r : Nat) : Nat :=
  ((((s.rx r).buf.take (s.lookBack r)).getLast?).map (fun (x : RxSample) => x.stamp)).getD s.tick

/-- A replay starts (R100, R101, R104): a false-sync replay in SEARCH behind the mark, a capture restart in QUALIFY at the new
preamble's start, neither before the oldest buffered output. -/
def State.replayGo (s : State) (r : Nat) (cap : Bool) : State :=
  let s := { s with replayQ := s.replayQ.filter (· != r) }
  let asked := if cap then (s.rx r).preStart else (s.rx r).mark + 1
  let start := max asked (s.oldest r)
  let s := if cap then s.rxQualify r (s.rx r).detPower
    else (s.rxSearch r).incSat F.STR_CNT_REPLAY_REPLAY_START (rxO r)
  let known := cap && decide (start = asked)
  let s := s.onRx r (fun x => { x with
    replayWait := none, replayCap := cap, replayAt := s.tick, readFrom := start, pos := start - 1, halfAt := 0,
    symEnd := if known then some (start - s.chainPeriod (chainOfRx r)) else none,
    lockAt := start - s.chainPeriod (chainOfRx r), lockN := 0 })
  (s.putB F.STR_STATUS_REPLAY (rxO r) true).refUpdateRx r

/-- A replay is due: it starts, or waits in SEARCH for one of the 8 to finish (R101). -/
def State.replayAsk (s : State) (r : Nat) (cap : Bool) : State :=
  let s := s.putB F.STR_STATUS_REPLAY (rxO r) false
  if s.replayRoom r then s.replayGo r cap
  else
    let p := (s.rx r).detPower
    let s := (s.rxSearch r).onRx r (fun x => { x with replayWait := some cap, detPower := p })
    ({ s with replayQ := s.replayQ ++ [r] }).refUpdateRx r

/-- After an attempt or a frame: SEARCH while the window is open or buffered samples are read, else HOLD. -/
def State.rxAfter (s : State) (r : Nat) : State :=
  let replay := s.bit F.STR_STATUS_REPLAY (rxO r) && s.inWindow r (s.rx r).pos
  if replay || s.rxMayRun r then (s.rxSearch r).refUpdateRx r else s.rxHold r

/-! ### Combining groups -/

/-- Member `i` of explicit group (c, g) in the words `view` (R171): its receiver, if in use. -/
def grpMember (view : Nat → Word) (c g i : Nat) : Option Nat :=
  let w := view (F.MNS_COMB_GRP.addr + mnO (16 * c + g))
  if bitsOf w (8 * i + 7) (8 * i + 7) = 1 then
    some (4 * (16 * c + bitsOf w (8 * i + 3) (8 * i)) + bitsOf w (8 * i + 5) (8 * i + 4))
  else none

/-- The members of explicit group (c, g). -/
def grpMembers (view : Nat → Word) (c g : Nat) : List Nat := (List.range 4).filterMap (grpMember view c g)

/-- The members of explicit group (c, g), each behind its place. -/
def grpPlaces (view : Nat → Word) (c g : Nat) : List (Nat × Nat) :=
  (List.range 4).filterMap (fun i => (grpMember view c g i).map (fun r => (i, r)))

/-- The group of line receiver `r` (R171), with its members behind their places: an explicit one, or the implicit one of its triple;
groups 16 and above are implicit. -/
def State.groupOf (s : State) (r : Nat) : Option (Nat × List (Nat × Nat)) :=
  if 576 ≤ r then none
  else
    let c := r / 64
    match (List.range 16).find? (fun g => (grpMembers s.live c g).contains r) with
    | some g => some (g, grpPlaces s.live c g)
    | none =>
      let p := r / 4
      let j := p % 16
      if j = 15 ∨ s.get F.LP_CFG_COUPLING (lpO p) = 0 ∨ !s.bit F.MNS_COMB_CFG_TRIPLE_AUTO then none
      else
        let lead := p - j % 3
        let three := (List.range 3).map (fun k => (k, 4 * (lead + k) + r % 4))
        if (List.range 16).any (fun g => three.any (fun x => (grpMembers s.live c g).contains x.2)) then none
        else some (16 + 4 * (j / 3) + r % 4, three)

/-- The group with the members `ms` serves the exchange of receiver `r` alone (R171): no member is a strand of another one's. -/
def State.groupServes (s : State) (r : Nat) (ms : List (Nat × Nat)) : Bool :=
  match s.exchOfRx r with
  | none => false
  | some e => ms.all (fun m => match s.exchOfRx m.2 with
    | some x => x.session == e.session
    | none => true)

/-- The symbol period that receiver `r` expects (R113, R130). -/
def State.rxSymTicks (s : State) (r : Nat) : Nat := symTicks (decide (r < 576)) (s.get F.STR_FRM_CFG_RX_RATE (rxO r))

/-- The weight of a joining member (R172). -/
def combWeight (snr : Rat) : Nat := (max 1 (min 4095 (roundAway (16 * snr)))).toNat

/-- The registers of an explicit group follow a member that joins at place `i` with weight `w` (R172). -/
def State.combShow (s : State) (c g i w : Nat) (snrSum : Rat) (ref : Bool) : State :=
  if 16 ≤ g then s
  else
    let o := mnO (16 * c + g)
    let s := if ref then
        ((s.setLive (F.MNS_COMB_STAT.addr + o) 0).setLive (F.MNS_COMB_W01.addr + o) 0).setLive (F.MNS_COMB_W23.addr + o) 0
          |>.put F.MNS_COMB_STAT_REF o i
      else s
    let s := s.put F.MNS_COMB_STAT_JOINED o (s.get F.MNS_COMB_STAT_JOINED o ||| 2 ^ i)
    let s := s.putI F.MNS_COMB_STAT_COMB_SNR o (dbRound snrSum 4)
    match i with
    | 0 => s.put F.MNS_COMB_W01_W0 o w
    | 1 => s.put F.MNS_COMB_W01_W1 o w
    | 2 => s.put F.MNS_COMB_W23_W2 o w
    | _ => s.put F.MNS_COMB_W23_W3 o w

/-- A new listen window on a strand of a group's exchange begins its frame afresh (R172): the reference and the members of a frame
that is over are gone; what was accepted in the exchange stays (R175). -/
def State.combFresh (s : State) (r : Nat) : State :=
  match s.groupOf r with
  | none => s
  | some (g, _) =>
    { s with combs := s.combs.map (fun (x : CombS) =>
        if x.cord == r / 64 && x.group == g && x.done then CombS.init x.cord x.group x.accepted else x) }

/-- Member `r` joins group `x` at place `i` (R172); `out` is the output on which it found its sync word.  The first that joins is the
reference, or, where two find theirs on the same output, the lower strand (R176). -/
def State.combAdd (s : State) (x : CombS) (r i t out : Nat) (snr : Rat) : State :=
  let w := combWeight snr
  let first := x.ref.isNone || (out == x.refOut && decide (r < x.ref.getD 0))
  let x' : CombS := { x with members := x.members ++ [⟨r, i, w, false⟩], snrSum := x.snrSum + snr }
  let x' := if first then { x' with ref := some r, refTick := t, refOut := out, refAt := s.tick } else x'
  let s := (s.combSet x x').combShow x.cord x.group i w x'.snrSum x.ref.isNone
  let s := if first && decide (x.group < 16) then s.put F.MNS_COMB_STAT_REF (mnO (16 * x.cord + x.group)) i else s
  s.onRx r (fun x => { x with member := true })

/-- A member of a group has found its sync word on output `out`, stamped `t`, with sync SNR `snr` (R172): it becomes the
reference, joins, or receives on its own. -/
def State.combJoin (s : State) (r t out : Nat) (snr : Rat) : State :=
  match s.groupOf r with
  | none => s
  | some (g, ms) =>
    let c := r / 64
    let s := if s.combs.any (fun x => x.cord == c && x.group == g) || !s.groupServes r ms then s
      else { s with combs := s.combs ++ [CombS.init c g []] }
    if !s.groupServes r ms then s
    else match s.combs.find? (fun x => x.cord == c && x.group == g), ms.find? (fun m => m.2 == r) with
    | some x, some (i, _) =>
      let per := s.rxSymTicks r
      let near := x.ref.isNone || (decide (4 * ((t : Int) - x.refTick).natAbs ≤ per) && decide (s.tick ≤ x.refAt + per))
      let ok := dbGe snr 4 (s.getI F.MNS_COMB_CFG_MIN_SNR)
      if x.done || !near || !ok || x.has r then s else s.combAdd x r i t out snr
    | _, _ => s

/-- The values that the frame unit sees of receiver `r`: its own, or its group's. -/
def State.frameSoft (s : State) (r n : Nat) : List (Int × Nat) :=
  match s.combOf r with
  | some c => s.combined c n
  | none => (s.rx r).soft.take n

/-- Members that lag receiver `r` by more than two symbols are dropped (R174). -/
def State.combLag (s : State) (r per : Nat) : State :=
  match s.combOf r with
  | none => s
  | some c =>
    if c.done then s
    else
      let mine := (s.rx r).soft.length
      (c.live.filter (fun m => m.rx != r)).foldl (fun s m =>
        if (s.memberSoft c m.rx).length + 2 * per < mine && s.frozen m.rx then s.combDrop m.rx else s) s

/-! ### Symbol weights -/

/-- The weight of a symbol by its blanked fraction (R166). -/
def baseQ (b : Rat) : Nat :=
  if b ≤ 0 then 4 else if 8 * b ≤ 1 then 3 else if 4 * b ≤ 1 then 2 else if 2 * b ≤ 1 then 1 else 0

/-- A bin of port `p`'s noise map. -/
def State.mapBin (s : State) (p b : Nat) : MapBin := tget (fun _ => MapBin.init) s.maps (128 * p + b)

/-- The highest k with 2 ^ k at most n + 1, at most 15 (R161). -/
def MapBin.seen (m : MapBin) : Nat := min 15 (Nat.log2 (m.n + 1))

/-- `MEAN` of a bin (R161): 0.25 dB, dBµV, with 123.0 dBµV at full scale; 0 where the bin was never observed. -/
def MapBin.meanQ (m : MapBin) : Int := if m.n = 0 then 0 else dbRound m.mean 4 + 492

/-- The map term of each bin (R166): its `MEAN` against the power mean of the `MEAN` values of the port's 128 bins. -/
def State.mapSnap (s : State) (p : Nat) : List Int :=
  let bins := (List.range 128).map (s.mapBin p)
  let avg : Rat := (bins.foldl (fun (a : Rat) b => a + qdbPow b.meanQ) 0) / 128
  bins.map (fun b =>
    if b.seen < s.get F.MNS_WEIGHT_CFG_MIN_SEEN then 0
    else
      let x : Rat := qdbPow b.meanQ / avg
      if dbGe x 1 12 then 2 else if dbGe x 1 6 then 1 else 0)

/-- The weight q of a symbol of receiver `r` (R166). -/
def State.symQ (s : State) (r : Nat) (blanked : Rat) (centre : Nat) : Nat :=
  let q := baseQ blanked
  if 576 ≤ r then q
  else
    let a := s.setOf (r / 4)
    if q = 0 ∨ !s.bit F.MNS_WEIGHT_CFG_MAP_WEIGHT ∨ s.get F.MNS_SET_STAT_STATE (setO a) ≠ 1 then q
    else max 1 (q - (((s.rx r).snapshot.getD (s.binAt a centre) 0).toNat))

/-! ### One symbol -/

/-- The chain output of symbol `o` is what the receiver has examined; the timing stands on its boundary (R91). -/
def State.symTake (s : State) (r : Nat) (o : SymObs) : State :=
  s.onRx r (fun x => { x with
    pos := o.stamp, symEnd := some o.stamp, det := s.detNext r o.stamp,
    lockAt := if x.symEnd.isSome then x.lockAt else o.stamp, lockN := if x.symEnd.isSome then x.lockN + 1 else 0 })

/-- A capture (R104): the frame ends COLLIDED and the receiver restarts at the new preamble; its exchange is lost unless it finds
the new frame within the window (R186). -/
def State.capture1 (s : State) (r : Nat) (h : DetHit) : State :=
  let s := (s.combDrop r).putB F.STR_LAST_RX_COLLISION (rxO r) true
  let s := ((s.rxEnd r 5).incSat F.STR_CNT_CAP_CAPTURE (rxO r)).raise Ev.CAPTURE_ABORT r
  let start := h.det.first.getD s.tick
  let s := s.onRx r (fun x => { x with detPower := h.power, preStart := start, mark := start - 1, failed := 5 })
  s.replayAsk r true

/-- The capture detector at boundary `t`, before the receiver has taken the symbol (R103 to R105).  The flag says that the frame has
ended. -/
def State.captureStep (s : State) (r t : Nat) : State × Bool :=
  match s.captureDue r t with
  | none => (s, false)
  | some h =>
    if s.ctrlBit r F.STR_CTRL_CAPTURE_EN then (s.capture1 r h, true)
    else ((s.onRx r (fun x => { x with collided := true })).putB F.STR_LAST_RX_COLLISION (rxO r) true, false)

/-- The step tracker on a measured symbol of level `d` against the frozen level, in 1/16 dB (R106). -/
def State.stepTrack (s : State) (r : Nat) (d : Int) : State :=
  let x := s.rx r
  if decide ((d - x.centre).natAbs ≤ 48) then s.onRx r (fun x => { x with outRun := [] })
  else match x.outRun with
    | [] => s.onRx r (fun x => { x with outRun := [d] })
    | e :: _ =>
      let s := s.onRx r (fun x => { x with outRun := [] })
      if x.corrected then s.putB F.STR_LAST_RX_EXCURSION (rxO r) true
      else
        let cut : Rat := max (-96) (min 96 (-((d + e : Int) : Rat) / 2))
        let old : Int := s.get F.STR_STATUS_AGC_CODE (rxO r)
        let new := max 0 (min 256 (old + roundAway (cut / 3)))
        let n := new - old
        let s := s.put F.STR_STATUS_AGC_CODE (rxO r) new.toNat
        let s := (s.putB F.STR_LAST_RX_STEP_APPLIED (rxO r) true).putI F.STR_LAST_RX_STEP_CODES (rxO r) n
        let s := (s.incSat F.STR_CNT_MISC_STEP (rxO r)).onRx r (fun x => { x with corrected := true, centre := -3 * n })
        s.raise Ev.STEP_TRACK r

/-- The level measurement of a symbol in a frozen state (R106, R107): erasures are not measured.  DESIGN CHOICE, log entry 106: the
level is rounded to 1/16 dB before the tests at 3 dB and 20 dB. -/
def State.measure (s : State) (r : Nat) (o : SymObs) (q : Nat) : State :=
  let x := s.rx r
  if q = 0 ∨ x.frozenPow ≤ 0 then s
  else
    let d := dbRound (o.power / x.frozenPow) 16
    let s := if s.ctrlBit r F.STR_CTRL_STEP_EN then s.stepTrack r d else s
    let low := decide (d ≤ (s.rx r).centre - 320)
    if 4 ≤ s.rxSt r then s.onRx r (fun x => { x with lowRun := if low then x.lowRun + 1 else 0 }) else s

/-- What a symbol of a frame adds to its SNR (R94): erasures are left out. -/
def State.snrTake (s : State) (r : Nat) (o : SymObs) (q : Nat) : State :=
  if q = 0 then s else s.onRx r (fun x => { x with symPow := x.symPow + o.power, errPow := x.errPow + o.err })

/-- The qualifier passes (R85): the AGC freezes at the level of the passing symbol, SYNC_HUNT begins, and `STR_LAST_RX` starts to
describe this attempt.  DESIGN CHOICE, log entry 107: the sync correlator starts empty, so no symbol of QUALIFY is among its
last L. -/
def State.qualPass (s : State) (r : Nat) (o : SymObs) : State :=
  let s := (s.incSat F.STR_CNT_DET_QUAL_PASS (rxO r)).rxFresh r
  (s.setRxSt r 3).onRx r (fun x => { x with
    frozenPow := o.power, capRef := o.power, centre := 0, symbols := 0, lowRun := 0, mark := o.stamp, syncBits := [],
    syncPow := [], outRun := [], corrected := false, symPow := 0, errPow := 0 })

/-- A re-lock (R102): timing, phase and count of the second detector, the AGC in one step, the AFC afresh. -/
def State.relock (s : State) (r t : Nat) (h : DetHit) : State :=
  let stop := ((s.symAt r h.ofs t).map (fun o => o.stamp)).getD t
  let s := (s.agcSet1 r h.power).put F.STR_AFC_EST_C (rxO r) 0
  let s := s.onRx r (fun x => { x with
    detPower := h.power, symEnd := some stop, lockAt := stop, lockN := 0, pos := stop, symbols := h.det.hits.length, hits := h.det.hits.map (fun x => x.1),
    phaseBit := h.det.phase, det := [], corr := [], clamped := false, lowRun := 0, halfSyms := 0 })
  (s.incSat F.STR_CNT_CAP_RELOCK (rxO r)).raise Ev.STR_RELOCK r

/-- A symbol in QUALIFY (R85, R90, R102, R108). -/
def State.symQualify (s : State) (r : Nat) (o : SymObs) : State :=
  match s.relockDue r o.stamp with
  | some h => s.relock r o.stamp h
  | none =>
    let pass := s.passesAt r o.stamp
    let h := preStep (s.rx r).phaseBit o.bits
    let low := dbLe o.power 4 (s.thresh r - 12 - s.levelOff r)
    let s := (s.symTake r o).onRx r (fun x => { x with
      symbols := x.symbols + 1, hits := (h.1 :: x.hits).take (s.get F.STR_DET_QUAL_M (rxO r)), phaseBit := h.2,
      lowRun := if low then x.lowRun + 1 else 0 })
    let s := s.afcUpdate r h.1 o.samples
    if pass then s.qualPass r o else s

/-- The bits in which the newest bits differ from the sync word (R86, R127). -/
def syncErrs (bits : List Bool) (w : Word) (n : Nat) : Nat :=
  (List.range n).countP (fun k => bits.getD k false != w.getLsbD k)

/-- The linear sync SNR (R172): the power of the sync word's symbols to their decision-error power; with no error power it is free
(log entry 2). -/
def State.syncSnrOf (s : State) (l : List (Rat × Rat)) : Rat × State :=
  let p := l.foldl (fun (a : Rat) x => a + x.1) 0
  let e := l.foldl (fun (a : Rat) x => a + x.2) 0
  if e ≤ 0 then (((s.draw 16).1.toNat : Rat), (s.draw 16).2) else (p / e, s)

/-- The sync word is found (R86, R94, R100, R172).  DESIGN CHOICE, log entry 108: a capture restart that finds one is no replay in the
sense of `REPLAYED`, `REPLAY_FOUND` and EV070.  DESIGN CHOICE, log entry 123: nor is a replay that has reached the live samples. -/
def State.syncFound (s : State) (r : Nat) (o : SymObs) (errs : Nat) : State :=
  let ro := rxO r
  let x := s.rx r
  let mean : Rat := x.syncPow.foldl (fun (a : Rat) y => a + y.1) 0 / max 1 x.syncPow.length
  let snr := s.syncSnrOf x.syncPow
  let s := snr.2
  let t := o.stamp - 32 * s.get F.STR_CAL_DELAY ro
  let s := (s.putI F.STR_LAST_LEVEL_RSSI ro (s.levelOf r mean)).putTime F.STR_LAST_TIME_LO ro t
  let s := (s.setRxSt r 4).incSat F.STR_CNT_SYNC_SYNC ro
  let s := s.put F.STR_LAST_RX_SYNC_ERRS ro errs
  let s := s.onRx r (fun x => { x with
    capRef := mean, mark := o.stamp, syncTick := t, syncSnr := snr.1, soft := [], symbols := 0, lowRun := 0,
    snapshot := if r < 576 then s.mapSnap (r / 4) else [] })
  let s := if s.bit F.STR_STATUS_REPLAY ro && !x.replayCap then
      ((s.putB F.STR_LAST_RX_REPLAYED ro true).incSat F.STR_CNT_REPLAY_REPLAY_FOUND ro).raise Ev.FALSE_SYNC_REPLAY r
    else s
  (s.sweepHeard r t).combJoin r t o.stamp snr.1

/-- A symbol in SYNC_HUNT (R86, R90, R103, R106, R108). -/
def State.symHunt (s : State) (r : Nat) (o : SymObs) : State :=
  let c := s.captureStep r o.stamp
  if c.2 then c.1
  else
    let s := c.1.symTake r o
    let n := s.syncLen r
    let q := s.symQ r o.blanked o.centre
    let bits := (o.bits.reverse ++ (s.rx r).syncBits).take n
    let h := preStep (s.rx r).phaseBit o.bits
    let s := s.onRx r (fun x => { x with
      symbols := x.symbols + 1, syncBits := bits, syncPow := ((o.power, o.err) :: x.syncPow).take (n / s.symBits r),
      phaseBit := h.2 })
    let s := (s.measure r o q).snrTake r o q
    let e := syncErrs bits (s.live (F.STR_SYNC_WORD.addr + rxO r)) n
    if bits.length = n && decide (e ≤ s.get F.STR_SYNC_CFG_MAX_ERR (rxO r)) then s.syncFound r o e
    else s.afcUpdate r h.1 o.samples

/-- The header of receiver `r`'s frame, as its values or its group's spell it. -/
def State.rxHdr (s : State) (r : Nat) : PhyHdr := (hdrDecode (s.frameSoft r 88)).1

/-- Receiver `r` has every value that the header in force implies (R88). -/
def State.frameFull (s : State) (r : Nat) : Bool :=
  s.rxSt r == 5 && decide (frameBits (s.rxHdr r) ≤ (s.rx r).soft.length)

/-- A symbol in HEADER or PAYLOAD (R88, R92, R103, R106, R166, R174). -/
def State.symData (s : State) (r : Nat) (o : SymObs) : State :=
  let c := s.captureStep r o.stamp
  if c.2 then c.1
  else
    let s := c.1.symTake r o
    let q := s.symQ r o.blanked o.centre
    let s := (s.measure r o q).snrTake r o q
    let s := s.onRx r (fun x => { x with
      symbols := x.symbols + 1, soft := x.soft ++ o.soft.map (fun v => (v, q)),
      blankSum := x.blankSum + o.blanked, blankN := x.blankN + 1 })
    s.combLag r (s.symBits r)

/-- The window of receiver `r` closes at its present sample (R83): an attempt without a sync word ends NO_FRAME, and the exchange of
the receiver ends unless a frame of it is being judged (R186). -/
def State.rxShut (s : State) (r : Nat) : State :=
  let st := s.rxSt r
  if 4 ≤ st then s
  else
    let failed := (s.rx r).failed
    let s := (if 2 ≤ st then s.rxEnd r 2 else s).rxHold r
    if s.inPipeline r then s else s.rxOutcome r (if failed = 0 then 2 else failed)

end Sys2Proof.Machine
end

