-- ==== Sys2Proof/Machine/Mains.lean ====
section
/-! DEFINITION. Mains cycles that no crossing drives, noise maps, meter phase, and the commit of combining groups (R154 to
R162, R167 to R170, R180). -/
namespace Sys2Proof.Machine
open Sys2Proof

/-! ### Meter phase -/

/-- A phase report's result: its code (R170), its confidence (R168) and Δ in 0.5° units. -/
structure PhaseRes where
  result : Nat
  conf : Nat
  delta : Int
  deriving DecidableEq, Repr

/-- UNKNOWN, NONE. -/
def PhaseRes.unknown : PhaseRes := ⟨0, 0, 0⟩

/-- The cycle of set `a` that contains tick `t`, if an L1+ crossing has ended it: its start and its period (R167). -/
def State.cycleOf (s : State) (a t : Nat) : Option (Nat × Nat) :=
  let l1 := ((s.mset a).crossed.filter (fun c => c.1 == 0)).map (·.2)
  match l1.find? (fun z => decide (z ≤ t)), l1.reverse.find? (fun z => decide (t < z)) with
  | some z, some z' => some (z, z' - z)
  | _, _ => none

/-- An angle (fraction of a turn) wrapped into −1/2 to +1/2. -/
def wrapTurn (x : Rat) : Rat := if x > 1/2 then x - 1 else if x < -1/2 then x + 1 else x

/-- The tick of the meter's crossing (R167). -/
def State.meterCross (s : State) (d : BitVec 16) (start : Nat) : Nat :=
  ((start : Int) + roundAway ((38.4 : Rat) * (d.toNat + s.getI F.MNS_PHASE_CFG_OFFSET))).toNat

/-- The kind whose crossing in the cycle opened at `z`, of period `p`, lies nearest to `tm`, and its Δ in turns (R167,
R168). -/
def State.nearestKind (s : State) (a z p tm : Nat) : Option (Nat × Rat) :=
  (List.range 6).foldl (fun (best : Option (Nat × Rat)) k =>
    match (s.mset a).crossed.find? (fun c => c.1 == k && decide (z ≤ c.2) && decide (c.2 < z + p)) with
    | none => best
    | some c =>
      let x := wrapTurn ((((tm : Int) - c.2 : Int) : Rat) / p)
      match best with
      | some b => if x.abs < b.2.abs then some (k, x) else best
      | none => some (k, x)) none

/-- The result of a report of delay `d`, whose cycle must be complete by tick `due` (R168). -/
def State.phaseOf (s : State) (a : Nat) (d : BitVec 16) (start due : Nat) : PhaseRes :=
  if s.get F.MNS_SET_STAT_STATE (setO a) ≠ 1 ∨ 22222 ≤ d.toNat then .unknown
  else
    let tm := s.meterCross d start
    match s.cycleOf a tm with
    | none => .unknown
    | some (z, p) =>
      match s.nearestKind a z p tm, decide (z + p ≤ due) with
      | none, _ => .unknown
      | _, false => .unknown
      | some (k, x), true =>
        let deg := x.abs * 360
        let conf := if deg ≤ 10 then 3 else if deg ≤ 20 then 2 else if deg ≤ 30 then 1 else 0
        ⟨if conf = 0 then 0 else k + 1, conf, roundAway (x * 720)⟩

/-- The phase of member `j` of triple `t` of cord `c` (R170): 0 = L1 to 2 = L3. -/
def State.tripleMap (s : State) (c t j : Nat) : Nat := bitsOf (s.live (F.MNS_TRIPLE_MAP.addr + 4 * c)) (6 * t + 2 * j + 1) (6 * t + 2 * j)

/-- The result for a v1 meter heard by the triple of port `p` with the given SNRs, 0.25 dB units (R170). -/
def State.phaseTriple (s : State) (p : Nat) (l : List Int) : PhaseRes :=
  let best := (List.range 3).foldl (fun (b : Nat) j => if l.getD b 0 < l.getD j 0 then j else b) 0
  let rest := (List.range 3).filter (· != best)
  let second := max (l.getD (rest.getD 0 0) 0) (l.getD (rest.getD 1 0) 0)
  let m := l.getD best 0 - second
  let conf := if 36 ≤ m then 3 else if 24 ≤ m then 2
    else if 4 * (s.get F.MNS_PHASE_CFG_V1_MARGIN : Int) ≤ m then 1 else 0
  ⟨if conf = 0 then 0 else 9 + s.tripleMap (p / 16) (p % 16 / 3) best, conf, 0⟩

/-- Whether a waiting report can be judged (R168): its cycle is complete, its set is not LOCKED, its delay is out of range,
or 100 ms have passed since the reply. -/
def State.phaseReady (s : State) (e : PhaseDue) : Bool :=
  match e.rep with
  | .triple _ _ _ => true
  | .delay d start =>
    let a := s.setOf e.port
    s.get F.MNS_SET_STAT_STATE (setO a) != 1 || decide (22222 ≤ d.toNat)
      || (s.cycleOf a (s.meterCross d start)).isSome || decide (e.at_ + msTicks 100 ≤ s.tick)

/-- A counted report changes the session's assigned phase when the last `AGREE` reports all give it (R169). -/
def State.phaseAssign (s : State) (k : Nat) (r : PhaseRes) (h : Nat) : State :=
  let hist := BitVec.ofNat 8 (r.result + 16 * r.conf) :: s.ctxBytes k 0x082 6
  let n := min 7 (s.ctxNum k 0x081 1 + 1)
  let s := (s.ctxPut k 0x081 1 n h).ctxUpdate k 0x082 hist h
  let last := (hist.take (s.get F.MNS_PHASE_CFG_AGREE)).map (·.toNat)
  if n < s.get F.MNS_PHASE_CFG_AGREE || !last.all (fun x => x % 16 == r.result) then s
  else
    let conf := last.foldl (fun (m : Nat) x => min m (x / 16 % 4)) 3
    let old := s.ctxNum k 0x080 1 % 16
    let s := s.ctxPut k 0x080 1 (r.result + 16 * conf) h
    s.raiseIf (old != 0 && old != r.result) Ev.METER_PHASE_CHANGE k

/-- Whether a phase result of session `k` is counted (R169): its confidence is LOW or better, and the session is in service. -/
def State.phaseCounts (s : State) (k conf : Nat) : Bool := conf != 0 && (s.slot k).st != 0 && (s.slot k).st != 3

/-- A judged report is counted once the planner has its session's lease (R169, R233). -/
def State.phaseCount (s : State) (e : PhaseDue) (r : PhaseRes) : State :=
  let h := plannerOf (e.port / 16)
  let lease := s.leaseTry e.session h
  if !s.phaseCounts e.session r.conf then { s with phaseReps := s.phaseReps.erase e }
  else if lease.2 then ({ lease.1 with phaseReps := lease.1.phaseReps.erase e }).phaseAssign e.session r h
  else
    { s with phaseReps := s.phaseReps.map (fun (x : PhaseDue) =>
        if x == e then { x with judged := some (r.result, r.conf) } else x) }.leaseAsk e.session h

/-- METER_PHASE_REPORT (R168 to R170, R176): the oldest report that can be judged is judged and shown; a counted one enters its
session's context, under the planner's lease.  With none to judge, one that waits for its lease is tried again. -/
def execMeterPhaseReport (s : State) : Out := s.answer <|
  match s.phaseReps.find? (fun e => e.judged.isNone && s.phaseReady e) with
  | some e =>
    let r := match e.rep with
      | .delay d start => s.phaseOf (s.setOf e.port) d start (e.at_ + msTicks 100)
      | .triple a b c => s.phaseTriple e.port [a, b, c]
    let s := ((s.put F.MNS_PHASE_LAST_SESSION 0 e.session).put F.MNS_PHASE_LAST_RESULT 0 r.result).put
      F.MNS_PHASE_LAST_CONF 0 r.conf
    .next ((s.putI F.MNS_PHASE_LAST_DELTA 0 r.delta).phaseCount e r)
  | none =>
    match s.phaseReps.find? (fun e => e.judged.isSome && (s.leaseTry e.session (plannerOf (e.port / 16))).2) with
    | none => .next s
    | some e =>
      let r := e.judged.getD (0, 0)
      .next (s.phaseCount e ⟨r.1, r.2, 0⟩)

/-! ### Cycles without a crossing -/

/-- MAINS_COAST_TIMEOUT (R155): a LOCKED set has had no L1+ crossing for 1.5 × its last good period. -/
def execMainsCoastTimeout (a : Fin 2) (s : State) : Out := s.answer <|
  let o := setO a.val
  let p := s.get F.MNS_PERIOD_TICKS o
  match (s.mset a.val).prevZ with
  | none => .next s
  | some z =>
    if s.get F.MNS_SET_STAT_STATE o = 1 ∧ 2 * z + 3 * p ≤ 2 * s.tick then
      .next ((s.onSet a.val (fun m => { m with cycleZ := z + (s.tick - z) / p * p, cycleP := p })).mnsCoast a.val)
    else .next s

/-- PHASE_ABSENT (R154): no valid crossing of the phase for three periods. -/
def execPhaseAbsent (a : Fin 2) (ph : Fin 3) (s : State) : Out := s.answer <|
  let o := setO a.val
  let p0 := s.get F.MNS_PERIOD_TICKS o
  let p := if p0 = 0 then 853333 else p0
  match (s.mset a.val).lastX.getD ph.val none with
  | none => .next s
  | some t =>
    if s.bitAt F.MNS_SET_STAT o (2 + ph.val) && decide (t + 3 * p ≤ s.tick) then
      let s := (s.putBit F.MNS_SET_STAT o (2 + ph.val) false).put F.MNS_SET_STAT_ROTATION o 0
      .next (s.onSet a.val (fun m => { m with lastRot := 0 }))
    else .next s

/-- The next predicted cycle start of a COASTING set (R156): the last L1+ stamp plus whole periods, after the present
cycle's start. -/
def nextPredicted (z p cycle : Nat) : Nat := if cycle < z + p then z + p else z + ((cycle - z) / p + 1) * p

/-- PREDICTED_CYCLE_START (R156, R178). -/
def execPredictedCycleStart (a : Fin 2) (s : State) : Out := s.answer <|
  let o := setO a.val
  let p := s.get F.MNS_PERIOD_TICKS o
  match (s.mset a.val).prevZ with
  | none => .next s
  | some z =>
    let t := nextPredicted z p (s.mset a.val).cycleZ
    if s.get F.MNS_SET_STAT_STATE o = 2 ∧ 0 < p ∧ t ≤ s.tick then
      .next ((s.onSet a.val (fun m => { m with cycleZ := t, cycleP := p })).incSat F.MNS_SET_STAT_COAST_CYCLES o)
    else .next s

/-! ### Noise maps -/

/-- The key of bin `b` of port `p`'s map. -/
def mapKey (p b : Nat) : Nat := 128 * p + b

/-- The windows of port `p`'s bin in progress. -/
def State.acc (s : State) (p : Nat) : BinAcc := tget (fun _ => (⟨0, 0, 0, false, 0⟩ : BinAcc)) s.binAcc p

/-- The state with those windows replaced. -/
def State.setAcc (s : State) (p : Nat) (x : BinAcc) : State :=
  { s with binAcc := tset (fun _ => (⟨0, 0, 0, false, 0⟩ : BinAcc)) s.binAcc p x }

/-- The linear factor of a reference code: 6 dB a step (R158). -/
def refFactor (code : Nat) : Rat := ((2511886431509580 : Rat) / 10000000000000000) ^ code

/-- A bin's level in 1/256 dB, dBµV, from its mean power (R158): 123 dBµV is full scale. -/
def levelQ (x : Rat) : Int := dbRound x 256 + 31488

/-- The update of a bin by a cycle's mean power (R159). -/
def MapBin.update (m : MapBin) (tauLog2 : Nat) (x : Rat) (impulsive : Bool) : MapBin :=
  let n := min 65535 (m.n + 1)
  let tau := 2 ^ tauLog2
  let a : Rat := 1 / (min n tau : Nat)
  let d : Rat := max 64 ((16384 : Rat) / tau)
  let one := decide (m.n = 0)
  { mean := m.mean + a * (x - m.mean),
    imp := m.imp + a * ((if impulsive && !one then 1 else 0) - m.imp),
    q95 := if one then levelQ x
      else if dbLe x 256 (m.q95 - 31488) then roundAway (m.q95 - (1/20 : Rat) * d)
      else roundAway (m.q95 + (19/20 : Rat) * d),
    n := n, age := 0 }

/-- BIN_END (R159, R176): the bin takes its used windows while the set is LOCKED; a bin that is not updated ages by a
cycle. -/
def execBinEnd (p : Fin 144) (b : Fin 128) (s : State) : Out := s.answer <|
  let a := s.setOf p.val
  if s.get F.MNS_SET_STAT_STATE (setO a) ≠ 1 then .next (s.setAcc p.val { s.acc p.val with n := 0, sum := 0, impulsive := false })
  else
    let x := s.acc p.val
    let k := mapKey p.val b.val
    let m := s.mapBin p.val b.val
    let store := fun (s : State) (m : MapBin) => { s with maps := tset (fun _ => MapBin.init) s.maps k m }
    if x.n = 0 ∨ x.bin ≠ b.val then .next (store s { m with age := min 4095 (m.age + 1) })
    else
      let s := store s (m.update (s.get F.MNS_MAP_CFG_TAU_LOG2) (x.sum / x.n) x.impulsive)
      let cyc := (s.mset a).cycleZ
      let s := if x.cyc = cyc then s else s.incSat F.MNS_PORT_STAT_CYCLES (mnO p.val)
      .next (s.setAcc p.val ⟨b.val, 0, 0, false, cyc⟩)

/-- The mirrored plan has a port of cord `c` transmitting at tick `t` (R379). -/
def State.mirTx (s : State) (c t : Nat) : Bool :=
  s.mirPlans.any (fun m => m.ports.any (fun p => p / 16 == c) && decide (m.t0 ≤ t) && decide (t < m.t1))

/-- A port was in TX at or after tick `t` (R158). -/
def State.txSince (s : State) (p t : Nat) : Bool := s.portSt p == 3 || (decide (0 < (s.port p).txLeft) && decide (t ≤ (s.port p).txLeft))

/-- A map window of port `p` from tick `a` to tick `b` is used (R158, R379), none of its samples bearing the settling mark. -/
def State.mapUses (s : State) (p a b : Nat) : Bool :=
  let c := p / 16
  let froze := decide (0 < (s.port p).thawed) && decide (a ≤ (s.port p).thawed)
  decide ((s.port p).settleEnd ≤ a) && !s.txSince p a && !(List.range 4).any (fun k => s.frozen (4 * p + k)) && !froze
    && !(s.bit F.MNS_MAP_CFG_CORD_TX_EXCL && (List.range 16).any (fun j => s.txSince (16 * c + j) a))
    && !s.bit F.MNS_PORT_CTL_FREEZE (mnO p) && !s.mirTx c a && !s.mirTx c b
    && s.get F.MNS_SET_STAT_STATE (setO (s.setOf p)) == 1

/-- A used window joins the bin that holds its centre, tick `t` (R158, R160, R176): `pow` is its mean power and `peak` the square of
its largest sample, both of a sine of full scale 1, and `ref` the reference code at its last sample (DESIGN CHOICE, log entry 126). -/
def State.mapTake (s : State) (p t ref : Nat) (pow peak : Rat) : State :=
  let b := s.binAt (s.setOf p) t
  let f := refFactor ref
  let m := s.mapBin p b
  let k : Rat := (s.get F.MNS_MAP_CFG_IMP_K : Rat) / 2
  let imp := decide (0 < m.n) && decide (k ^ 2 * m.mean < peak * f)
  let x := s.acc p
  let x := if x.bin = b then x else { x with bin := b, sum := 0, n := 0, impulsive := false }
  s.setAcc p { x with sum := x.sum + pow * f, n := x.n + 1, impulsive := x.impulsive || imp }

/-- MAP_WINDOW (R158, R160, R176): 64 ADC samples of port `p`, each compensated by the codes in force at it (R33) and through the
band-pass of R46, which runs in WATCH and AWAKE; the window's centre is its 33rd sample (log entry 110). -/
def execMapWindow (p : Fin 144) (a : AdcRun) (s : State) : Out := s.answer <|
  let n := p.val
  let st := s.portSt n
  if a.words.length != 64 || !(st == 1 || st == 2 || st == 4) then .next s
  else
    let first := a.last - 32 * 63
    let z := a.words.mapIdx (fun j (v : BitVec 14) =>
      (((s.portSample n ⟨v.setWidth 18 <<< 4, 0, true, first + 32 * j⟩).re.toInt : Rat)) / 2 ^ 17)
    let y := bandRun (s.get F.LP_WATCH_BAND_LOW_KHZ) (s.get F.LP_WATCH_BAND_HIGH_KHZ) (s.port n).mapZ z
    let used := s.mapUses n first a.last
    let s := s.onPort n (fun x => { x with mapZ := y.2 })
    let peak := y.1.foldl (fun (m : Rat) v => max m (v * v)) 0
    .next (if used then s.mapTake n (a.last - 32 * 31) (s.codesAt n a.last).2 (2 * meanSq y.1) (2 * peak) else s)

/-- The map of port `p` back at its reset values (R162). -/
def State.mapClear (s : State) (p : Nat) : State :=
  let x := s.acc p
  { s with maps := s.maps.filter (fun e => e.1 / 128 != p) }.setAcc p { x with sum := 0, n := 0, impulsive := false }

/-- MNS_PORT_CLEAR (R162, R176, R179): a write of `MNS_PORT_CTL` with `CLEAR` = 1; the entries are cleared within the command
(log entry 24), and an update of the bin in progress is lost. -/
def execMnsPortClear (i : Iface) (p : Fin 144) (w : Word) (s : State) : Out := s.answer <|
  let a := F.MNS_PORT_CTL.addr + mnO p.val
  let s := (s.wlogNote i a w).fieldWrite a w
  .next (if F.MNS_PORT_CTL_CLEAR.on w then s.mapClear p.val else s)

/-! ### The commit of combining groups -/

/-- The members of a group as a word names them: receivers of cord `c`. -/
def wordMembers (c : Nat) (w : Word) : List Nat :=
  (List.range 4).filterMap (fun i =>
    let b := bitsOf w (8 * i + 7) (8 * i)
    if 128 ≤ b then some (4 * (16 * c + b % 16) + b / 16 % 4) else none)

/-- The rules of an MNS commit (R180), in the order of their codes; the index names the group. -/
def mnsRules (cords : List Nat) (s : State) (cells : List (Nat × Word)) : Option (Nat × Nat) :=
  let view := s.after cells
  let groups := cords.flatMap (fun c => (List.range 16).map (fun g => 16 * c + g))
  let mem := fun (n : Nat) => wordMembers (n / 16) (view (F.MNS_COMB_GRP.addr + mnO n))
  let per := fun (f : Nat → Bool) (r : Nat) => groups.map (fun n => (f n, r, n))
  let regs := [F.STR_SYM_CFG, F.STR_SYNC_WORD, F.STR_FRM_CFG, F.STR_TONE_CENTRE, F.STR_TONE_SPACING]
  let same := fun (n : Nat) => match mem n with
    | [] => true
    | r :: t => t.all (fun x => regs.all (fun f => s.live (f.addr + rxO x) == s.live (f.addr + rxO r)))
  let alone := fun (n : Nat) => (mem n).all (fun r =>
    !(List.range 16).any (fun g => 16 * (n / 16) + g != n && (mem (16 * (n / 16) + g)).contains r))
  firstFail (
    per (fun n => (mem n).length != 1) 0x50
    ++ per (fun n => decide (((mem n).map (· / 4)).Nodup)) 0x51
    ++ per alone 0x52
    ++ per same 0x53
    ++ per (fun n => shadowLegal (F.MNS_COMB_GRP.addr + mnO n) (view (F.MNS_COMB_GRP.addr + mnO n))) 0x54
    ++ [(!s.commitPending 5, 0x55, 0)])

/-- MNS_COMMIT (R180). -/
def execMnsCommit (i : Iface) (w : Word) (s : State) : Out := s.answer <|
  let cords := cordsOf (F.MNS_COMMIT_CORDS.of w)
  let insts := cords.flatMap (fun c => (List.range 16).map (fun g => 16 * c + g))
  .next ((s.wlogNote i F.MNS_COMMIT.addr w).commit i 5 insts (mnsRules cords))

/-- MNS_COMMIT_APPLY (R176, R180): a group applies its shadow while no member receiver, old or new, is in a frozen
state. -/
def execMnsCommitApply (c : Fin 9) (g : Fin 16) (s : State) : Out := s.answer <|
  let n := 16 * c.val + g.val
  let a := F.MNS_COMB_GRP.addr + mnO n
  if s.instPending 5 n then
    let mem := wordMembers c.val (s.live a) ++ wordMembers c.val (s.after (s.pendingCells 5) a)
    .next (if mem.any s.frozen then s else s.applyInst 5 n)
  else .next s

end Sys2Proof.Machine
end

