-- ==== Sys2Proof/Machine/Channels.lean ====
section
/-! DEFINITION. The heads' channels and hopping and the times of a slot (R260 to R267), and what the listen strand of a subordinate
coordinator listens to (R283, R284). -/
namespace Sys2Proof.Machine
open Sys2Proof

/-! ### Heads, channels and hopping -/

/-- Byte offset of head `h`'s registers (R289). -/
def rhO (h : Nat) : Nat := 0x100 * h

/-- The head of radio receiver `r`. -/
def headOf (r : Nat) : Nat := (r - 576) / 8

/-- The beacon strand of head `h` (R269). -/
def beaconRx (h : Nat) : Nat := 576 + 8 * h

/-- Head `h` is enabled and its link is UP (R260). -/
def State.headUp (s : State) (h : Nat) : Bool :=
  s.bit F.RFS_HEAD_CFG_ENABLE (rhO h) && s.get F.RFS_HEAD_STAT_LINK (rhO h) == 2

/-- Head `h` may transmit (R264): its link is UP, `TX_EN` is 1, and its transmit direction has not failed in this slot
(R262). -/
def State.headSends (s : State) (h : Nat) : Bool :=
  s.headUp h && s.bit F.RFS_HEAD_CFG_TX_EN (rhO h) && !s.mac.headFail.contains (h, false)

/-- The heads that send beacons (R269). -/
def State.beaconHeads (s : State) : List Nat :=
  (List.range 4).filter (fun h => (s.get F.MAC_CONT_BEACON_HEADS).testBit h)

/-- The centre of head `h` in superframe `n`, as a raster channel (R265). -/
def State.hopCentre (s : State) (h n : Nat) : Nat :=
  bitsOf (s.live (F.MAC_HOP_TBL.addr + 4 * (n % max 1 (s.get F.MAC_HOP_LEN)))) (8 * h + 7) (8 * h)

/-- The frequency of raster channel `c` in Hz (R265). -/
def State.rasterHz (s : State) (c : Nat) : Int := s.get F.MAC_RASTER_BASE_KHZ * 1000 + c * 12500 * s.get F.MAC_RASTER_STEP

/-- The frequency of radio receiver `r` in superframe `n`, in Hz (R114, R265). -/
def State.radioHz (s : State) (r n : Nat) : Int :=
  s.rasterHz (s.hopCentre (headOf r) n) + 25 * s.getI F.STR_TONE_CENTRE_CENTRE (rxO r)

/-- The raster channel nearest a frequency, the lower one in a tie (R265). -/
def State.rasterOf (s : State) (hz : Int) : Nat :=
  let w : Int := 12500 * max 1 (s.get F.MAC_RASTER_STEP)
  let d : Int := hz - s.get F.MAC_RASTER_BASE_KHZ * 1000
  min 255 ((2 * d - w + 2 * w - 1) / (2 * w)).toNat

/-- The mode of channel `n`'s receiver `r` with coding `c` (R265, R277). -/
def State.chanMode (s : State) (r c : Nat) : Mode :=
  ⟨s.get F.STR_FRM_CFG_RX_RATE (rxO r), s.get F.STR_SYM_CFG_LEVELS (rxO r), c⟩

/-! ### Slot times -/

/-- Ls in ticks (R266). -/
def State.slotLen (s : State) : Nat := 38400 * s.get F.MAC_SF_CFG_SLOT_MS
/-- Lf in ticks (R266). -/
def State.sfLen (s : State) : Nat := 64 * s.slotLen
/-- G in ticks (R267). -/
def State.guardTicks (s : State) : Nat := 3840 * s.get F.MAC_SF_CFG_GUARD
/-- The start of phase 2, from the slot start (R267). -/
def State.p2Ticks (s : State) : Nat := 38400 * s.get F.MAC_SF_CFG_P2_MS
/-- RTA in ticks (R267). -/
def State.rtaTicks (s : State) : Nat := 3840 * s.get F.MAC_SF_CFG_RTA
/-- The present superframe number. -/
def State.sfn (s : State) : Nat := s.get F.MAC_SFN_SFN
/-- Bn of the present superframe. -/
def State.sfStart (s : State) : Nat := s.get F.MAC_SF_START_LO_TICK + 2 ^ 32 * s.get F.MAC_SF_START_HI_TICK
/-- Half a millisecond: the tail, and the transmit script's interval (R262, R267). -/
def halfMs : Nat := 19200

/-- Whether slot `j` is a contention slot (R266). -/
def State.contSlot (s : State) (j : Nat) : Bool :=
  decide (s.get F.MAC_CONT_CONT_FIRST ≤ j) && decide (j < s.get F.MAC_CONT_CONT_FIRST + s.get F.MAC_CONT_CONT_COUNT)

/-- Whether slot `j` is the listen slot of subordinate mode (R266). -/
def State.listenSlot (s : State) (j : Nat) : Bool :=
  s.bit F.MAC_CTRL_SUBORD && s.get F.MAC_SUB_OFFSET_SLOTS != 0 && j == 64 - s.get F.MAC_SUB_OFFSET_SLOTS

/-- The first grid instant at or after tick `t`, for the grid offset in force (R266). -/
def State.gridFrom (s : State) (t : Nat) : Nat :=
  let lf := max 1 s.sfLen
  let o := s.get F.MAC_STATUS_OFFSET * s.slotLen % lf
  t + (o + lf - t % lf) % lf

/-! ### The listen strand -/

/-- A frequency lies in head `h`'s usable band in superframe `n` (R261). -/
def State.inHeadBand (s : State) (h n : Nat) (hz : Int) : Bool :=
  let mid := s.rasterHz (s.hopCentre h n)
  decide (mid - 1600000 ≤ hz) && decide (hz ≤ mid + 1600000)

/-- The frequency at which the listen strand listens (R283, R284): in PARENT_LOST that of the channel it scans, else that of the
parent's channel in the last `NEXT` decoded which lies in the head's band, else its own. -/
def State.listenHz (s : State) : Int :=
  let h := s.get F.MAC_SUB_LISTEN_HEAD
  if s.get F.MAC_STATUS_MODE = 3 then s.rasterHz s.mac.scan
  else match s.mac.parentNext.find? (fun c => c != 0xFF && s.inHeadBand h s.sfn (s.rasterHz c)) with
    | some c => s.rasterHz c
    | none => s.radioHz (beaconRx h) s.sfn

/-- The listen strand scans in slot `j` (R284): in PARENT_LOST, where its head has no active pair, no contention and no beacon. -/
def State.scanSlot (s : State) (j : Nat) : Bool :=
  let h := s.get F.MAC_SUB_LISTEN_HEAD
  s.bit F.MAC_CTRL_SUBORD && s.get F.MAC_STATUS_MODE == 3 && !s.contSlot j && !s.mac.pairs.any (fun p => headOf p.rx == h)
    && !(j == 0 && s.beaconHeads.contains h)

/-- The listen strand may listen in slot `j` (R283, R284): in the listen slot, and in PARENT_LOST wherever it scans. -/
def State.listens (s : State) (j : Nat) : Bool :=
  s.bit F.MAC_CTRL_SUBORD && s.inHeadBand (s.get F.MAC_SUB_LISTEN_HEAD) s.sfn s.listenHz && (s.listenSlot j || s.scanSlot j)

/-- The lowest raster channel above `c` in the listen head's band, or the lowest of the band (R284). -/
def State.scanNext (s : State) (c : Nat) : Nat :=
  let inBand := (List.range 256).filter (fun r => s.inHeadBand (s.get F.MAC_SUB_LISTEN_HEAD) s.sfn (s.rasterHz r))
  match inBand.find? (fun r => decide (c < r)) with
  | some r => r
  | none => inBand.headD c

/-- A frequency difference in Hz as `FC_NCO.FREQ` of a radio chain (R54, R261). -/
def ncoWord (hz : Int) : BitVec 32 := BitVec.ofInt 32 (roundAway ((hz * 2 ^ 32 : Int) / 3840000))

/-- Slot `j` begins on the listen strand (R283, R284): in PARENT_LOST it goes on to the next channel, and its mixer moves to where it
listens, or back to its own tone centre. -/
def State.listenStart (s : State) (j : Nat) : State :=
  let s := if s.scanSlot j then { s with mac := { s.mac with scan := s.scanNext s.mac.scan } } else s
  let own := s.radioHz (beaconRx (s.get F.MAC_SUB_LISTEN_HEAD)) s.sfn
  { s with mac := { s.mac with listenTune := if s.listens j then ncoWord (s.listenHz - own) else 0 } }

/-- When the window of radio receiver `r` that is due now ends: that of its pair (R275), phase 1 of a contention slot on a beacon strand
(R281), or a slot up to its tail on the listen strand (R267, R283, R284). -/
def State.radioWindow (s : State) (r : Nat) : Option Nat :=
  match s.mac.slot with
  | none => none
  | some (j, st) => match s.mac.pairs.find? (fun p => p.rx == r) with
    | some p => if p.outcome ≠ 5 ∧ p.openAt ≤ s.tick ∧ s.tick < p.closeAt then some p.closeAt else none
    | none =>
      let h := headOf r
      let up := st + s.p2Ticks - halfMs
      let tail := st + s.slotLen - halfMs
      if s.contSlot j then
        if s.beaconHeads.contains h ∧ r = beaconRx h ∧ s.tick < up then some up else none
      else if r = beaconRx (s.get F.MAC_SUB_LISTEN_HEAD) ∧ s.listens j ∧ s.tick < tail then some tail
      else none

/-! ### SYSREF -/

/-- The ticks of a SYSREF period at 15 kHz (R259): 8 multiframes of the 120 kHz LMFC (R258). -/
def sysrefTicks : Nat := 8 * 320

/-- The one SYSREF has a pulse at tick `t` (R259): at 15 kHz, on boundaries of the module's LMFC, 8 pulses from each link initialisation
on, and with `SYSREF_CONT` further ones while any head is enabled. -/
def State.sysrefAt (s : State) (t : Nat) : Bool :=
  t % sysrefTicks == 0 && (List.range 4).any (fun h =>
    let at_ := tget (fun _ => 0) s.mac.linkInit h
    s.bit F.RFS_HEAD_CFG_ENABLE (rhO h) && at_ != 0 && decide (at_ ≤ t + 1)
      && (s.bit F.RFS_LINK_CFG_SYSREF_CONT || decide (t + 1 < at_ + 8 * sysrefTicks)))

/-- The SYSREF pins follow the time base (R259). -/
def State.sysrefTick (s : State) : State := { s with mac := { s.mac with sysref := s.sysrefAt s.tick } }

end Sys2Proof.Machine
end

