-- ==== Sys2Proof/Machine/Strands.lean ====
section
/-! DEFINITION. Strand reception (R80 to R112): listen windows, detection, symbols, the ways an attempt ends, replays, the STR
commit and its rules, and the clearing of counters. -/
namespace Sys2Proof.Machine
open Sys2Proof

/-! ### Listen windows -/

/-- The pair that radio receiver `r` serves in the present slot. -/
def State.pairOf (s : State) (r : Nat) : Option PairNow := s.mac.pairs.find? (fun p => p.rx == r)

/-- The head of radio receiver `r` receives (R260, R262, R263). -/
def State.headHears (s : State) (r : Nat) : Bool := s.headUp (headOf r) && !s.mac.headFail.contains (headOf r, true)

/-- A header passed on a pair's receiver: the pair is HEARD, with the frame's sync stamp (R274). -/
def State.pairHeard (s : State) (r : Nat) : State :=
  { s with mac := { s.mac with pairs := s.mac.pairs.map (fun (p : PairNow) =>
      if p.rx = r ∧ p.outcome = 0 then { p with outcome := 1, sync := some (s.rx r).syncTick } else p) } }

/-- The reply slot that is open at tick `t` on strand `r` of a sweep (R205): when it ends. -/
def State.sweepSlot (s : State) (r t : Nat) : Option Nat :=
  match s.sweeps.find? (fun w => w.ports.contains (r / 4) && w.slot == r % 4) with
  | none => none
  | some w =>
    let first := w.e + msTicks 10
    let j := (t - first) / max 1 w.slotLen
    if first ≤ t ∧ j < w.slots then some (first + (j + 1) * w.slotLen) else none

/-- When the listen window of receiver `r` that may open now is due to close: the window of its exchange (R195), a reply slot of its
sweep (R205), or a window of the radio coordinator. -/
def State.windowNow (s : State) (r : Nat) : Option Nat :=
  if r < 576 then
    match s.exchOfRx r with
    | some e => if e.openAt ≤ s.tick ∧ s.tick < e.closeAt then some e.closeAt else none
    | none => s.sweepSlot r s.tick
  else if s.headHears r then s.radioWindow r else none

/-- The blanker's mode in a window of line receiver `r` (R164): true for BYPASS. -/
def State.blankBypass (s : State) (r : Nat) : Bool :=
  let force := s.get F.MNS_BLANK_CFG_FORCE (mnO r)
  let prio := match s.exchOfRx r with
    | some e => e.request != 7 && (s.slot e.session).prio && decide (2 ≤ s.verOf e.session)
    | none => false
  force == 2 || (force == 0 && prio)

/-- LISTEN_WINDOW_OPEN (R82, R164, R172, R176): the window of receiver `r` opens, not before the time planned for it; the blanker's
mode and settings are fixed for it, and its group's frame begins afresh.  The receiver leaves HOLD at the next chain output. -/
def execListenWindowOpen (r : Fin 608) (s : State) : Out := s.answer <|
  let n := r.val
  if (s.rx n).listen then .next s
  else match s.windowNow n with
    | none => .next s
    | some shut =>
      let s := if n < 576 then
          ((s.putB F.MNS_BLANK_STAT_MODE (mnO n) (s.blankBypass n)).blankLatch n).combFresh n
        else s
      let asked := ((s.exchOfRx n).map (fun e => decide (0 < e.blockRounds))).getD false
      let s := s.onRx n (fun x => { x with listen := true, shutAt := some shut, failed := 0, asked := asked })
      .next (s.putB F.STR_STATUS_LISTEN (rxO n) true)

/-- LISTEN_WINDOW_CLOSE (R83, R101): an attempt without a sync word ends NO_FRAME; a frame whose sync word was found goes
on; a replay still reads samples from before the close. -/
def execListenWindowClose (r : Fin 608) (s : State) : Out := s.answer <|
  let n := r.val
  let x := s.rx n
  let early := match x.shutAt with
    | some t => decide (s.tick < t) && (if n < 576 then (s.exchOfRx n).isSome || (s.sweepSlot n s.tick).isSome
        else (s.radioWindow n).isSome)
    | none => false
  if !x.listen || early then .next s
  else
    let s := s.onRx n (fun x => { x with listen := false, windowShut := min s.tick (x.shutAt.getD s.tick) })
    let s := s.putB F.STR_STATUS_LISTEN (rxO n) false
    if s.bit F.STR_STATUS_REPLAY (rxO n) || x.replayWait.isSome then .next s else .next (s.rxShut n)

/-! ### Evaluations and symbols -/

/-- The listen window of receiver `r` was over at its sample `t` (R83, R101): a replay ends with it. -/
def State.rxLate (s : State) (r t : Nat) : Bool := !s.inWindow r t && decide (s.rxSt r < 4)

/-- HALF_SYMBOL_EVALUATION (R84, R89): every half symbol, the power of the symbol that ends at the output stamped `t`: in SEARCH, a
window at `THRESH` or above is a detection; in QUALIFY, the AGC is corrected. -/
def execHalfSymbolEvaluation (r : Fin 608) (t : Nat) (s : State) : Out := s.answer <|
  let n := r.val
  let x := s.rx n
  if x.replayWait.isSome || !s.evalDue n t || s.rxTxStarts n || (s.rxSt n != 1 && s.rxSt n != 2) then .next s
  else if s.rxSt n == 1 && s.rxLate n t then .next ((s.putB F.STR_STATUS_REPLAY (rxO n) false).rxShut n)
  else match s.symAt n 0 t with
    | none => .next s
    | some o =>
      let s := s.onRx n (fun x => { x with halfAt := t, power := o.power })
      if s.rxSt n = 1 then
        let s := s.onRx n (fun x => { x with pos := t })
        if s.levelGe n o.power (s.thresh n) then
          .next (((s.incSat F.STR_CNT_DET_DETECT (rxO n)).rxQualify n o.power).refUpdateRx n)
        else .next s
      else .next ((s.onRx n (fun x => { x with halfSyms := x.halfSyms + 1 })).agcCorrect n o.power)

/-- SYMBOL_BOUNDARY (R85, R86, R90 to R92, R102 to R107, R172 to R174): a symbol ends at the output stamped `t`, where the timing loop
puts its boundary.  The listen window applies by that stamp (R101). -/
def execSymbolBoundary (r : Fin 608) (t : Nat) (s : State) : Out := s.answer <|
  let n := r.val
  if s.rxSt n < 2 || !s.boundaryAt n t || !s.rxReads n t || s.frameFull n || s.rxTxStarts n then .next s
  else if s.rxLate n t then .next ((s.putB F.STR_STATUS_REPLAY (rxO n) false).rxShut n)
  else match s.symAt n 0 t with
    | none => .next s
    | some o =>
      match s.rxSt n with
      | 2 => .next ((s.symQualify n o).refUpdateRx n)
      | 3 => .next ((s.symHunt n o).refUpdateRx n)
      | _ => .next ((s.symData n o).refUpdateRx n)

/-- QUALIFY_TIMEOUT (R85): `QUAL_M` + 16 symbols without a pass. -/
def execQualifyTimeout (r : Fin 608) (s : State) : Out := s.answer <|
  let n := r.val
  if s.rxSt n = 2 && decide (s.get F.STR_DET_QUAL_M (rxO n) + 16 ≤ (s.rx n).symbols) then .next (s.rxAfter n)
  else .next s

/-- QUALIFY_LEVEL_DROP (R85): 4 consecutive symbols 3 dB or more below `THRESH`. -/
def execQualifyLevelDrop (r : Fin 608) (s : State) : Out := s.answer <|
  let n := r.val
  if s.rxSt n = 2 && decide (4 ≤ (s.rx n).lowRun) then .next (s.rxAfter n) else .next s

/-- STR_SYNC_TIMEOUT (R86, R100): `WINDOW` symbols after the qualifier without a sync word. -/
def execStrSyncTimeout (r : Fin 608) (s : State) : Out := s.answer <|
  let n := r.val
  if s.rxSt n = 3 && decide (s.get F.STR_SYNC_CFG_WINDOW (rxO n) ≤ (s.rx n).symbols) then
    let again := s.ctrlBit n F.STR_CTRL_REPLAY_SYNC
    let s := (s.rxEnd n 3).raise Ev.STR_SYNC_TIMEOUT n
    .next (if again then s.replayAsk n false else s.rxAfter n)
  else .next s

/-- The mean blanked fraction of the frame that ends, in percent (R165, R179). -/
def State.blankLast (s : State) (r : Nat) : State :=
  let x := s.rx r
  if 576 ≤ r ∨ x.blankN = 0 then s
  else s.put F.MNS_BLANK_STAT_LAST_PCT (mnO r) (roundAway (100 * x.blankSum / x.blankN)).toNat

/-- LEVEL_LOST (R107): 8 consecutive measured symbols 20 dB or more below the centre. -/
def execLevelLost (r : Fin 608) (s : State) : Out := s.answer <|
  let n := r.val
  if 4 ≤ s.rxSt n && decide (8 ≤ (s.rx n).lowRun) then
    let s := ((s.rxEnd n 7).incSat F.STR_CNT_MISC_LEVEL_LOST (rxO n)).raise Ev.LEVEL_LOST n
    .next ((((s.blankLast n).combDrop n).rxAfter n).rxOutcome n 5)
  else .next s

/-! ### The header and the end of a frame -/

/-- The checks of R130 on a header whose CRC matches. -/
def State.hdrFieldsOk (s : State) (r : Nat) (h : PhyHdr) : Bool :=
  h.rate != 7 && h.rate == s.get F.STR_FRM_CFG_RX_RATE (rxO r) && h.levels == s.get F.STR_SYM_CFG_LEVELS (rxO r)
    && h.coding != 3 && decide (14 ≤ h.length) && decide (h.length ≤ 1038)
    && decide (s.get F.PLN_KLP_FLOOR ≤ h.version) && decide (h.version ≤ s.get F.PLN_KLP_MAX)
    && !(h.levels == 1 && h.version == 0) && !(h.block && (decide (h.version < 2) || h.blockMap == 0))

/-- The header verdict FAIL at one receiver (R88, R100, R142): code 3 for the CRC, 4 for a field.  Where the capture detector fires at
the same sample, the frame ends COLLIDED and no replay follows (R108).  DESIGN CHOICE, log entry 109: the header fields of
`STR_FRM_LAST` keep an earlier frame's values. -/
def State.hdrFail (s : State) (r code : Nat) : State :=
  let ro := rxO r
  let now := s.rxNow r
  let both := if s.boundaryAt r now then s.captureStep r now else (s, false)
  if both.2 then both.1
  else
    let s := both.1
    let again := s.ctrlBit r F.STR_CTRL_REPLAY_HDR
    let s := ((s.rxEnd r 4).incSat F.STR_CNT_SYNC_HDR_FAIL ro).raise Ev.STR_HEADER_FAIL r
    let s := (s.put F.STR_FRM_LAST_VERDICT ro code).incSat F.STR_FRM_CNT_A_REJECTED ro
    let s := s.onRx r (fun x => { x with failed := 4 })
    if again then s.replayAsk r false
    else
      let s := s.rxAfter r
      if s.rxSt r = 0 then s.rxOutcome r 4 else s

/-- The header fields of `STR_FRM_LAST` (R145). -/
def State.showHdr (s : State) (r : Nat) (h : PhyHdr) : State :=
  let ro := rxO r
  (((s.put F.STR_FRM_LAST_CODING ro h.coding).put F.STR_FRM_LAST_VERSION ro h.version).putB F.STR_FRM_LAST_BLOCK ro
    h.block).put F.STR_FRM_LAST_LENGTH ro h.length

/-- HEADER_VERDICT (R88, R128 to R130, R173): the verdict on the 88 header values of receiver `r`, or of its group, whose
every joined member it reaches once each has delivered them. -/
def execHeaderVerdict (r : Fin 608) (s : State) : Out := s.answer <|
  let n := r.val
  if s.rxSt n ≠ 4 ∨ (s.frameSoft n 88).length < 88 ∨ s.rxTxStarts n then .next s
  else
    let d := hdrDecode (s.frameSoft n 88)
    let members : List Nat := match s.combOf n with
      | some c => (c.members.map (fun m => m.rx)).filter (fun x => s.rxSt x == 4 && (s.rx x).member)
      | none => [n]
    if d.2 && s.hdrFieldsOk n d.1 then .next (members.foldl (fun s x => (s.setRxSt x 5).pairHeard x) s)
    else
      let s := match s.combOf n with
        | some c => s.combSet c { c with done := true }
        | none => s
      .next (members.foldl (fun s x => s.hdrFail x (if d.2 then 4 else 3)) s)

/-- FRAME_SYMBOLS_DELIVERED (R88, R94, R173): the last symbol implied by the header, ending at `t`, is delivered.  A group's frame
goes to the frame unit when its last member has delivered; a member that was dropped delivers nothing. -/
def execFrameSymbolsDelivered (r : Fin 608) (t : Nat) (s : State) : Out := s.answer <|
  let n := r.val
  if !s.frameFull n || t != (s.rx n).pos || s.rxTxStarts n then .next s
  else
    let h := s.rxHdr n
    let s := (s.rxEnd n 1).blankLast n
    match s.combOf n with
    | none =>
      let s := s.handOver n [] h (((s.rx n).soft.drop 88).take h.bodyLen) (s.getI F.STR_LAST_LEVEL_SNR (rxO n))
      .next (s.rxAfter n)
    | some c =>
      if c.done || c.kept.any (fun k => k.1 == n) then .next (s.rxAfter n)
      else
        let c' : CombS := { c with kept := c.kept ++ [(n, (s.rx n).soft)] }
        .next (((s.combSet c c').combFinish c').rxAfter n)

/-! ### Replays -/

/-- REPLAY_START (R100, R101): a waiting replay starts once fewer than 8 run in its engine; they start in the order in which
they began to wait. -/
def execReplayStart (r : Fin 608) (s : State) : Out := s.answer <|
  let n := r.val
  match (s.rx n).replayWait with
  | none => .next s
  | some cap => if s.replayDue n then .next (s.replayGo n cap) else .next s

/-- REPLAY_LIVE (R101): the replay has reached the live samples: less than half a symbol of them is left to examine. -/
def execReplayLive (r : Fin 608) (s : State) : Out := s.answer <|
  let n := r.val
  if !s.bit F.STR_STATUS_REPLAY (rxO n) || decide (2 * (s.rx n).pos + s.symT n ≤ 2 * s.rxNow n) then .next s
  else
    let s := (s.putB F.STR_STATUS_REPLAY (rxO n) false).onRx n (fun x => { x with replayCap := false })
    if (s.rx n).listen then .next (s.refUpdateRx n) else .next ((s.rxShut n).refUpdateRx n)

/-! ### The STR commit -/

/-- The receivers that an STR commit of scope `sc` on receiver `r` names (R110). -/
def strScope (r sc : Nat) : List Nat :=
  match sc with
  | 0 => [r]
  | 1 => if r < 576 then (List.range 4).map (· + 4 * (r / 4)) else (List.range 8).map (· + (576 + 8 * ((r - 576) / 8)))
  | _ => replayPeers r

/-- A symbol rate in units of 25 Hz (R113). -/
def rate25 (line : Bool) (idx : Nat) : Nat :=
  if line then 6 * 2 ^ idx
  else match idx with
    | 0 => 500 | 1 => 1000 | 2 => 2000 | 3 => 4000 | 4 => 6000 | 5 => 8000 | _ => 12000

/-- The tone group of receiver `r` in the words `view` (R114, R115): Rs, and twice its lowest and highest tone, in units of
25 Hz. -/
def toneGroup (view : Nat → Word) (r : Nat) : Nat × Int × Int :=
  let o := rxO r
  let line := decide (r < 576)
  let rs := max (rate25 line (F.STR_TX_CFG_TX_RATE.afterOf view o)) (rate25 line (F.STR_FRM_CFG_RX_RATE.afterOf view o))
  let n : Int := if F.STR_TX_CFG_TX_LEVELS.afterOf view o = 1 ∨ F.STR_SYM_CFG_LEVELS.afterOf view o = 1 then 4 else 2
  let c : Int := if line then F.STR_TONE_CENTRE_CENTRE.afterOf view o else F.STR_TONE_CENTRE_CENTRE.afterI view o
  let d : Int := F.STR_TONE_SPACING_SPACING.afterOf view o
  (rs, 2 * c - (n - 1) * d, 2 * c + (n - 1) * d)

/-- Whether strand `r` is in use in the words `view`. -/
def toneOn (view : Nat → Word) (r : Nat) : Bool := F.STR_TONE_SPACING_EN.afterOf view (rxO r) == 1

/-- Whether the tone groups of strands `a` and `b` keep the separation of R115. -/
def toneApart (view : Nat → Word) (a b : Nat) : Bool :=
  let x := toneGroup view a
  let y := toneGroup view b
  let gap : Int := 4 * (max x.1 y.1 : Nat)
  decide (x.2.2 + gap ≤ y.2.1) || decide (y.2.2 + gap ≤ x.2.1)

/-- Whether the registers at `offs` agree over the members of receiver `r`'s triple, formed or about to be formed (R38). -/
def tripleRxEq (s : State) (view : Nat → Word) (offs : List Nat) (r : Nat) : Bool :=
  if 576 ≤ r then true
  else match s.tripleOf (r / 4) with
    | none => true
    | some lead =>
      let rc := fun k a => view (F.STR_CTRL.addr + rxO (4 * (lead + k) + r % 4) + a)
      offs.all (fun a => rc 0 a == rc 1 a && rc 1 a == rc 2 a)

/-- Whether the shadow words of receiver `r` hold only listed encodings, the centre's range among them. -/
def rxLegal (view : Nat → Word) (r : Nat) : Bool :=
  let o := rxO r
  let line := decide (r < 576)
  let c := F.STR_TONE_CENTRE_CENTRE.afterOf view o
  let ci := F.STR_TONE_CENTRE_CENTRE.afterI view o
  (rwsAddrs 4 r).all (fun a => shadowLegal a (view a))
    && (if line then decide (120 ≤ c) && decide (c ≤ 19600) else decide (-64000 ≤ ci) && decide (ci ≤ 64000))

/-- The rules of an STR commit (R111, R149). -/
def strRules (rxs : List Nat) (s : State) (cells : List (Nat × Word)) : Option (Nat × Nat) :=
  let view := s.after cells
  let per := fun (f : Nat → Bool) (r : Nat) => rxs.map (fun x => (f x, r, x))
  let syncSyms := fun x =>
    (16 + 8 * F.STR_SYM_CFG_SYNC_LEN.afterOf view (rxO x)) / (1 + F.STR_SYM_CFG_LEVELS.afterOf view (rxO x))
  let inBand := fun x =>
    let g := toneGroup view x
    if x < 576 then decide ((80 * s.get F.PLN_BAND_LOW_KHZ : Nat) ≤ g.2.1) && decide (g.2.2 ≤ (80 * s.get F.PLN_BAND_HIGH_KHZ : Nat))
    else decide (-128000 ≤ g.2.1) && decide (g.2.2 ≤ 128000)
  -- the four strands of a port, or the eight of a head (R265)
  let apart := fun x => (strScope x 1).all (fun y => y == x || !toneOn view y || toneApart view x y)
  firstFail (
    per (fun x => decide (F.STR_DET_QUAL_N.afterOf view (rxO x) ≤ F.STR_DET_QUAL_M.afterOf view (rxO x))) 0x40
    ++ per (fun x => decide (syncSyms x ≤ F.STR_SYNC_CFG_WINDOW.afterOf view (rxO x))) 0x41
    ++ per (rxLegal view) 0x42
    ++ per (fun _ => !s.commitPending 4) 0x43
    ++ per (tripleRxEq s view [0x04, 0x08, 0x0C, 0x10]) 0x44
    ++ per (fun x => !toneOn view x
        || decide ((toneGroup view x).1 ≤ F.STR_TONE_SPACING_SPACING.afterOf view (rxO x))) 0x45
    ++ per (fun x => !toneOn view x || inBand x) 0x46
    ++ per (fun x => !toneOn view x || apart x) 0x47
    ++ per (tripleRxEq s view [0x58, 0x5C, 0x60, 0x64]) 0x48)

/-- STR_COMMIT (R110, R111, R149): a reserved receiver number or scope commits nothing. -/
def execStrCommit (i : Iface) (w : Word) (s : State) : Out := s.answer <|
  let s := s.wlogNote i F.STR_COMMIT.addr w
  let r := F.STR_COMMIT_RECEIVER.of w
  let sc := F.STR_COMMIT_SCOPE.of w
  if 608 ≤ r ∨ sc = 3 then .next s else .next (s.commit i 4 (strScope r sc) (strRules (strScope r sc)))

/-- Receiver `r` applies its shadows (R111, R149): in HOLD or SEARCH, while its synthesiser does not transmit.  A strand that is then not
in use does not receive (R115). -/
def State.strTake (s : State) (r : Nat) : State :=
  if s.instPending 4 r && decide (s.rxSt r ≤ 1) && !(s.rx r).txOn then
    let s := s.applyInst 4 r
    if s.bit F.STR_TONE_SPACING_EN (rxO r) then s else s.rxForceHold r
  else s

/-- STR_COMMIT_APPLY (R111, R149): a receiver in HOLD or SEARCH whose synthesiser does not transmit. -/
def execStrCommitApply (r : Fin 608) (s : State) : Out := s.answer <| .next (s.strTake r.val)

/-- The offsets of the counter registers of a receiver (R109, R145, R288). -/
def rxCounters : List Nat := [0x3C, 0x40, 0x44, 0x48, 0x4C, 0x6C, 0x70, 0x80, 0x84]

/-- Whether `a` is a counter register of receiver `r`, or of any receiver when none is named. -/
def rxCounterAddr (r : Option Nat) (a : Nat) : Bool :=
  match r with
  | some r => rxCounters.any (fun o => F.STR_CTRL.addr + rxO r + o == a)
  | none => ((decide (0x080000 ≤ a) && decide (a < 0x0A4000)) || (decide (0x0E0000 ≤ a) && decide (a < 0x0E2000)))
      && rxCounters.contains (a % 0x100)

/-- STR_CNT_CLR (R110, R145, R146): the counters of one receiver, or of all with `QUEUED_MAX`, return to 0. -/
def execStrCntClr (i : Iface) (w : Word) (s : State) : Out := s.answer <|
  let s := s.wlogNote i F.STR_CNT_CLR.addr w
  let r := F.STR_CNT_CLR_RECEIVER.of w
  if F.STR_CNT_CLR_ALL.on w then
    let s := { s with regs := s.regs.filter (fun e => !rxCounterAddr none e.1) }
    .next (s.put F.STR_VIT_STAT_QUEUED_MAX 0 (s.get F.STR_VIT_STAT_QUEUED))
  else if 608 ≤ r then .next s
  else .next { s with regs := s.regs.filter (fun e => !rxCounterAddr (some r) e.1) }

end Sys2Proof.Machine
end

