-- ==== Sys2Proof/Machine/Rounds.lean ====
section
/-! DEFINITION. What the poll planner works out for a round (R183 to R202): frame lengths, the members a round can take, their
ports, modes and windows, the round instant E, and the frames it builds. -/
namespace Sys2Proof.Machine
open Sys2Proof

/-! ### Frame lengths -/

/-- Symbols of `n` bits in a mode (R125). -/
def Mode.syms (m : Mode) (n : Nat) : Nat := (n + m.levels) / (1 + m.levels)

/-- The ticks of `n` bits on a strand in a mode. -/
def Mode.ticks (m : Mode) (line : Bool) (n : Nat) : Nat := m.syms n * symTicks line m.rate

/-- Coded bits of a frame whose MPDU has `n` bytes, behind the preamble (R125, R134). -/
def Mode.frameBitsOf (m : Mode) (syncBits n : Nat) : Nat := syncBits + 88 + paddedLen (8 * n + 6) m.coding

/-- The ticks of a frame of `n` bytes from its first transmitted sample to its last coded symbol's end: half a symbol of ramp
leads it (R118). -/
def State.frameTicks (s : State) (r : Nat) (m : Mode) (n : Nat) : Nat :=
  let line := decide (r < 576)
  m.ticks line (s.preBits r + m.frameBitsOf (s.syncLen r) n) + symTicks line m.rate / 2

/-- The MPDU bytes of a step 1 frame (R131, R133, R184, R208, R342). -/
def State.reqBytes (s : State) (k request : Nat) : Nat :=
  if request = 3 ∨ request = 1 then 10 + 6 + s.ctxNum k 0x400 2 + 8 + 4
  else if request = 4 then 10 + 6 + 4 + 8 + 4
  else if request = 7 then 10 + 30 + 4
  else 10 + 6 + 4

/-! ### Members -/

/-- A member of a round as the planner works it out: its request, ports (best first), the port whose cycles and noise map its window
is taken from, slot, reply mode, the mode its frame is sent in, block mode, whether it needs an explicit combining group, window
(first bin and bins), turnaround, margin, its place within its class ahead of the due time (R187), the ticks of its frame, and those
of the reply's preamble and sync word. -/
structure Member where
  req : PReq
  ports : List Nat
  mapPort : Nat
  slot : Nat
  mode : Mode
  txMode : Mode
  block : Bool
  comb : Bool
  win : Option (Nat × Nat)
  turn : Nat
  margin : Int
  late : Nat
  len : Nat
  dp : Nat
  ds : Nat
  deriving DecidableEq, Repr

/-- The sync SNR at which a port position last heard session `k`, 0.25 dB units (R198). -/
def State.heardAt (s : State) (k pos : Nat) : Option Int :=
  let v := tget (fun _ => 0) s.portSnr (16 * k + pos)
  if v = 0 then none else some ((v : Int) - 4096)

/-- The ports that combine for session `k`: the first and those within `SPREAD` of it (R198). -/
def State.combPorts (s : State) (k : Nat) : List Nat :=
  match s.portsOf k with
  | [] => []
  | p :: rest =>
    let spread : Int := 2 * s.get F.PLN_COMB_SPREAD
    let near := rest.filter (fun q => match s.heardAt k (p % 16), s.heardAt k (q % 16) with
      | some a, some b => decide ((a - b).natAbs ≤ spread)
      | _, _ => false)
    let group := s.get F.PLN_GRP_B_COMB_EN (grpO (s.groupOfSes k))
    if s.bit F.PLN_COMB_EN && group == 1 && !s.pinned k 4
        && decide (s.ctxInt k 0x048 2 < 2 * (s.get F.PLN_COMB_MARGIN : Int)) && !near.isEmpty then p :: near
    else [p]

/-- The poll of an UNREACHABLE session, in class 3 (R204). -/
def State.lostPoll (s : State) (q : PReq) : Bool := s.reach q.session == 2 && q.cls == 3

/-- A port can serve slot `t` (R29, R49, R115): it and its triple are neither OFF nor inhibited, and the slot is in use. -/
def State.portCan (s : State) (p t : Nat) : Bool :=
  (s.withTriple p).all (fun q => s.portSt q != 0 && !s.inhibited q) && s.bit F.STR_TONE_SPACING_EN (rxO (4 * p + t))

/-- The next port of the cord in turn for an UNREACHABLE session on slot `t` (R204): one that can serve it. -/
def State.lostPort (s : State) (k t : Nat) : Nat :=
  let c := s.cordOf k
  let n := tget (fun _ => 0) s.unrPoll k % 16
  (((List.range 16).map (fun j => 16 * c + (n + j) % 16)).find? (fun p => s.portCan p t)).getD (16 * c + n)

/-- The ports of a request's attempt (R198, R201, R204).  DESIGN CHOICE, log entry 127: attempts 2 and later never combine. -/
def State.attemptPorts (s : State) (q : PReq) (t : Nat) : List Nat :=
  let k := q.session
  let a := q.attempt
  let ps := s.portsOf k
  if s.lostPoll q then [s.lostPort k t]
  else if a ≤ 1 then s.combPorts k
  else if a = 2 then [ps.getD 1 (ps.getD 0 0)]
  else if a = 3 then [ps.getD 0 0]
  else [ps.getD ((a - 4) % max 1 ps.length) 0]

/-- The present mode of session `k`, or the lowest allowed one where limits exclude it. -/
def State.curMode (s : State) (k : Nat) (ps : List Nat) (t : Nat) : Mode :=
  let m := modeOf (s.ctxNum k 0x046 1)
  let l := s.allowedModes k ps t
  if s.pinned k 2 || l.contains m then m else (lowestMode true l).getD m

/-- The reply mode of a request's attempt (R201, R204). -/
def State.attemptMode (s : State) (q : PReq) (ps : List Nat) (t : Nat) : Mode :=
  let k := q.session
  let a := q.attempt
  let m := s.curMode k ps t
  let l := s.allowedModes k ps t
  if s.pinned k 2 then m
  else if s.lostPoll q ∨ 4 ≤ a then (lowestMode true l).getD m
  else if a = 3 then (modeDown true l m).getD m
  else m

/-- The mode in which session `k` last replied (R200), where the slot carries it on every one of the ports `ps` (R191). -/
def State.lastMode (s : State) (k : Nat) (ps : List Nat) (t : Nat) (m : Mode) : Mode :=
  let v := tget (fun _ => 0) s.replied k
  let x := modeOf (v % 256)
  if v = 0 ∨ !s.ratesOn ps t x.rate then m else x

/-- Block mode for session `k` on receiver `r` (R202). -/
def State.blockMode (s : State) (k r : Nat) : Bool :=
  (s.slot k).prio && decide (2 ≤ s.verOf k)
    && (s.get F.MNS_BLANK_CFG_FORCE (mnO r) != 2 || s.bit F.PLN_RETRY_FORCE_BLOCK)

/-- `P95` of bin `b` of port `p`, 0.25 dB units (R161). -/
def State.p95 (s : State) (p b : Nat) : Int :=
  let m := s.mapBin p b
  if m.n = 0 then 0 else roundAway ((m.q95 : Rat) / 64)

/-- `SEEN` of bin `b` of port `p` (R161). -/
def State.seenBins (s : State) (p b : Nat) : Nat := (s.mapBin p b).seen

/-- The highest `P95` of the run of `n` bins from `b` on, wrapping. -/
def State.runMax (s : State) (p b n : Nat) : Int :=
  (List.range n).foldl (fun (m : Int) j => max m (s.p95 p ((b + j) % 128))) (s.p95 p b)

/-- The window of a sync word of `ds` ticks at port `p` (R195): its first bin and its number of bins. -/
def State.windowOf (s : State) (p ds : Nat) : Option (Nat × Nat) :=
  let a := s.setOf p
  let per := (s.mset a).cycleP
  if s.get F.MNS_SET_STAT_STATE (setO a) ≠ 1 ∨ per = 0 then none
  else
    let n := (128 * ds + per - 1) / per + s.get F.PLN_WIN_SLACK_BINS
    if 64 < n then none
    else
      let best := (List.range 128).foldl (fun (m : Nat × Int) b =>
        let x := s.runMax p b n
        if x < m.2 then (b, x) else m) (0, s.runMax p 0 n)
      let sum := (List.range 128).foldl (fun (x : Rat) b =>
        x + qdbPow (s.p95 p b - best.2 - 4 * (s.get F.PLN_WIN_MIN_GAIN : Int))) 0
      if (List.range n).any (fun j => decide (s.seenBins p ((best.1 + j) % 128) < s.get F.PLN_WIN_MIN_SEEN)) || decide (sum < 128)
      then none else some (best.1, n)

/-- The pinned or chosen window of session `k` on port `p` (R195, R209). -/
def State.sesWindow (s : State) (k p ds : Nat) : Option (Nat × Nat) :=
  if s.pinned k 3 then
    let f := s.ctxNum k 0x050 1 % 128
    let l := s.ctxNum k 0x051 1 % 128
    if (s.mset (s.setOf p)).cycleP = 0 then none else some (f, (l + 128 - f) % 128 + 1)
  else if s.get F.PLN_GRP_B_WINDOW_EN (grpO (s.groupOfSes k)) = 0 then none
  else s.windowOf p ds

/-- The member that a request makes (R190 to R202). -/
def State.memberOf (s : State) (q : PReq) : Member :=
  let k := q.session
  match s.assocs.find? (fun a => q.request == 7 && a.session == k) with
  | some a =>
    let p := ((a.ports.head?).map (·.1)).getD 0
    let r := 4 * p + a.joinSlot
    { req := q, ports := s.withTriple p, mapPort := p, slot := a.joinSlot, mode := a.joinMode, txMode := a.joinMode, block := false,
      comb := false, win := none, turn := a.turn, margin := 0, late := 0, len := s.frameTicks r a.joinMode (s.reqBytes k 7),
      dp := a.joinMode.ticks true (s.preBits r), ds := a.joinMode.ticks true (s.syncLen r) }
  | none =>
    let t := s.ctxNum k 0x041 1 / 16 % 4
    let ps := s.attemptPorts q t
    let p := ps.headD 0
    let r := 4 * p + t
    let all := s.withTriple p
    let mapPort := (s.portsOf k).headD p
    let on := (ps.flatMap s.withTriple).eraseDups
    let m := s.attemptMode q on t
    let tx := s.lastMode k on t m
    let ds := m.ticks true (s.syncLen r)
    { req := q, ports := if ps.length = 1 && !s.lostPoll q then all else ps, mapPort := mapPort, slot := t, mode := m,
      txMode := tx, block := s.blockMode k r, comb := decide (1 < ps.length) && !(all.all ps.contains && ps.all all.contains),
      win := s.sesWindow k mapPort ds, turn := s.ctxNum k 0x04C 4, margin := s.ctxInt k 0x048 2,
      late := if q.cls = 1 ∧ s.cstate k ≠ 2 then 1 else 0, len := s.frameTicks r tx (s.reqBytes k q.request), dp := m.ticks true (s.preBits r), ds := ds }

/-- The round ports of a member (R192): a triple counts as one port. -/
def State.roundPorts (s : State) (m : Member) : List Nat := (m.ports.flatMap s.withTriple).eraseDups

/-! ### Eligibility -/

/-- The pin of session `k` that cannot be honoured (R209): a pinned port that is OFF or in another cord, or a pinned mode
outside the slot's rates or the negotiated version. -/
def State.pinConflict (s : State) (k : Nat) : Bool :=
  let t := s.ctxNum k 0x041 1 / 16 % 4
  let m := modeOf (s.ctxNum k 0x046 1)
  let p := (s.portsOf k).headD (16 * s.cordOf k)
  (s.pinned k 0 && ((s.portsOf k).any (fun p => s.portSt p == 0) || s.pinCords.contains k))
    || (s.pinned k 2 && (!(s.slotRates p t).contains m.rate || (m.levels == 1 && s.verOf k == 0)))

/-- Line time of a class on port `p` over the last 60 s, in ticks (R187). -/
def State.classTime (s : State) (p cls : Nat) : Nat :=
  s.lineTicks (s.planDone.filter (fun d => d.cls == cls && d.ports.contains p && decide (s.tick < d.ended + sTicks 60)))

/-- Classes 2 and 3 of cord `c` cannot meet their due times (R187).  DESIGN CHOICE, log entry 132: a read past its due time by an `INTERVAL`
(R189) waits on the cord. -/
def State.cordLate (s : State) (c : Nat) : Bool :=
  s.planQ.any (fun q => (q.cls == 2 || q.cls == 3) && q.missed && s.cordOf q.session == c)

/-- The share cap of a class leaves room on port `p` (R187). -/
def State.capRoom (s : State) (p cls : Nat) : Bool :=
  let pct := if cls = 4 then s.get F.PLN_DISC2_CAP else if cls = 5 then s.get F.PLN_PHASE_CAP else 100
  let pct2 := if s.cordLate (p / 16) then pct else 2 * pct
  cls < 4 || decide (200 * s.classTime p cls < pct2 * sTicks 60)

/-- A port can be in a new round: in no round, and no sweep uses it (R192). -/
def State.portFree (s : State) (p : Nat) : Bool := !s.rounds.any (fun r => r.ports.contains p)

/-- A request can enter a round of cord `c` now (R115, R187, R188, R191 to R194, R209, R243, R337): nothing is sent to a session in states
4 and 5 but an ASSIGN, its ports can serve its slot and its mode, and no LP commit waits for them. -/
def State.planCan (s : State) (c : Nat) (q : PReq) : Bool :=
  let k := q.session
  let x := s.slot k
  let m := s.memberOf q
  let guard := usTicks (100 * s.get F.PLN_TIMING_TA_GUARD)
  let cord := match m.ports with | p :: _ => p / 16 == c | [] => false
  (q.request == 7 || !x.radio) && (s.get F.PLN_CTRL_CLASS_EN).testBit q.cls && !s.bit F.SES_STATUS_SPOOL_FULL && cord
    && !s.exchs.any (fun e => e.session == k) && (q.cls != 4 || !s.assocHeld)
    && m.ports.all (fun p => s.capRoom p q.cls) && s.ratesOn (s.roundPorts m) m.slot m.mode.rate
    && (if q.request == 7 then x.st == 1 || x.st == 2
        else x.st == 2 && (s.cstate k != 2 || q.cls == 1) && s.cstate k != 4 && s.cstate k != 5 && (q.cls != 3 || !s.bit F.SES_STATUS_SPOOL_HIGH)
          && (q.cls != 1 || s.rekeyCan k) && (q.cls != 0 || s.ctxNum k 0x400 2 != 0) && !s.pinConflict k
          && !(s.allowedModes k (s.roundPorts m) m.slot).isEmpty)
    && m.ports.all (fun p => s.portCan p m.slot) && (s.roundPorts m).all (fun p => !(s.lpChanged c).contains p)
    && decide (96000 + guard ≤ m.turn)

/-- A discovery sweep of slot `t` is due on port `p` of cord `c` and could start (R187, R188, R193, R205). -/
def State.sweepCan (s : State) (c p t : Nat) : Bool :=
  let key := 4 * p + t
  (!thas s.sweepAt key || decide (tget (fun _ => 0) s.sweepAt key + sTicks (s.get F.PLN_DISC_PERIOD) ≤ s.tick))
    && (s.get F.PLN_CTRL_CLASS_EN).testBit 4 && !s.bit F.SES_STATUS_SPOOL_FULL && !s.assocHeld
    && s.portCan p t && s.ratesOn (s.withTriple p) t s.joinMode.rate && s.capRoom p 4 && (s.withTriple p).all (fun q => s.portFree q && !(s.lpChanged c).contains q)

/-- The planner of cord `c` fixes rounds: it is not suspended, the module owns its boards, no profile switch drains, no LIMITS
commit waits, the cord is in service, no switchover is under way, start-up is done, work is not stopped,
and its core has no supervisor work to serve first (R25, R182, R193, R211, R212, R375, R447, R454, R463, R483). -/
def State.cordPlans (s : State) (c : Nat) : Bool :=
  s.own && !s.bit F.PLN_CTRL_SUSPEND && !s.instPending 6 9 && decide (s.profPhase < 2)
    && !s.standsBy && !s.spl.switchTo && !s.cordOut c && !s.noDecoder && !s.workOff
    && s.bit F.GLB_STATUS_STARTED && !s.roleWaits (plannerOf c)

/-- Members by class, in class 1 REKEY_REQUIRED first (R187), then due time, then lower margin (R196). -/
def Member.before (a b : Member) : Bool :=
  decide (a.req.cls < b.req.cls) || (a.req.cls == b.req.cls
    && (decide (a.late < b.late) || (a.late == b.late
      && (decide (a.req.due < b.req.due) || (a.req.due == b.req.due && decide (a.margin < b.margin))))))

/-- Inserts a member in rank order. -/
def rankIn (m : Member) : List Member → List Member
  | [] => [m]
  | x :: t => if m.before x then m :: x :: t else x :: rankIn m t

/-! ### The round instant -/

/-- A priority session that has waited longer than half its `INTERVAL` past its due time (R196). -/
def State.waived (s : State) (m : Member) : Bool :=
  (s.slot m.req.session).prio && m.win.isSome && decide (2 * m.req.due + s.intervalOf m.req.session < 2 * s.tick)

/-- Where in the cycle a member's sync word should begin, in ticks from the cycle's start (R196). -/
def syncOffset (per ds : Nat) (w : Nat × Nat) : Int := (w.1 * per / 128 : Nat) + (((w.2 * per / 128 : Nat) : Int) - ds) / 2

/-- The least `x + m × p`, with `m` any whole number, that is at least `lo`. -/
def alignUp (x : Int) (p : Nat) (lo : Int) : Int := if p = 0 then max x lo else x + (lo - x + p - 1) / p * p

/-- The sync word of a member lies wholly inside its window when the round instant is `e` (R196). -/
def State.syncInside (s : State) (m : Member) (e : Int) : Bool :=
  match m.win with
  | none => true
  | some w =>
    let x := s.mset (s.setOf m.mapPort)
    let per := x.cycleP
    let start := e + m.turn + m.dp - x.cycleZ - (w.1 * per / 128 : Nat)
    let o := if per = 0 then start else start % per
    decide (o + m.ds ≤ (w.2 * per / 128 : Nat))

/-- The settling time of a receiver's chains (R68, R197). -/
def State.settleTicks (s : State) (r : Nat) : Nat :=
  s.settleD (144 + r) * s.chainPeriod (144 + r) + s.settleD (r / 4) * s.chainPeriod (r / 4)

/-- A predicted restart instant of the armed source of group `g` falls from `lo` to `hi` (R197): a one-shot source has the next one
only (R73). -/
def State.trigIn (s : State) (g : Nat) (lo hi : Int) : Bool :=
  let off : Int := 32 * s.get F.FC_SYNC_CFG_OFFSET (wO g)
  let falls := fun (x : Int) (per : Nat) =>
    let t := alignUp x per (if s.bit F.FC_SYNC_CFG_ONESHOT (wO g) then (s.tick : Int) else lo)
    decide (lo ≤ t) && decide (t ≤ hi)
  if !s.bit F.FC_SYNC_CFG_ARMED (wO g) then false
  else match s.get F.FC_SYNC_CFG_SOURCE (wO g) with
    | 1 =>
      let a := s.get F.FC_SYNC_CFG_SET (wO g)
      let k := s.get F.FC_SYNC_CFG_PHASE (wO g) + (if s.bit F.FC_SYNC_CFG_POLARITY (wO g) then 3 else 0)
      let per := s.get F.MNS_PERIOD_TICKS (setO a)
      let t : Int := s.getTime F.MNS_ZC_TIME_LO (setO a + 8 * k)
      per != 0 && falls (t + off) per
    | 2 => match s.ppsLast with
      | some t => falls (t + off) 38400000
      | none => false
    | _ => false

/-- The sync groups that hold chains of some ports (R197). -/
def State.portGroups (s : State) (ps : List Nat) : List Nat :=
  ((ps.flatMap (fun p => p :: (List.range 4).map (fun k => 144 + 4 * p + k))).map (fun c => s.get F.FC_CFG_SYNC_GROUP (fcO c))).eraseDups.filter
    (· != 0)

/-- A listen window of receiver `r` from `lo` to `hi`, extended by the settling time, contains no predicted restart of a group that holds
one of the round ports `ps` (R197). -/
def State.winClear (s : State) (ps : List Nat) (r : Nat) (lo hi : Int) : Bool :=
  !(s.portGroups ps).any (fun g => s.trigIn g (lo - s.settleTicks r) hi)

/-- No listen window of the members contains a restart when the round instant is `e` (R197). -/
def State.trigClear (s : State) (ms : List Member) (e : Int) : Bool :=
  let guard : Int := usTicks (100 * s.get F.PLN_TIMING_TA_GUARD)
  let ports := (ms.flatMap s.roundPorts).eraseDups
  ms.all (fun m => m.ports.all (fun p =>
    s.winClear ports (4 * p + m.slot) (e + m.turn - guard) (e + m.turn + m.dp + m.ds + guard)))

/-- The first of `n` round instants, from `e` on by `step`, that every other member can take and that no restart spoils. -/
def State.findE (s : State) (ms rest : List Member) (e : Int) (step : Nat) : Nat → Option Int
  | 0 => none
  | n + 1 =>
    let ok := rest.all (fun m => m.win.isNone || s.waived m || decide (2 * (s.get F.PLN_WIN_FREE_MARGIN : Int) ≤ m.margin)
      || s.syncInside m e)
    if !ok then none
    else if s.trigClear ms e then some e
    else s.findE ms rest (e + step) step n

/-- E of a round of ranked members (R193, R196, R197), and the first transmitted sample T0. -/
def State.roundTimes (s : State) (ms : List Member) : Option (Nat × Nat) :=
  match ms with
  | [] => none
  | m :: rest =>
    let ports := ms.flatMap s.roundPorts
    let gap := usTicks (100 * s.get F.PLN_TIMING_GAP)
    let free := ports.foldl (fun (t : Nat) p => max t (tget (fun _ => 0) s.roundEnd p + gap)) 0
    let len := ms.foldl (fun (t : Nat) x => max t x.len) 0
    let lo : Int := (max (s.tick + msTicks 2) free + len : Nat)
    let x := s.mset (s.setOf m.mapPort)
    let e0 := match m.win with
      | some w =>
        if s.waived m then lo
        else alignUp (x.cycleZ + syncOffset x.cycleP m.ds w - m.turn - m.dp) x.cycleP lo
      | none => lo
    match s.findE ms rest e0 (if x.cycleP = 0 then 768000 else x.cycleP) 256 with
    | some e => some (e.toNat, e.toNat - len)
    | none => none

/-! ### Building -/

/-- The exchange header (R184): the largest reply is offered and the slot is not changed (log entry 26). -/
def exchHeader (request : Nat) (mode : Mode) (block zc : Bool) (b2 seq : Nat) : List Byte :=
  le request 1 ++ le (mode.byte % 64 + (if block then 64 else 0) + (if zc then 128 else 0)) 1 ++ le b2 1 ++ [0xFF] ++ le seq 2

/-- The payload of an ASSIGN on the line (R208). -/
def State.assignPayload (s : State) (a : Assoc) : List Byte :=
  let p := ((a.ports.head?).map (·.1)).getD 0
  le a.eui 8 ++ le a.session 2 ++ le a.ver 1 ++ (List.range 4).flatMap (fun k =>
    le (s.get F.STR_TONE_CENTRE_CENTRE (rxO (4 * p + k))) 2 ++ le (s.get F.STR_TONE_SPACING_SPACING (rxO (4 * p + k))) 2)
    ++ le a.slot 1 ++ le a.seq 2

/-- Builds a member's step 1 frame (R183, R184): the MPDU, and how many Vault writes it waits for; none when the build is
refused. -/
def State.buildReq (s : State) (m : Member) (seq h : Nat) : State × Option (List Byte × Nat) :=
  let k := m.req.session
  let rx := 4 * m.ports.headD 0 + m.slot
  let hd := exchHeader m.req.request m.mode m.block (m.req.request == 2 && decide (1 ≤ s.verOf k)) 127 seq
  let count := fun (r : State × Option (List Byte × Bool)) => (r.1, r.2.map (fun x => (x.1, if x.2 then 1 else 0)))
  match m.req.request with
  | 1 => count (s.buildTraffic rx k h 2 [] (hd ++ s.ctxBytes k 0x408 (s.ctxNum k 0x400 2)))
  | 3 => count (s.buildTraffic rx k h 2 [] (hd ++ s.ctxBytes k 0x408 (s.ctxNum k 0x400 2)))
  | 4 => count (s.buildRekey rx k h [] hd)
  | 7 => match s.assocs.find? (fun a => a.session == k) with
    | some a => (s, some (plainMpdu 7 0xFFFE 0 (s.assignPayload a), 0))
    | none => (s, none)
  | _ => (s, some (plainMpdu 0 k 0 hd, 0))

/-- The modes that a receiver is given: those it sends in and receives in. -/
abbrev RxModes := Nat × Mode × Mode

/-- The shadows of receiver `x.1` for its modes (R193): the transmit mode, the receive rate and levels, and the samples per symbol that
follow. -/
def State.modeShad (s : State) (x : RxModes) : State :=
  let o := rxO x.1
  let tx := x.2.1
  let rx := x.2.2
  let a1 := F.STR_TX_CFG.addr + o
  let a2 := F.STR_FRM_CFG.addr + o
  let a3 := F.STR_SYM_CFG.addr + o
  let w1 := setBits (setBits (setBits (s.live a1) 2 0 tx.rate) 3 3 tx.levels) 7 6 tx.coding
  let old := s.get F.STR_FRM_CFG_RX_RATE o
  let sps := s.get F.STR_SYM_CFG_SPS o * symRate true old / symRate true rx.rate
  let w3 := setBits (setBits (s.live a3) 15 0 sps) 16 16 rx.levels
  ((s.setShad a1 w1).setShad a2 (setBits (s.live a2) 2 0 rx.rate)).setShad a3 w3

/-- The live modes of some receivers are not those given. -/
def State.modesDiffer (s : State) (l : List RxModes) : Bool :=
  let t := l.foldl State.modeShad s
  l.any (fun x => [F.STR_TX_CFG, F.STR_FRM_CFG, F.STR_SYM_CFG].any (fun f => t.shad (f.addr + rxO x.1) != s.live (f.addr + rxO x.1)))

/-- The modes of strands are committed where they differ from the live ones, in one commit (R191, R193). -/
def State.commitModes (s : State) (l : List RxModes) : State :=
  if s.modesDiffer l then
    let rxs := l.map (·.1)
    (l.foldl State.modeShad s).commit .module 4 rxs (strRules rxs)
  else s

/-- The modes cannot be committed now: an earlier STR commit is pending (rule 0x43). -/
def State.modesWait (s : State) (l : List RxModes) : Bool := s.commitPending 4 && s.modesDiffer l

/-- The modes of a member on its strands, those of a triple alike (R38, R193). -/
def State.memberModes (s : State) (m : Member) : List RxModes :=
  (s.roundPorts m).map (fun p => (4 * p + m.slot, m.txMode, m.mode))

/-- Receivers in HOLD or SEARCH that do not send apply their pending commit (R111, R149). -/
def State.strApply (s : State) (rxs : List Nat) : State :=
  rxs.foldl (fun (s : State) r => s.strTake r) s

/-- The explicit combining group of a member (R198): its strands' modes are committed first, so that the group's strands agree; then
a group that no round uses is written, and others that name one of the strands are cleared.  The flag says that the group stands:
not where all 16 are in use, or where a commit cannot apply.  DEDUCED, log entry 113: both commits apply at once. -/
def State.combGroup (s : State) (c round : Nat) (m : Member) : State × Bool :=
  let rxs := m.ports.map (fun p => 4 * p + m.slot)
  let modes := s.memberModes m
  let s := if s.modesWait modes then s else (s.commitModes modes).strApply (modes.map (·.1))
  let used := fun (g : Nat) => s.pinCombs.any (fun x => x.1 == c && x.2.1 == g)
  let addr := fun (g : Nat) => F.MNS_COMB_GRP.addr + mnO (16 * c + g)
  let w := (rxs.mapIdx (fun i r => BitVec.ofNat 32 ((128 + r / 4 % 16 + 16 * (r % 4)) * 2 ^ (8 * i)))).foldl (· ||| ·) (0 : Word)
  let take := fun (s : State) (g : Nat) => ({ s with pinCombs := s.pinCombs ++ [(c, g, round)] }, true)
  let free := (List.range 16).filter (fun g => !used g)
  let mine := free.filter (fun g => (wordMembers c (s.live (addr g))).any rxs.contains)
  if s.modesDiffer modes then (s, false)
  else match mine ++ free with
    | [] => (s, false)
    | g :: _ =>
      if mine == [g] && s.live (addr g) == w then take s g
      else
        let gs := (g :: mine).eraseDups
        let insts := gs.map (16 * c + ·)
        let t := gs.foldl (fun (s : State) x => s.setShad (addr x) (if x = g then w else 0)) s
        let mem := rxs ++ gs.flatMap (fun x => wordMembers c (s.live (addr x)))
        if (mnsRules [c] t (t.capture 5 insts)).isSome || mem.any s.frozen then (s, false)
        else take (insts.foldl (fun (s : State) n => s.applyInst 5 n) (t.commit .module 5 insts (mnsRules [c]))) g

end Sys2Proof.Machine
end

