-- ==== Sys2Proof/Machine/Planner.lean ====
section
/-! DEFINITION. The poll planner's commands (R182 to R214): rounds, reads and polls that fall due, discovery sweeps and line
association, pins, and the PLN commit. -/
namespace Sys2Proof.Machine
open Sys2Proof

/-! ### Rounds -/

/-- The session's fields that a fixed round writes (R184, R190, R195, R201). -/
def State.memberCtx (s : State) (m : Member) (seq h : Nat) : State :=
  let k := m.req.session
  let s := (s.ctxPut k 0x052 2 seq h).ctxPut k 0x064 1 m.req.attempt h
  if m.req.request = 7 ∨ s.pinned k 3 then s
  else
    let w := match m.win with
      | some (f, n) => [BitVec.ofNat 8 (f + 128), BitVec.ofNat 8 ((f + n - 1) % 128)]
      | none => [(0 : Byte), 0]
    s.ctxUpdate k 0x050 w h

/-- A member joins its round (R193): its context is leased and its frame is built.  The flag says whether it could; one that could not
ends NOT_STARTED. -/
def State.memberStart (s : State) (round e : Nat) (m : Member) : State × Bool :=
  let k := m.req.session
  let c := m.ports.headD 0 / 16
  let h := if m.req.request = 7 then assocHolder else plannerOf c
  let guard := usTicks (100 * s.get F.PLN_TIMING_TA_GUARD)
  let seq := (s.ctxNum k 0x052 2 + 1) % 65536
  let x : Exch := {
    session := k, cord := c, ports := m.ports, slot := m.slot, cls := m.req.cls, attempt := m.req.attempt,
    request := m.req.request, seq := seq, mode := m.mode, block := m.block, round := round, step := 0,
    openAt := e + m.turn - guard, closeAt := e + m.turn + m.dp + m.ds + guard, blockRounds := 0, needAck := false,
    due := m.req.due, again := m.req.again, tx := [], txMode := m.txMode, wait := 0, heard := [], pollS := 0,
    missed := m.req.missed }
  let s := if s.waived m then s.raise Ev.WINDOW_WAIVED k else s
  let s := if m.req.request = 7 then
      { s with assocs := s.assocs.map (fun a => if a.session = k then { a with tries := a.tries + 1 } else a) }
    else s
  let s := if s.lostPoll m.req then
      { s with unrPoll := tset (fun _ => 0) s.unrPoll k (16 * s.tick + (m.ports.headD 0 + 1) % 16) }
    else s
  -- a combining group of the strands begins afresh (R172, R175), unless it serves another exchange
  let groups := x.strands.filterMap (fun r => match s.groupOf r with
    | some (g, ms) => if ms.any (fun y => (s.exchOfRx y.2).isSome) then none else some g
    | none => none)
  let s := { s with combs := s.combs.filter (fun (g : CombS) => !(g.cord == c && groups.contains g.group)) }
  let l := s.leaseTry k h
  let put := fun (s : State) (x : Exch) => { s with exchs := s.exchs ++ [x] }
  if !l.2 then (put s x, false)
  else
    let r := (l.1.memberCtx m seq h).buildReq m seq h
    match r.2 with
    | none => (put r.1 x, false)
    | some (mpdu, wait) =>
      (put r.1 { x with
        tx := mpdu, wait := wait, pollS := e - m.txMode.ticks true (88 + paddedLen (8 * mpdu.length + 6) m.txMode.coding) }, true)

/-- A pin conflict of a request's session is reported once (R209). -/
def State.pinReport (s : State) (k : Nat) : State :=
  if s.pinConflict k then
    if s.pinBad.contains k then s else { s with pinBad := s.pinBad ++ [k] }.raise Ev.PIN_CONFLICT k
  else { s with pinBad := s.pinBad.filter (· != k) }

/-- The PLAN message of a fixed round (R376, log entry 27). -/
def planBody (c : Nat) (r : Round) (ms : List Nat) : List Byte :=
  [(0 : Byte)] ++ le c 1 ++ le (r.ports.foldl (fun (n : Nat) p => n ||| 2 ^ (p % 16)) 0) 2 ++ le r.t0 8 ++ le r.e 8
    ++ ms.flatMap (fun k => le k 2)

/-- A round of ranked members is fixed (R192, R193, R198): combining groups are set up, each member starts, the modes of those that
could are committed together, and those that could not end NOT_STARTED. -/
def State.roundStart (s : State) (c : Nat) (ms : List Member) (e t0 : Nat) : State :=
  let n := s.roundNum + 1
  let g := ms.foldl (fun (x : State × List Member) m =>
    if m.comb then
      let r := x.1.combGroup c n m
      (r.1, x.2 ++ [if r.2 then m else { m with ports := x.1.withTriple (m.ports.headD 0), comb := false }])
    else (x.1, x.2 ++ [m])) (s, [])
  let s := g.1
  let ms := g.2
  let ports := (ms.flatMap s.roundPorts).eraseDups
  let r : Round := ⟨n, c, ports, t0, e, t0⟩
  let s := { s with
    roundNum := n, rounds := s.rounds ++ [r],
    planQ := s.planQ.filter (fun q => !ms.any (fun m => m.req == q)),
    roundSizes := (s.tick, 8 * c + ms.length) :: s.roundSizes.filter (fun x => decide (s.tick < x.1 + sTicks 60)) }
  let st := ms.foldl (fun (x : State × List Member × List Nat) m =>
    let y := x.1.memberStart n e m
    if y.2 then (y.1, x.2.1 ++ [m], x.2.2) else (y.1, x.2.1, x.2.2 ++ [m.req.session])) (s, [], [])
  let s := st.1.commitModes (st.2.1.flatMap st.1.memberModes)
  let s := st.2.2.foldl (fun (s : State) k => s.exchEnd k 9) s
  let s := if s.splOwnerUp then s.splSend 0x13 (planBody c r (ms.map (fun m => m.req.session))) else s
  s.roundOver n

/-- ROUND_FIX (R193): the planner of a cord fixes a round of the named requests, each a session and a class.  The round is
fixed when every request waits and can be served, on slots of its own, on ports that no round holds, when nothing that waits
for the same strand ranks before it, a discovery sweep that is due among that, when no earlier STR commit keeps the modes from being
committed, and when a round instant suits them all (R187, R192, R196, R197). -/
def execRoundFix (cord : Fin 9) (members : List (BitVec 16 × Fin 6)) (s : State) : Out := s.answer <|
  let c := cord.val
  let s := (List.range 9).foldl (fun s k => if s.instPending 6 k then s.applyInst 6 k else s) s
  let reqs := members.filterMap (fun m => s.planQ.find? (fun q => q.session == m.1.toNat && q.cls == m.2.val))
  let s := reqs.foldl (fun s q => s.pinReport q.session) s
  let ms := (reqs.map s.memberOf).foldl (fun (l : List Member) m => rankIn m l) []
  let others := (s.planQ.filter (fun q => !reqs.contains q && s.planCan c q)).map s.memberOf
  let better := others.any (fun x => ms.any (fun m =>
      x.slot == m.slot && (s.roundPorts x).any (s.roundPorts m).contains && x.before m))
    || ms.any (fun m => decide (4 < m.req.cls) && m.ports.any (fun p => s.sweepCan c p m.slot))
  let fits := reqs.length == members.length && decide (1 ≤ ms.length) && decide (ms.length ≤ 4)
    && decide ((ms.map (·.slot)).Nodup) && decide ((ms.map (·.req.session)).Nodup)
    && ms.all (fun m => s.planCan c m.req && (s.roundPorts m).all s.portFree) && !s.modesWait (ms.flatMap s.memberModes)
  -- each member is prefetched before the round is fixed (R229)
  let cold := (ms.map (fun m => m.req.session)).filter (fun k => !s.cached k)
  if !s.cordPlans c || !fits || better then .next s
  else if !cold.isEmpty then .next (cold.foldl (fun (s : State) k => s.prefetch k) s)
  else match s.roundTimes ms with
    | none => .next s
    | some (e, t0) => .next (s.roundStart c ms e t0)

/-- ROUND_DELAYED (R193): an STR commit has not applied by T0 − 0.1 ms, so the round, or the sweep's round, moves by one symbol of its
slowest member.  DESIGN CHOICE, log entry 114: EV115 gives the session of the first member, and of a sweep 0xFFFF. -/
def execRoundDelayed (cord : Fin 9) (s : State) : Out := s.answer <|
  let waits := fun (ports : List Nat) (t : Nat) => (ports.flatMap s.withTriple).any (fun p => s.instPending 4 (4 * p + t))
  let late := fun (r : Round) =>
    r.cord == cord.val && decide (r.t0 ≤ s.tick + 3840)
      && (s.exchs.any (fun e => e.round == r.num && e.step == 0 && waits e.ports e.slot)
        || s.sweeps.any (fun w => w.round == r.num && decide (s.tick < w.e) && waits w.ports w.slot))
  match s.rounds.find? late with
  | none => .next s
  | some r =>
    let xs := s.exchs.filter (fun e => e.round == r.num)
    let rates := xs.map (fun (e : Exch) => e.txMode.rate)
      ++ (s.sweeps.filter (fun w => w.round == r.num)).map (fun _ => s.joinMode.rate)
    let d := rates.foldl (fun (n : Nat) i => max n (symTicks true i)) 0
    let s := { s with
      rounds := s.rounds.map (fun (x : Round) =>
        if x.num = r.num then { x with t0 := x.t0 + d, e := x.e + d, start := x.start + d } else x),
      exchs := s.exchs.map (fun (e : Exch) =>
        if e.round = r.num then { e with openAt := e.openAt + d, closeAt := e.closeAt + d, pollS := e.pollS + d } else e),
      sweeps := s.sweeps.map (fun (w : Sweep) => if w.round = r.num then { w with e := w.e + d, ends := w.ends + d } else w) }
    .next (s.raise Ev.ROUND_DELAYED ((xs.head?.map (fun (e : Exch) => e.session)).getD 0xFFFF))

/-- The blocks of an exchange that are still failed, as a map (R137, R184). -/
def State.failedBlocks (s : State) (e : Exch) : Nat :=
  match s.blockStore.find? (fun b => e.strands.contains b.rx) with
  | some b => (List.range 8).foldl (fun (m : Nat) k => if b.blocks.any (fun x => x.1 == k) then m else m + 2 ^ k) 0
  | none => 255

/-- The frame that an exchange owes: BLOCK_REQ or ACK (R183, R203). -/
def State.laterFrame (s : State) (e : Exch) : List Byte :=
  if e.step = 6 then
    plainMpdu 10 e.session 0 (exchHeader 5 e.mode true false (s.failedBlocks e) e.seq)
  else plainMpdu 11 e.session 0 (exchHeader 0 e.mode e.block false 127 e.seq)

/-- LATER_FRAMES_SEND (R183, R192): every step 2 and step 4 frame of the round has ended, so its BLOCK_REQ and ACK frames are
planned together, end-aligned, 2 ms ahead (log entry 28).  They wait while a window that follows would contain a restart of its
chains (R197). -/
def execLaterFramesSend (cord : Fin 9) (s : State) : Out := s.answer <|
  let ready := fun (r : Round) =>
    let xs := s.exchs.filter (fun e => e.round == r.num)
    r.cord == cord.val && !xs.isEmpty && xs.all (fun e => e.step == 6 || e.step == 7)
  match s.rounds.find? ready with
  | none => .next s
  | some r =>
    let xs := s.exchs.filter (fun e => e.round == r.num)
    let len := fun (e : Exch) => s.frameTicks ((e.strands).headD 0) e.txMode (s.laterFrame e).length
    let longest := xs.foldl (fun (n : Nat) e => max n (len e)) 0
    let t0 := s.tick + msTicks 2
    let en := t0 + longest
    let guard := usTicks (100 * s.get F.PLN_TIMING_TA_GUARD)
    let next := fun (e : Exch) =>
      let turn := s.ctxNum e.session 0x04C 4
      let q := (e.strands).headD 0
      let d := e.mode.ticks true (s.preBits q) + e.mode.ticks true (s.syncLen q)
      if e.step = 6 then
        { e with step := 3, tx := s.laterFrame e, blockRounds := e.blockRounds + 1, openAt := en + turn - guard,
                 closeAt := en + turn + d + guard }
      else { e with step := 5, tx := s.laterFrame e }
    let clear := xs.all (fun e =>
      let x := next e
      x.step != 3 || x.strands.all (fun q => s.winClear r.ports q x.openAt x.closeAt))
    if !clear then .next s
    else .next { xs.foldl (fun (s : State) e => s.agentTouch e.session) s with
      exchs := s.exchs.map (fun e => if e.round = r.num then next e else e),
      rounds := s.rounds.map (fun x => if x.num = r.num then { x with t0 := t0, e := en } else x) }

/-! ### What falls due -/

/-- An ACTIVE line session. -/
def State.lineActive (s : State) (k : Nat) : Bool := (s.slot k).st == 2 && !(s.slot k).radio && k != 0

/-- A request joins what waits for a round. -/
def State.planAdd (s : State) (k cls request due : Nat) : State :=
  { s with planQ := s.planQ ++ [(⟨k, cls, request, 1, due, false, false⟩ : PReq)] }

/-- A cyclic read of session `k` waits or is under way. -/
def State.readOn (s : State) (k : Nat) : Bool :=
  s.planQ.any (fun q => q.session == k && (q.cls == 2 || q.cls == 3))
    || s.exchs.any (fun e => e.session == k && (e.cls == 2 || e.cls == 3))
    || s.lateEnds.any (fun x => x.1.session == k && (x.1.cls == 2 || x.1.cls == 3))

/-- READ_DUE (R189). -/
def execReadDue (sess : BitVec 16) (s : State) : Out := s.answer <|
  let k := sess.toNat
  let due := s.ctxNum k 0x054 8
  if s.lineActive k && s.reach k != 2 && decide (due ≤ s.tick) && !s.readOn k then
    .next (s.planAdd k (if (s.slot k).prio then 2 else 3) 0 due)
  else .next s

/-- READ_OVERDUE (R189, R204): a read not served one `INTERVAL` after it fell due is missed. -/
def execReadOverdue (sess : BitVec 16) (s : State) : Out := s.answer <|
  let k := sess.toNat
  let h := s.servant k
  let late := fun (q : PReq) => q.session == k && (q.cls == 2 || q.cls == 3) && !q.missed
    && decide (q.due + s.intervalOf k ≤ s.tick)
  if !s.planQ.any late then .next s
  else
    let l := s.leaseTry k h
    if !l.2 then .next (s.leaseAsk k h)
    else
      let s := { l.1 with planQ := s.planQ.map (fun q => if late q then { q with missed := true } else q) }
      let n := min 255 (s.ctxNum k 0x04A 1 + 1)
      let s := s.ctxPut k 0x04A 1 n h
      let s : State := if s.overdue.contains k then s else { s with overdue := s.overdue ++ [k] }.raise Ev.READ_OVERDUE k
      .next (if s.lostNow k n then s.goLost k h else s)

/-- PLAN_OVERLOAD (R214): the cord holds reads overdue for more than one `INTERVAL` of group 0; the source is the session
whose read is oldest (log entry 29).  DESIGN CHOICE, log entry 130: it counts from the due time. -/
def execPlanOverload (cord : Fin 9) (s : State) : Out := s.answer <|
  let iv := sTicks (60 * s.get F.PLN_GRP_A_INTERVAL)
  let old := s.planQ.filter (fun q => (q.cls == 2 || q.cls == 3) && s.cordOf q.session == cord.val
    && decide (q.due + iv < s.tick))
  match old with
  | [] => .next { s with overload := s.overload.filter (· != cord.val) }
  | q :: t =>
    if s.overload.contains cord.val then .next s
    else
      let k := (t.foldl (fun (b : PReq) x => if x.due < b.due then x else b) q).session
      .next ({ s with overload := s.overload ++ [cord.val] }.raise Ev.PLAN_OVERLOAD k)

/-- UNREACHABLE_POLL_DUE (R204). -/
def execUnreachablePollDue (sess : BitVec 16) (s : State) : Out := s.answer <|
  let k := sess.toNat
  let last := tget (fun _ => 0) s.unrPoll k / 16
  if s.lineActive k && s.reach k == 2 && !s.readOn k
      && (last == 0 || decide (last + sTicks (s.get F.PLN_DISC_PERIOD) ≤ s.tick)) then
    .next (s.planAdd k 3 0 s.tick)
  else .next s

/-- PHASE_POLL_DUE (R204, R211): hours between phase polls of a session whose confidence is below HIGH; an UNREACHABLE one is polled in
class 3 alone. -/
def execPhasePollDue (sess : BitVec 16) (s : State) : Out := s.answer <|
  let k := sess.toNat
  let iv := s.get F.PLN_PHASE_INTERVAL
  let last := tget (fun _ => 0) s.phaseAt k
  if s.lineActive k && s.reach k != 2 && iv != 0 && decide (s.ctxNum k 0x080 1 / 16 % 4 < 3) && decide (last + sTicks (3600 * iv) ≤ s.tick)
      && !s.planQ.any (fun q => q.session == k && q.cls == 5) then
    .next ({ s with phaseAt := tset (fun _ => 0) s.phaseAt k s.tick }.planAdd k 5 2 s.tick)
  else .next s

/-! ### Discovery and association -/

/-- Where the reply slots of the next sweep of slot `t` on `ports` are kept (R206). -/
def sweepKey (t : Nat) (ports : List Nat) : Nat :=
  (ports.headD 0 / 16 * 65536 + ports.foldl (fun (n : Nat) p => n ||| 2 ^ (p % 16)) 0) * 4 + t

/-- DISCOVERY_SWEEP_DUE (R187, R193, R197, R205): a sweep of one slot on a set of ports of one cord, as one round.  It waits while a
request of a lower class could have the same strand, while an earlier STR commit keeps its mode from being committed, and while a
restart would fall in a reply slot.  DESIGN CHOICE, log entry 131: the first sweep of a slot and port set has `SLOTS_MIN` slots. -/
def execDiscoverySweepDue (cord : Fin 9) (slot : Fin 4) (mask : BitVec 16) (s : State) : Out := s.answer <|
  let c := cord.val
  let t := slot.val
  let ports := ((List.range 16).filter (fun j => mask.getLsbD j)).map (16 * c + ·)
  let all := (ports.flatMap s.withTriple).eraseDups
  let modes := all.map (fun p => (4 * p + t, s.joinMode, s.joinMode))
  let before := s.planQ.any (fun q => decide (q.cls < 4) && s.planCan c q
    && (let x := s.memberOf q; x.slot == t && (s.roundPorts x).any all.contains))
  if !s.cordPlans c || ports.isEmpty || !ports.all (fun p => s.sweepCan c p t) || before || s.modesWait modes then .next s
  else
    let m := s.joinMode
    let r0 := 4 * ports.headD 0 + t
    let guard := usTicks (100 * s.get F.PLN_TIMING_TA_GUARD)
    let gap := usTicks (100 * s.get F.PLN_TIMING_GAP)
    let free := all.foldl (fun (n : Nat) p => max n (tget (fun _ => 0) s.roundEnd p + gap)) 0
    let t0 := max (s.tick + msTicks 2) free
    let e := t0 + s.frameTicks r0 m 20
    let join := s.frameTicks r0 m 28 + 2 * guard
    let slotLen := (join + msTicks 1 - 1) / msTicks 1 * msTicks 1
    let n0 := tget (fun _ => 0) s.sweepSize (sweepKey t ports)
    let n := if n0 = 0 then s.get F.PLN_DISC_SLOTS_MIN else n0
    let num := (s.sweepNum + 1) % 65536
    let rn := s.roundNum + 1
    let w : Sweep := ⟨c, t, ports, num, n, [], [], [], e, slotLen, e + msTicks 10 + n * slotLen, rn⟩
    if !ports.all (fun p => s.winClear all (4 * p + t) (e + msTicks 10 : Nat) w.ends) then .next s
    else
      let s := { s with
        sweepNum := num, sweeps := s.sweeps ++ [w], roundNum := rn, rounds := s.rounds ++ [(⟨rn, c, all, t0, e, t0⟩ : Round)] }
      .next (s.commitModes modes)

/-- The session in use whose stored EUI is `eui` (R208). -/
def State.sesOfEui (s : State) (eui : Nat) : Option Nat :=
  (s.slots.find? (fun e => e.1 != 0 && (e.2.st == 1 || e.2.st == 2) && s.euiOf e.1 == eui)).map (·.1)

/-- The lowest free address at or above `ADDR_BASE` (R208). -/
def State.freeAddr (s : State) : Option Nat :=
  let b := max 1 (s.get F.PLN_ASSOC_ADDR_BASE)
  (List.range' b (0xFFFE - b)).find? (fun k => !s.slotUsed k)

/-- The line sessions whose first port is `p` and whose slot is `t` (R208). -/
def State.slotLoad (s : State) (p t : Nat) : Nat :=
  (s.slots.filter (fun e => e.1 != 0 && (e.2.st == 1 || e.2.st == 2) && !e.2.radio && (s.portsOf e.1).head? == some p
    && s.ctxNum e.1 0x041 1 / 16 % 4 == t)).length

/-- The strand slot of a new meter on its first port (R208). -/
def State.chooseSlot (s : State) (p rate : Nat) : Nat :=
  let best := (List.range 4).foldl (fun (n : Nat) t => max n (s.slotMax p t)) 0
  let want := min rate best
  let can := (List.range 4).filter (fun t => (s.slotRates p t).any (fun i => decide (want ≤ i)))
  can.foldl (fun (b : Nat) t => if s.slotLoad p t < s.slotLoad p b then t else b) (can.headD 0)

/-- The context image of a slot opened as PROVISIONAL (R208, R225, R226). -/
def State.newImage (s : State) (k eui ver : Nat) (radio : Bool) (place : Nat) (ports : List Nat) (mode : Nat) (turn : Nat) :
    List Byte :=
  let z := List.replicate 2048 (0 : Byte)
  let ps : List (Nat × List Byte) := [
    (0x000, [1]), (0x001, le (if radio then 2 else 0) 1), (0x002, le ver 1), (0x003, [1]), (0x008, le eui 8),
    (0x018, le s.tick 8), (0x028, le k 2), (0x041, le place 1), (0x042, ports.flatMap (fun p => le (128 + p % 16) 1)),
    (0x046, le mode 1), (0x04C, le turn 4), (0x202, if radio then le 0xFFFE 2 else [])]
  ps.foldl (fun l x => patch l x.1 x.2) z

/-- Opens slot `k` as PROVISIONAL with an image, under the lease of holder `h` (R208, R282), but not in cache-only mode (R249); the flag
says that the cache had room. -/
def State.openSlot (s : State) (k h : Nat) (img : List Byte) : State × Bool :=
  let a := s.allocEntry k
  if s.cacheOnly || !a.2 then (s, false)
  else
    let s := a.1.onCache k (fun e => { e with filled := true })
    let s := { s with ctx := tsplice (2048 * k) (2048 * k + 2048) [] s.ctx, replied := tset (fun _ => 0) s.replied k 0 }
    let l := s.leaseTry k h
    if !l.2 then (s, false)
    else
      let s := l.1.onSlot k (fun x => { x with st := 1, prio := false, radio := (img.getD 1 0).getLsbD 1 })
      (s.ctxUpdate k 0 img h [] 1, true)

/-- Releases a PROVISIONAL slot (R208, R282, R215). -/
def State.slotFree (s : State) (k h : Nat) : State :=
  let l := s.leaseTry k h
  let s := if l.2 then l.1.ctxUpdate k 0 [0, 0] h [] 2 else s
  s.slotGone k

/-- A JOIN of a sweep is answered (R207, R208). -/
def State.joinAnswer (s : State) (w : Sweep) (j : JoinS) : State :=
  let min' : Int := 2 * s.get F.PLN_COMB_JOIN_MIN_SNR
  let ports := ((bestFirst j.heard).filter (fun x => decide (min' ≤ x.2))).take 4
  if s.refused.any (fun x => x.1 == j.eui && decide (s.tick < x.2)) then s
  else if j.ver < s.get F.PLN_KLP_FLOOR then
    let hold := s.tick + sTicks (60 * s.get F.PLN_ASSOC_REFUSE_HOLD)
    { s with refused := s.refused ++ [(j.eui, hold)] }.raise Ev.ASSOC_REFUSED 0xFFFE
  else match ports with
    | [] => s
    | (p, _) :: _ =>
      let slot := s.chooseSlot p (j.caps % 8)
      let ver := min j.ver (s.get F.PLN_KLP_MAX)
      let go := fun (s : State) (k : Nat) (opened : Bool) =>
        let a : Assoc := ⟨k, w.num, 0, opened, j.eui, ver, 3840 * j.turn, ports, slot, w.slot, s.joinMode⟩
        { s with
          assocs := s.assocs.filter (fun x => x.session != k) ++ [a],
          planQ := s.planQ.filter (fun q => !(q.session == k && q.request == 7))
            ++ [(⟨k, 4, 7, 1, s.tick, false, false⟩ : PReq)] }
      match s.sesOfEui j.eui with
      | some k => go s k (((s.assocs.find? (fun a => a.session == k)).map (·.opened)).getD false)
      | none => match s.freeAddr with
        | none => s.raise Ev.ASSOC_FULL (j.eui % 65536)
        | some k =>
          let img := s.newImage k j.eui ver false (w.cord + 16 * slot) (ports.map (·.1)) s.joinMode.byte (3840 * j.turn)
          let r := s.openSlot k assocHolder img
          if r.2 then
            let s := ports.foldl (fun s x => { s with portSnr := tset (fun _ => 0) s.portSnr (16 * k + x.1 % 16) (x.2 + 4096).toNat }) r.1
            go s k true
          else s

/-- SWEEP_END (R206 to R208): the sweep's slots have ended; JOINs are answered and the next sweep's S is set.  DESIGN CHOICE, log entry
114: EV114, which concerns no session, gives 0xFFFF. -/
def execSweepEnd (cord : Fin 9) (s : State) : Out := s.answer <|
  match s.sweeps.find? (fun w => w.cord == cord.val && decide (w.ends ≤ s.tick)) with
  | none => .next s
  | some w =>
    if s.roleWaits assocHolder then .next s else
    let collided := (w.used.filter (fun j => !w.good.contains j)).length
    let mx := s.get F.PLN_DISC_SLOTS_MAX
    let grow := decide (w.slots ≤ 4 * collided)
    let n := if grow then min mx (2 * w.slots)
      else if 10 * w.used.length < w.slots then max (s.get F.PLN_DISC_SLOTS_MIN) (w.slots / 2) else w.slots
    let s := s.raiseIf (grow && decide (mx ≤ w.slots)) Ev.DISC_SLOTS_MAX 0xFFFF
    let s := { s with
      sweeps := s.sweeps.erase w, sweepSize := tset (fun _ => 0) s.sweepSize (sweepKey w.slot w.ports) n,
      sweepAt := w.ports.foldl (fun t p => tset (fun _ => 0) t (4 * p + w.slot) s.tick) s.sweepAt }
    let s := s.lineUsed w.cord 4 w.ports w.round
    .next ((w.joins.foldl (fun s j => s.joinAnswer w j) s).roundOver w.round)

/-- ASSOC_REFUSE_HOLD_END (R207). -/
def execAssocRefuseHoldEnd (s : State) : Out := s.answer <|
  .next { s with refused := s.refused.filter (fun x => decide (s.tick < x.2)) }

/-- ASSIGN_TRIES_EXHAUSTED (R208): after the last try without an accepted ACK the provisional slot is released. -/
def execAssignTriesExhausted (sess : BitVec 16) (s : State) : Out := s.answer <|
  let k := sess.toNat
  match s.assocs.find? (fun a => a.session == k) with
  | none => .next s
  | some a =>
    let busy := s.exchs.any (fun e => e.session == k) || s.planQ.any (fun q => q.session == k && q.request == 7)
    if busy || decide (a.tries < s.get F.PLN_ASSOC_ASSIGN_TRIES) then .next s
    else
      let s := { s with assocs := s.assocs.filter (fun x => x.session != k) }
      .next (if a.opened then s.slotFree k assocHolder else s)

/-! ### Pins -/

/-- The pins of `PLN_PIN_STAT` show session `k`. -/
def State.pinShow (s : State) (k : Nat) : State :=
  ((s.put F.PLN_PIN_STAT_PINNED 0 (s.ctxNum k 0x04B 1 % 32)).putB F.PLN_PIN_STAT_CONFLICT 0 (s.pinConflict k)).putB
    F.PLN_PIN_STAT_BUSY 0 s.pinCmd.isSome

/-- Pins of session `k` are written under its planner's lease (R209). -/
def State.pinApply (s : State) (c : PinCmd) (h : Nat) : State :=
  let k := c.session
  let s := { s with pinCmd := none }
  if c.clear then
    let s := (s.ctxPut k 0x04B 1 0 h)
    let s := { s with pinCords := s.pinCords.filter (· != k), pinBad := s.pinBad.filter (· != k) }
    s.pinShow k
  else
    let kind := fun b => c.kinds.testBit b
    let cord := F.PLN_PIN_PLACE_CORD.of c.place
    let mask := F.PLN_PIN_PLACE_PORT_MASK.of c.place
    let far := kind 0 && cord != s.cordOf k
    let s := if kind 0 then
        { s.setPorts k h (((List.range 16).filter (fun j => mask.testBit j)).map (16 * cord + ·)) with
          pinCords := s.pinCords.filter (· != k) ++ (if far then [k] else []) }
      else s
    let pl := s.ctxNum k 0x041 1
    let s := if kind 1 then s.ctxPut k 0x041 1 (pl % 16 + 16 * F.PLN_PIN_PLACE_SLOT.of c.place + pl / 64 * 64) h else s
    let s := if kind 2 then s.ctxPut k 0x046 1 (c.mode.toNat % 64) h else s
    let s := if kind 3 then
        s.ctxUpdate k 0x050 [BitVec.ofNat 8 (128 + F.PLN_PIN_MODE_WIN_FIRST.of c.mode),
          BitVec.ofNat 8 (F.PLN_PIN_MODE_WIN_LAST.of c.mode)] h
      else s
    let s := s.ctxPut k 0x04B 1 (s.ctxNum k 0x04B 1 ||| c.kinds) h
    (s.pinReport k).pinShow k

/-- A waiting pin command runs once its lease is granted. -/
def State.pinServe (s : State) : State :=
  match s.pinCmd with
  | none => s
  | some c =>
    let h := plannerOf (s.cordOf c.session)
    if s.leasedBy c.session h then s.pinApply c h else s

/-- A pin command starts: at once under the planner's lease, or when that is granted; a slot without an accessible line
session takes none. -/
def State.pinStart (s : State) (c : PinCmd) : State :=
  let st := (s.slot c.session).st
  if st = 0 ∨ st = 3 ∨ (s.slot c.session).radio ∨ s.pinCmd.isSome then s.pinShow c.session
  else
    let h := plannerOf (s.cordOf c.session)
    let l := s.leaseTry c.session h
    if l.2 then l.1.pinApply c h
    else ({ s with pinCmd := some c }.leaseAsk c.session h).putB F.PLN_PIN_STAT_BUSY 0 true

/-- PLN_PIN_SET (R209, R213). -/
def execPlnPinSet (i : Iface) (w : Word) (s : State) : Out := s.answer <|
  let s := s.wlogNote i F.PLN_PIN_CMD.addr w
  let kinds := F.PLN_PIN_CMD_SET.of w
  if kinds = 0 then .next s
  else .next (s.pinStart ⟨s.get F.PLN_PIN_SESSION_SESSION, false, kinds, s.live F.PLN_PIN_PLACE.addr, s.live F.PLN_PIN_MODE.addr⟩)

/-- PLN_PIN_CLEAR_ALL (R213). -/
def execPlnPinClearAll (i : Iface) (w : Word) (s : State) : Out := s.answer <|
  let s := s.wlogNote i F.PLN_PIN_CMD.addr w
  if F.PLN_PIN_CMD_CLEAR_ALL.on w then .next (s.pinStart ⟨s.get F.PLN_PIN_SESSION_SESSION, true, 0, 0, 0⟩) else .next s

/-- PLN_PIN_READ (R213): the session's present choices are loaded into the pin registers. -/
def execPlnPinRead (i : Iface) (w : Word) (s : State) : Out := s.answer <|
  let s := s.wlogNote i F.PLN_PIN_CMD.addr w
  if !F.PLN_PIN_CMD_READ.on w then .next s
  else
    let k := s.get F.PLN_PIN_SESSION_SESSION
    let mask := (s.portsOf k).foldl (fun (m : Nat) p => m ||| 2 ^ (p % 16)) 0
    let pl := s.ctxNum k 0x041 1
    let s := ((s.put F.PLN_PIN_PLACE_PORT_MASK 0 mask).put F.PLN_PIN_PLACE_CORD 0 (s.cordOf k)).put F.PLN_PIN_PLACE_SLOT 0
      (pl / 16 % 4)
    let m := modeOf (s.ctxNum k 0x046 1)
    let s := ((s.put F.PLN_PIN_MODE_RATE 0 m.rate).put F.PLN_PIN_MODE_LEVELS 0 m.levels).put F.PLN_PIN_MODE_CODING 0 m.coding
    let s := (s.put F.PLN_PIN_MODE_WIN_FIRST 0 (s.ctxNum k 0x050 1 % 128)).put F.PLN_PIN_MODE_WIN_LAST 0 (s.ctxNum k 0x051 1 % 128)
    .next (s.pinShow k)

/-! ### The PLN commit -/

/-- The rules of a PLN commit over its instances (R212): groups 0 to 7, 8 for `PLN_RATE`, 9 for the limits. -/
def plnRules (insts : List Nat) (s : State) (cells : List (Nat × Word)) : Option (Nat × Nat) :=
  let view := s.after cells
  let groups := insts.filter (· < 8)
  let per := fun (f : Nat → Bool) (r : Nat) => groups.map (fun g => (f g, r, g))
  let band := fun (lo hi : Nat) => (List.range 576).all (fun x =>
    !s.bit F.STR_TONE_SPACING_EN (rxO x)
      || (let g := toneGroup s.live x
          decide ((80 * lo : Nat) ≤ g.2.1) && decide (g.2.2 ≤ (80 * hi : Nat))))
  let lo := F.PLN_BAND_LOW_KHZ.afterOf view 0
  let hi := F.PLN_BAND_HIGH_KHZ.afterOf view 0
  let legal := insts.all (fun k => (rwsAddrs 6 k).all (fun a => a == F.PLN_BAND.addr || shadowLegal a (view a)))
  let lim := insts.contains 9
  firstFail (
    per (fun g => decide (F.PLN_GRP_B_MIN_RATE.afterOf view (grpO g) ≤ F.PLN_GRP_B_MAX_RATE.afterOf view (grpO g))) 0x60
    ++ per (fun g => F.PLN_GRP_B_ALLOW_CODING.afterOf view (grpO g) != 0) 0x61
    ++ [(!insts.contains 8 || decide (F.PLN_RATE_DOWN_DB.afterOf view 0 < F.PLN_RATE_UP_DB.afterOf view 0), 0x62, 0),
        (legal, 0x63, 0), (!s.commitPending 6, 0x64, 0),
        (!lim || decide (F.PLN_KLP_FLOOR.afterOf view 0 ≤ F.PLN_KLP_MAX.afterOf view 0), 0x65, 0),
        (!lim || (decide (3 ≤ lo) && decide (lo < hi) && decide (hi ≤ 490)), 0x66, 0),
        (!lim || band lo hi, 0x67, 0)])

/-- The instances that a written `PLN_COMMIT` names. -/
def plnInsts (w : Word) : List Nat :=
  (List.range 8).filter (fun g => (F.PLN_COMMIT_GROUPS.of w).testBit g) ++ (if F.PLN_COMMIT_RATE.on w then [8] else [])
    ++ (if F.PLN_COMMIT_LIMITS.on w then [9] else [])

/-- A write of `PLN_COMMIT` (R212). -/
def State.plnCommit (s : State) (i : Iface) (w : Word) : State :=
  (s.wlogNote i F.PLN_COMMIT.addr w).commit i 6 (plnInsts w) (plnRules (plnInsts w))

/-- PLN_COMMIT_GROUPS (R212). -/
def execPlnCommitGroups (i : Iface) (w : Word) (s : State) : Out := s.answer <| .next (s.plnCommit i w)

/-- PLN_COMMIT_RATE (R212). -/
def execPlnCommitRate (i : Iface) (w : Word) (s : State) : Out := s.answer <|
  .next (s.plnCommit i w)

/-- PLN_COMMIT_LIMITS (R212). -/
def execPlnCommitLimits (i : Iface) (w : Word) (s : State) : Out := s.answer <|
  .next (s.plnCommit i w)

/-- PLN_COMMIT_APPLY (R212): the planners apply groups and `PLN_RATE` before the next round. -/
def execPlnCommitApply (s : State) : Out := s.answer <|
  .next ((List.range 9).foldl (fun s k => if s.instPending 6 k then s.applyInst 6 k else s) s)

/-- PLN_LIMITS_APPLY (R212): no round is fixed on any cord and no radio frame is being sent or received. -/
def execPlnLimitsApply (s : State) : Out := s.answer <|
  let radio := (List.range 32).any (fun n => s.frozen (576 + n) || (s.rx (576 + n)).txOn)
  if s.instPending 6 9 && s.rounds.isEmpty && !radio then .next (s.applyInst 6 9) else .next s

end Sys2Proof.Machine
end

