-- ==== Sys2Proof/Machine/Fabric.lean ====
section
/-! DEFINITION. The module as a node of the Braid fabric (R382 to R385): its node id, which direction reaches a node, and how a
message is framed and queued for a port. -/
namespace Sys2Proof.Machine
open Sys2Proof

/-- The module's node id (R382, R387). -/
def State.nodeId (s : State) : Nat := s.get F.BRD_STATUS_NODE_ID

/-- Byte offset of port `p`'s status register: 0 east, 1 west. -/
def bpO (p : Nat) : Nat := 4 * p

/-! ### A link: 0 Splice, 1 Braid east, 2 Braid west -/

/-- Link `l` beside its registers. -/
def State.link (s : State) (l : Nat) : LinkS := tget (fun _ => LinkS.init) s.links l

/-- The state with link `l` changed by `f`. -/
def State.onLink (s : State) (l : Nat) (f : LinkS → LinkS) : State :=
  { s with links := tset (fun _ => LinkS.init) s.links l (f (s.link l)) }

/-- The link state that a register shows (R398, R400). -/
def State.linkSt (s : State) (l : Nat) : Nat :=
  if l = 0 then s.get F.SPL_STATUS_LINK else s.get F.BRD_PORT_STAT_LINK (bpO (l - 1))

/-- The state with the shown link state set. -/
def State.setLinkSt (s : State) (l v : Nat) : State :=
  if l = 0 then s.put F.SPL_STATUS_LINK 0 v else s.put F.BRD_PORT_STAT_LINK (bpO (l - 1)) v

/-! ### A ring port -/

/-- The ring port is UP, or counts as not down around a cutover of its neighbour (R394, R395). -/
def State.brdUp (s : State) (p : Nat) : Bool :=
  s.get F.BRD_PORT_STAT_LINK (bpO p) == 2 || decide (s.tick < (tget (fun _ => LinkS.init) s.links (p + 1)).noDownTo)

/-- The version from which a message type exists (R384), 0 = v1. -/
def brdVer (kind : Nat) : Nat := if kind = 0x23 ∨ kind = 0x24 then 2 else if kind = 0x25 then 1 else 0

/-- A message of a type can leave on port `p`: it is UP and its hop's version has the type (R369). -/
def State.brdTakes (s : State) (p kind : Nat) : Bool := s.brdUp p && decide (brdVer kind ≤ s.get F.BRD_PORT_STAT_VERSION (bpO p))

/-- The priority of a message type, 0 first (R384). -/
def brdPrio (kind : Nat) : Nat := match kind with
  | 0x25 => 1
  | 0x26 => 2
  | 0x27 => 3
  | _ => 0

/-- The header of a Braid message (R383). -/
def brdHdr (kind flags dst src hops seq : Nat) : List Byte :=
  le kind 1 ++ le flags 1 ++ le dst 1 ++ le src 1 ++ le hops 1 ++ [0] ++ le seq 2

/-- Queues a message for port `p`.  The queue always has space (DESIGN CHOICE, log entry 55: R384 gives it no length). -/
def State.brdQueue (s : State) (p : Nat) (m : List Byte) : State :=
  { s with brdOut := s.brdOut ++ [(p, (⟨(m.headD 0).toNat, 0, s.tick, m⟩ : Msg))] }

/-- The hops to node `n` in a direction of the present topology; 0 when that direction does not reach it. -/
def State.brdHops (s : State) (p n : Nat) : Nat :=
  if s.get F.BRD_NODE_TBL_LO_VALID (8 * n) = 0 then 0
  else if p = 0 then s.get F.BRD_NODE_TBL_LO_HOPS_E (8 * n) else s.get F.BRD_NODE_TBL_LO_HOPS_W (8 * n)

/-- The port on which a unicast of a type leaves for node `n` (R385): the direction of fewer hops, east on a tie, the other one
where a direction does not serve. -/
def State.brdRoute (s : State) (kind n : Nat) : Option Nat :=
  let ok := fun p => s.brdHops p n != 0 && s.brdTakes p kind
  if n = s.nodeId then none
  else if ok 0 && (!ok 1 || decide (s.brdHops 0 n ≤ s.brdHops 1 n)) then some 0
  else if ok 1 then some 1 else none

/-- Sends a unicast (R385); the flag says that a direction reaches the node. -/
def State.brdSend (s : State) (kind n : Nat) (content : List Byte) : State × Bool :=
  match s.brdRoute kind n with
  | some p => (s.brdQueue p (brdHdr kind 0 n s.nodeId 64 0 ++ content), true)
  | none => (s, false)

/-- Sends a broadcast (R385): eastward, or westward when the east port is down. -/
def State.brdCast (s : State) (kind : Nat) (content : List Byte) : State :=
  let nodes := s.get F.BRD_STATUS_NODES
  let q := (s.brdSeq + 1) % 65536
  let s := { s with brdSeq := q }
  let m := brdHdr kind 1 0 s.nodeId (min 127 (2 * (nodes - 1))) q ++ content
  if nodes ≤ 1 then s
  else if s.brdTakes 0 kind then s.brdQueue 0 m
  else if s.brdTakes 1 kind then s.brdQueue 1 m else s

end Sys2Proof.Machine
end

