-- ==== Sys2Proof/Machine/RadioBase.lean ====
section
/-! DEFINITION. What the radio coordinator works with (R258 to R286): channels and hopping, slot times, the air time of a
frame and its limits, head scripts and gain entries, pairs, and the radio area of a session's context. -/
namespace Sys2Proof.Machine
open Sys2Proof

/-- The state with the radio coordinator changed by `f`. -/
def State.onMac (s : State) (f : MacS → MacS) : State := { s with mac := f s.mac }

/-! ### Air time -/

/-- The air time of a frame of `n` bytes on receiver `r`, in ticks, from its ramp-up to the end of its ramp-down (R268). -/
def State.airTicks (s : State) (r : Nat) (m : Mode) (n : Nat) : Nat := s.frameTicks r m n + symTicks false m.rate / 2

/-- Microseconds of a tick count. -/
def ticksUs (t : Nat) : Nat := t * 10 / 384

/-- A frame of `n` bytes fits the uplink limit of R268. -/
def State.fitsUp (s : State) (r : Nat) (m : Mode) (n : Nat) : Bool :=
  decide (2 * s.guardTicks + s.airTicks r m n + s.rtaTicks ≤ s.p2Ticks)

/-- A frame of `n` bytes fits the responder limit of R268. -/
def State.fitsDown (s : State) (r : Nat) (m : Mode) (n : Nat) : Bool :=
  decide (s.airTicks r m n + halfMs + s.p2Ticks ≤ s.slotLen)

/-- `MAX_UP` of receiver `r` (R268): the largest secured payload, in units of 8 bytes, at rate 1/2. -/
def State.maxUp (s : State) (r : Nat) : Nat :=
  ((List.range 128).filter (fun u => s.fitsUp r (s.chanMode r 0) (22 + 8 * u))).foldl max 0

/-- Air time added to buckets of `width` ticks, from bucket `b` on, for an interval of ticks (R279). -/
def airAdd (key width lo hi b : Nat) (l : List Air) : Nat → List Air
  | 0 => l
  | n + 1 =>
    let a := max lo (b * width)
    let e := min hi ((b + 1) * width)
    let us := ticksUs e - ticksUs a
    let l := if e ≤ a ∨ us = 0 then l
      else if l.any (fun x => x.key == key && x.bucket == b) then
        l.map (fun (x : Air) => if x.key == key && x.bucket == b then { x with us := x.us + us } else x)
      else (⟨key, b, us⟩ : Air) :: l
    airAdd key width lo hi (b + 1) l n

/-- The sum of the buckets of a key that overlap an interval of ticks (R280). -/
def airSum (key width : Nat) (lo hi : Int) (l : List Air) : Nat :=
  ((l.filter (fun x => x.key == key && decide (lo < ((x.bucket + 1) * width : Nat)) && decide (((x.bucket * width : Nat) : Int) ≤ hi))).map
    (·.us)).foldl (· + ·) 0

/-- Ticks of a dwell bucket and of a duty bucket (R279). -/
def dwellWidth : Nat := 3840000
/-- See `dwellWidth`. -/
def dutyWidth : Nat := 2304000000

/-- The sub-bands in use that hold a frequency (R279). -/
def State.subBands (s : State) (hz : Int) : List Nat :=
  (List.range 8).filter (fun k =>
    let lo : Int := 1000 * s.get F.MAC_SUBBAND_A_LOW_KHZ (8 * k)
    s.get F.MAC_SUBBAND_B_DUTY (8 * k) != 0 && decide (lo ≤ hz)
      && decide (hz ≤ lo + 25000 * s.get F.MAC_SUBBAND_B_WIDTH (8 * k)))

/-- The limit of sub-band `k` in microseconds per hour (R280). -/
def State.dutyLimit (s : State) (k : Nat) : Nat := 360000 * s.get F.MAC_SUBBAND_B_DUTY (8 * k)

/-- The hour sum of sub-band `k` up to tick `t` (R280). -/
def State.dutySum (s : State) (k t : Nat) : Nat := airSum k dutyWidth ((t : Int) - sTicks 3600) t s.mac.duty

/-- Buckets of width `w` that a sum of `keep` ticks may still need at tick `t`. -/
def airKept (t w keep : Nat) (l : List Air) : List Air := l.filter (fun x => decide (t < (x.bucket + 1) * w + keep))

/-- A transmission from tick `lo` to `hi` enters the accumulator of sub-band `k` (R279), which counts the time in which at least one
strand transmits there; EV169 when the hour sum passes 90 % of the limit (R280). -/
def State.dutyCount (s : State) (k lo hi : Nat) : State :=
  let a := max lo (tget (fun _ => 0) s.mac.dutyTo k)
  let s := s.onMac (fun m => { m with
    duty := airAdd k dutyWidth a hi (a / dutyWidth) (airKept hi dutyWidth (sTicks 3601) m.duty) 3,
    dutyTo := tset (fun _ => 0) m.dutyTo k (max hi (tget (fun _ => 0) m.dutyTo k)) })
  let high := decide (9 * s.dutyLimit k < 10 * s.dutySum k hi)
  let was := s.mac.dutyHigh.contains k
  let s := s.onMac (fun m => { m with
    dutyHigh := if high then (if was then m.dutyHigh else k :: m.dutyHigh) else m.dutyHigh.filter (· != k) })
  s.raiseIf (high && !was) Ev.DUTY_HIGH k

/-- A transmission of receiver `r` from tick `lo` to `hi` enters the accumulator of its raster channel and head, and that of every
sub-band that holds its frequency (R279). -/
def State.airCount (s : State) (r lo hi : Nat) : State :=
  let hz := s.radioHz r s.sfn
  let s := s.onMac (fun m => { m with
    dwell := airAdd (4 * s.rasterOf hz + headOf r) dwellWidth lo hi (lo / dwellWidth) (airKept hi dwellWidth (sTicks 61) m.dwell)
      ((hi - lo) / dwellWidth + 2) })
  (s.subBands hz).foldl (fun (s : State) k => s.dutyCount k lo hi) s

/-- The air-time tests of R280 on a transmission of receiver `r` from tick `lo` to `hi`: a pass is counted at once (R279);
a refusal raises EV168 with the address `src` and is recorded. -/
def State.airAsk (s : State) (r lo hi src : Nat) : State × Bool :=
  let h := headOf r
  let hz := s.radioHz r s.sfn
  let c := s.rasterOf hz
  let us := ticksUs hi - ticksUs lo
  let key := 4 * c + h
  let dwell := airSum key dwellWidth ((hi : Int) - sTicks (s.get F.MAC_DWELL_WINDOW_S)) lo s.mac.dwell
  let dwellBad := s.bit F.MAC_DWELL_EN && decide (1000 * s.get F.MAC_DWELL_LIMIT_MS < us + dwell)
  let dutyBad := (s.subBands hz).any (fun k => decide (s.dutyLimit k < us + s.dutySum k lo))
  if dwellBad || dutyBad then
    let s := (((s.incSat F.MAC_DWELL_STAT_REFUSALS).put F.MAC_DWELL_STAT_CHANNEL 0 c).put F.MAC_DWELL_STAT_HEAD 0 h).putB
      F.MAC_DWELL_STAT_CAUSE 0 (!dwellBad)
    (s.raise Ev.DWELL_BLOCK src, false)
  else (s.airCount r lo hi, true)

/-! ### Scripts and gain -/

/-- A byte of the script memory (R262). -/
def State.scriptByte (s : State) (a : Nat) : Nat := (tget (fun _ => (0 : Byte)) s.mac.scripts a).toNat

/-- The byte offset of script `i`, 0 when there is none. -/
def State.scriptAt (s : State) (i : Nat) : Nat := s.scriptByte (2 * i) + 256 * s.scriptByte (2 * i + 1)

/-- Reads a script from byte `a` on (R262): the `RH_SCK` periods it takes, whether it meets a reserved length, and whether it is
malformed. -/
def State.scriptScan (s : State) : Nat → Nat → Nat → Nat × Bool × Bool
  | _, n, 0 => (n, false, false)
  | a, n, fuel + 1 =>
    let b := s.scriptByte a
    if 32768 ≤ a then (n, false, false)
    else if 8 < b % 16 then (n, true, true)
    else if b / 16 ≠ 0 then (n, false, true)
    else if b = 0 then (n, false, false)
    else s.scriptScan (a + 1 + b) (n + 8 * b + 2) fuel

/-- The bytes that the transactions of a script shift out from byte `a` on, each transaction its own list, most significant bit first
(R262); a malformed transaction ends the script unshifted. -/
def State.scriptShift (s : State) : Nat → Nat → List (List Byte)
  | _, 0 => []
  | a, fuel + 1 =>
    let b := s.scriptByte a
    if 32768 ≤ a ∨ 8 < b % 16 ∨ b / 16 ≠ 0 ∨ b = 0 then []
    else ((List.range b).map (fun j => tget (fun _ => (0 : Byte)) s.mac.scripts (a + 1 + j))) :: s.scriptShift (a + 1 + b) fuel

/-- What script `i` shifts out to its head on `RH_SDI` (R262). -/
def State.scriptOut (s : State) (i : Nat) : List (List Byte) :=
  if s.scriptAt i = 0 then [] else s.scriptShift (s.scriptAt i) 32768

/-- Script `i` runs on head `h` (R262): its transactions go out on `RH_SDI` with the head's chip select low, behind those of scripts that
began at the same tick. -/
def State.scriptRun (s : State) (h i : Nat) : State :=
  let out := (s.scriptOut i).map (fun l => (h, l))
  s.onMac (fun m => { m with spi := (if m.spiAt = s.tick then m.spi else []) ++ out, spiAt := s.tick })

/-- Script `i` is malformed (R262). -/
def State.scriptBad (s : State) (i : Nat) : Bool :=
  let a := s.scriptAt i
  a != 0 && (s.scriptScan a 0 32768).2.2

/-- Script `i` exists, holds no reserved length and ends within 100 µs (R291, 0x74). -/
def State.scriptOk (s : State) (i : Nat) : Bool :=
  let a := s.scriptAt i
  let x := s.scriptScan a 0 32768
  a != 0 && !x.2.1 && decide (x.1 * 2 * (s.get F.MAC_SPI_CFG_DIV + 1) ≤ 3840)

/-- Entry `k` of head `h`'s gain table is usable (R263). -/
def State.gainValid (s : State) (h k : Nat) : Bool := s.bit F.RFS_GAIN_TBL_VALID (rhO h + 4 * k)

/-- `FS_DBM` of entry `k` of head `h`, in 0.25 dB units. -/
def State.gainDbm (s : State) (h k : Nat) : Int := s.getI F.RFS_GAIN_TBL_FS_DBM (rhO h + 4 * k)

/-- The entry of lowest (`up` false) or highest level among some entries, the first among equals. -/
def State.gainBest (s : State) (h : Nat) (up : Bool) : List Nat → Option Nat
  | [] => none
  | k :: t => match s.gainBest h up t with
    | none => some k
    | some j => if (if up then decide (s.gainDbm h k < s.gainDbm h j) else decide (s.gainDbm h j < s.gainDbm h k))
        then some j else some k

/-- The gain entry of head `h` for a phase in which it expects a highest level (R263); without an expected level every entry
qualifies (DEDUCED, log entry 66). -/
def State.gainFor (s : State) (h : Nat) (cont : Bool) (level : Option Int) : Option Nat :=
  let valid := (List.range 16).filter (s.gainValid h)
  if cont then
    let k := s.get F.MAC_RX_CONT_ENTRY
    if s.gainValid h k then some k else none
  else
    let enough := fun k => match level with
      | some l => decide (l + 4 * (s.get F.MAC_RX_HEADROOM : Int) ≤ s.gainDbm h k)
      | none => true
    match s.gainBest h false (valid.filter enough) with
    | some k => some k
    | none => s.gainBest h true valid

/-- What head `h` sends ends: its synthesisers stop, and it is not in transmit. -/
def State.airDrop (s : State) (h : Nat) : State :=
  let s := s.mac.air.foldl (fun (s : State) a => if headOf a.1 = h then s.onRx a.1 (fun x => { x with txOn := false }) else s) s
  (s.onMac (fun m => { m with air := m.air.filter (fun a => headOf a.1 != h) })).putB F.RFS_HEAD_STAT_TX (rhO h) false

/-- Head `h` does not send its beacon after all (R262, R279): the air time of the beacons that are sent is counted afresh. -/
def State.beaconDrop (s : State) (h : Nat) : State :=
  if s.mac.air.any (fun a => headOf a.1 == h) then
    let s := (s.airDrop h).onMac (fun m => { m with dwell := m.airMark.1, duty := m.airMark.2.1, dutyTo := m.airMark.2.2 })
    s.mac.air.foldl (fun (s : State) a => s.airCount a.1 a.2.start a.2.over) s
  else s

/-- A direction of head `h` fails for the slot (R262, R263): EV162; its strands stay in HOLD or its transmissions are not sent, its beacon
among them, and the sessions active on it in the phase end SKIPPED. -/
def State.headFails (s : State) (h : Nat) (receive : Bool) : State :=
  if s.mac.headFail.contains (h, receive) then s
  else
    let s := s.onMac (fun m => { m with
      headFail := (h, receive) :: m.headFail,
      pairs := m.pairs.map (fun (p : PairNow) =>
        if headOf p.rx = h ∧ (receive ∨ p.tx ≠ []) then { p with outcome := 5, tx := [] } else p) })
    let s := s.raise Ev.RH_SCRIPT_LATE h
    let s := if receive then s else s.beaconDrop h
    if receive then (List.range 8).foldl (fun s k => s.rxForceHold (beaconRx h + k)) s else s

/-- The strands of head `h` receive, or are held while it transmits or cannot receive (R82, R260, R267). -/
def State.headListens (s : State) (h : Nat) (on : Bool) : State :=
  (List.range 8).foldl (fun s k =>
    let r := beaconRx h + k
    if on then s.onRx r (fun x => { x with stopped := false })
    else (s.onRx r (fun x => { x with stopped := true })).rxForceHold r) s

/-! ### The radio area of a context (R286) -/

/-- The radio state: 0 UNASSIGNED, 1 ASSIGNED, 2 DRIFT_LOST. -/
def State.rstate (s : State) (k : Nat) : Nat := s.ctxNum k 0x0C0 1 % 4
/-- The slot of a session's pair. -/
def State.rslot (s : State) (k : Nat) : Nat := s.ctxNum k 0x0C1 1
/-- The channel of a session's pair. -/
def State.rchan (s : State) (k : Nat) : Nat := s.ctxNum k 0x0C2 1 % 32
/-- The period exponent of a session's pair. -/
def State.rper (s : State) (k : Nat) : Nat := s.ctxNum k 0x0C3 1 % 8
/-- The phase of a session's pair. -/
def State.rphase (s : State) (k : Nat) : Nat := s.ctxNum k 0x0C4 1
/-- A session of this module in radio state ASSIGNED (R296 to R299). -/
def State.assigned (s : State) (k : Nat) : Bool := (s.slot k).st == 2 && s.isRadio k && s.rstate k == 1

/-- The radio association or reassignment of session `k` (R282). -/
def State.rassoc (s : State) (k : Nat) : Option RadioAssoc := s.mac.assocs.find? (fun a => a.session == k)

/-- The old pair of a session while it is being reassigned (R277, R286): slot, channel and phase. -/
def State.roldPair (s : State) (k : Nat) : Option (Nat × Nat × Nat) :=
  let v := s.ctxNum k 0x0E8 2
  if v.testBit 15 then some (v % 64, v / 256 % 32, ((s.rassoc k).map (·.oldPhase)).getD (s.rphase k)) else none

/-- Session `k` holds its pair: ASSIGNED, in its DRIFT_LOST hold, or awaiting an association's ACK in it. -/
def State.holdsPair (s : State) (k : Nat) : Bool :=
  let st := (s.slot k).st
  s.isRadio k && (st == 1 || st == 2) && s.rslot k != 0
    && (s.rstate k != 0 || ((s.rassoc k).map (fun a => !a.mesh)).getD false)

/-- A pair of session `k` with phase `f` is active in superframe `n` (R270). -/
def State.pairActive (s : State) (k f n : Nat) : Bool := n % 2 ^ s.rper k == f

/-- Every session slot with a radio session. -/
def State.radioSessions (s : State) : List Nat :=
  (s.slots.filter (fun e => e.1 != 0 && e.2.radio && (e.2.st == 1 || e.2.st == 2))).map (·.1)

/-- The pairs held: slot, channel, period exponent, phase. -/
def State.pairsHeld (s : State) : List (Nat × Nat × Nat × Nat) :=
  (s.radioSessions.filter s.holdsPair).flatMap (fun k =>
    (s.rslot k, s.rchan k, s.rper k, s.rphase k) :: (match s.roldPair k with
      | some (sl, ch, f) => [(sl, ch, s.rper k, f)]
      | none => []))

/-- Phase `f` of slot `sl` and channel `ch` is free for period exponent `p` (R270). -/
def phaseFree (held : List (Nat × Nat × Nat × Nat)) (sl ch p f : Nat) : Bool :=
  !held.any (fun x => x.1 == sl && x.2.1 == ch && x.2.2.2 % 2 ^ min p x.2.2.1 == f % 2 ^ min p x.2.2.1)

/-- Slot `j` takes pairs on channel `n` (R264, R266, R270): not a beacon, contention or listen slot, on a head that may
transmit, with a strand in use. -/
def State.pairPlace (s : State) (j n : Nat) : Bool :=
  let h := n / 8
  decide (1 ≤ j) && decide (j < 64) && !s.contSlot j
    && !(s.listenSlot j && s.get F.MAC_SUB_LISTEN_HEAD == h)
    && s.bit F.RFS_HEAD_CFG_ENABLE (rhO h) && s.bit F.RFS_HEAD_CFG_TX_EN (rhO h)
    && s.bit F.STR_TONE_SPACING_EN (rxO (576 + n))

/-- The sessions of a channel (R282). -/
def chanLoad (held : List (Nat × Nat × Nat × Nat)) (ch : Nat) : Nat := (held.filter (fun x => x.2.1 == ch)).length

/-- The least used free phase of a slot and channel, the lowest among equals (R282, DEDUCED, log entry 81: counted over the channel). -/
def bestPhase (held : List (Nat × Nat × Nat × Nat)) (sl ch p : Nat) : Option Nat :=
  let free := (List.range (2 ^ p)).filter (phaseFree held sl ch p)
  let load := fun f => (held.filter (fun x =>
    x.2.1 == ch && x.2.2.2 % 2 ^ min p x.2.2.1 == f % 2 ^ min p x.2.2.1)).length
  match free with
  | [] => none
  | f :: t => some (t.foldl (fun (b : Nat) x => if load x < load b then x else b) f)

/-- The lowest slot of channel `n` with a free phase for period exponent `p`, and that phase. -/
def State.freeOn (s : State) (held : List (Nat × Nat × Nat × Nat)) (n p : Nat) : Option (Nat × Nat) :=
  (List.range 64).findSome? (fun j => if s.pairPlace j n then (bestPhase held j n p).map (fun f => (j, f)) else none)

/-- Channel `a` comes before channel `b` in the order of R282: higher symbol rate, then fewer sessions. -/
def State.chanBefore (s : State) (held : List (Nat × Nat × Nat × Nat)) (a b : Nat) : Bool :=
  let ra := symRate false (s.get F.STR_FRM_CFG_RX_RATE (rxO (576 + a)))
  let rb := symRate false (s.get F.STR_FRM_CFG_RX_RATE (rxO (576 + b)))
  decide (rb < ra) || (ra == rb && decide (chanLoad held a < chanLoad held b))

/-- The pair for a meter on head `h` (R282): channel, slot and phase.  The meter's highest rate index and levels bound the
channel. -/
def State.freePair (s : State) (h rate : Nat) (four : Bool) : Option (Nat × Nat × Nat) :=
  let held := s.pairsHeld
  let p := s.get F.MAC_ASSOC_PERIOD
  let can := ((List.range 8).map (fun k => 8 * h + k)).filter (fun n =>
    decide (s.get F.STR_FRM_CFG_RX_RATE (rxO (576 + n)) ≤ rate)
      && (four || s.get F.STR_SYM_CFG_LEVELS (rxO (576 + n)) == 0) && (s.freeOn held n p).isSome)
  match can with
  | [] => none
  | n :: t =>
    -- among channels of one rate and load, the lowest slot
    let slotOf := fun n => ((s.freeOn held n p).map (·.1)).getD 64
    let best := t.foldl (fun (b : Nat) x =>
      if s.chanBefore held x b || (!s.chanBefore held b x && decide (slotOf x < slotOf b)) then x else b) n
    (s.freeOn held best p).map (fun x => (best, x.1, x.2))

end Sys2Proof.Machine
end

