-- ==== Sys2Proof/Machine/Relay.lean ====
section
/-! DEFINITION. Mesh relaying (R293 to R309): the route header, the seen cache, hand-off and flood assist, learning routes, and
frames sent towards a meter through relays. -/
namespace Sys2Proof.Machine
open Sys2Proof

/-! ### The route header -/

/-- A route header (R293). -/
structure RtHdr where
  kind : Nat
  ttl : Nat
  coord : Nat
  fseq : Nat
  idx : Nat
  path : List Nat
  deriving DecidableEq, Repr

/-- Little-endian 2-byte numbers. -/
def pairsLe : Nat → List Byte → List Nat
  | 0, _ => []
  | n + 1, l => ofLe (l.take 2) :: pairsLe n (l.drop 2)

/-- The route header at the head of a payload; none where R294 calls it bad. -/
def rtOf (p : List Byte) : Option RtHdr :=
  let b := fun k => (p.getD k 0).toNat
  let n := b 4 % 16
  let i := b 4 / 16
  if p.length < 5 + 2 * n ∨ 14 < n ∨ n < i ∨ b 0 % 4 = 3 then none
  else some ⟨b 0 % 4, b 0 / 16, b 1 % 64, ofLe ((p.drop 2).take 2), i, pairsLe n (p.drop 5)⟩

/-- The length of a route header. -/
def RtHdr.len (r : RtHdr) : Nat := 5 + 2 * r.path.length

/-- A route header as bytes. -/
def RtHdr.bytes (r : RtHdr) : List Byte :=
  le (r.kind + 16 * r.ttl) 1 ++ le r.coord 1 ++ le r.fseq 2 ++ le (r.path.length + 16 * r.idx) 1
    ++ r.path.flatMap (fun a => le a 2)

/-! ### The seen cache -/

/-- A key is in the seen cache (R304). -/
def State.seenHas (s : State) (coord src fseq : Nat) : Bool :=
  s.mac.seen.any (fun e => e.coord == coord && e.src == src && e.fseq == fseq && decide (s.tick < e.at_ + sTicks 60))

/-- A key enters the seen cache; the oldest one leaves a full cache, with EV179 when it has not expired (R304). -/
def State.seenAdd (s : State) (coord src fseq : Nat) : State :=
  let add := fun (s : State) => s.onMac (fun m => { m with seen := m.seen ++ [(⟨coord, src, fseq, s.tick⟩ : SeenE)] })
  match s.mac.seen with
  | e :: t =>
    if s.mac.seen.length < 4096 then add s
    else
      let s := s.onMac (fun m => { m with seen := t })
      let due := match s.mac.seenEvictAt with | some t => decide (t + sTicks 60 ≤ s.tick) | none => true
      if decide (s.tick < e.at_ + sTicks 60) && due then
        add ((s.onMac (fun m => { m with seenEvictAt := some s.tick })).raise Ev.SEEN_EVICT e.src)
      else add s
  | [] => add s

/-! ### Hand-off and flood assist -/

/-- Where the CXL device holds the foreign table's entry of fabric address `n`:`a` (R221, R308). -/
def foreignAddr (n a : Nat) : Nat := 0x03000000 + 4 * (65536 * n + a)

/-- The sightings of an entry (R308). -/
def Foreign.sight (e : Foreign) : Nat := bitsOf e.word 7 0
/-- Its best RSSI plus 160. -/
def Foreign.best (e : Foreign) : Nat := bitsOf e.word 15 8
/-- The radio strand of that RSSI. -/
def Foreign.rfs (e : Foreign) : Nat := bitsOf e.word 20 16
/-- The minutes since its last sighting, saturating. -/
def Foreign.minutes (e : Foreign) : Nat := bitsOf e.word 31 24

/-- An entry's fields as its 4 bytes. -/
def foreignWord (sight best rfs minutes : Nat) : BitVec 32 :=
  BitVec.ofNat 32 (sight + 0x100 * best + 0x10000 * rfs + 0x1000000 * minutes)

/-- The minutes of an entry are counted on to tick `t` (R308). -/
def Foreign.upTo (e : Foreign) (t : Nat) : Foreign :=
  let n := (t - e.at_) / sTicks 60
  ⟨foreignWord e.sight e.best e.rfs (min 255 (e.minutes + n)), e.at_ + n * sTicks 60⟩

/-- The entry of fabric address `n`:`a` as it stands now; one never sighted is 0. -/
def State.foreignOf (s : State) (n a : Nat) : Foreign :=
  let e := tget (fun _ => (⟨0, 0⟩ : Foreign)) s.mac.foreign (foreignAddr n a)
  if e.sight = 0 then e else e.upTo s.tick

/-- The foreign table, which the CXL device holds through a reset behind which the time base goes on at tick `t` (R221, R308). -/
def State.foreignKept (s : State) (t : Nat) : Table Foreign :=
  s.mac.foreign.map (fun x => (x.1, { x.2.upTo s.tick with at_ := t }))

/-- The sighting of fabric address `n`:`a` enters the foreign table (R308). -/
def State.foreignAdd (s : State) (n a rfs : Nat) (rssi : Int) : State :=
  if n = s.nodeId ∨ !s.journals then s
  else
    let e := s.foreignOf n a
    let lvl := (max 0 (min 255 (rssi / 4 + 160))).toNat
    let better := e.sight == 0 || decide (e.best < lvl)
    let e' : Foreign := ⟨foreignWord (min 255 (e.sight + 1)) (if better then lvl else e.best) (if better then rfs else e.rfs) 0, s.tick⟩
    s.onMac (fun m => { m with foreign := tset (fun _ => (⟨0, 0⟩ : Foreign)) m.foreign (foreignAddr n a) e' })

/-- The body of a mesh relay message (R306). -/
def State.relayBody (s : State) (b : Body) (mpdu : List Byte) : List Byte :=
  le s.nodeId 1 ++ le (b.rx - 576) 1 ++ le (toSigned 16 b.rssi) 2 ++ le (toSigned 16 b.snr) 2 ++ le b.sync 8
    ++ le mpdu.length 2 ++ mpdu

/-- A frame of another coordinator is handed off over Braid, or dropped with EV178 (R306); the flag says which. -/
def State.handOff (s : State) (b : Body) (m : Mac) (coord : Nat) (mpdu : List Byte) : State × Bool :=
  let r : State × Bool := if s.bit F.MSH_CTRL_HANDOFF_EN then s.brdSend 0x26 coord (s.relayBody b mpdu) else (s, false)
  let s := if r.2 then r.1.incSat F.MSH_CNT_OUT_HANDOFF_SENT
    else (r.1.incSat F.MSH_CNT_DROP_HANDOFF_DROP).raise Ev.HANDOFF_DROP coord
  (s.foreignAdd coord m.src (b.rx - 576) b.rssi, r.2)

/-- The heads that flood (R300). -/
def State.floodHeads (s : State) : List Nat :=
  s.beaconHeads.filter (fun h => (s.get F.MSH_CFG_ASSIST_HEADS).testBit h)

/-- A downstream frame fits phase 2 of a contention slot on head `h` (R268, R300). -/
def State.downFits (s : State) (h : Nat) (mpdu : List Byte) : Bool :=
  s.fitsDown (beaconRx h) (s.chanMode (beaconRx h) 0) mpdu.length

/-- A downstream frame joins the queue for contention slots (R300), unless it does not fit.  The flag says that it fits. -/
def State.downPut (s : State) (f : DownTx) : State × Bool :=
  if f.heads.all (fun h => s.downFits h f.mpdu) then
    (if f.heads.isEmpty then s else s.onMac (fun m => { m with downQ := m.downQ ++ [f] }), true)
  else (s.raise Ev.LENGTH_REJECT (beaconRx (f.heads.headD 0)), false)

/-- The superframe of the next contention slot. -/
def State.nextContSf (s : State) : Nat :=
  match s.mac.slot with
  | some (j, _) => if j < s.get F.MAC_CONT_CONT_FIRST + s.get F.MAC_CONT_CONT_COUNT then s.sfn else s.sfn + 1
  | none => s.sfn

/-- The module assists a FLOOD frame (R305): it is sent once, with TTL − 1, on the heads that may not have been heard by the
same meters. -/
def State.floodAssist (s : State) (b : Body) (m : Mac) (rt : RtHdr) (mpdu : List Byte) : State :=
  if !s.bit F.MSH_CTRL_ASSIST_EN || rt.kind != 2 || m.dest == 0 || decide (rt.ttl ≤ 1) then s
  else
    let hz := s.radioHz b.rx s.sfn
    let near := fun h =>
      let c := s.rasterHz (s.hopCentre h s.nextContSf)
      decide (c - 1600000 ≤ hz) && decide (hz ≤ c + 1600000)
    let body := patch (mpdu.take (mpdu.length - 4)) 10 (le (rt.kind + 16 * (rt.ttl - 1)) 1)
    let heads := s.floodHeads.filter (fun h => h != headOf b.rx && !near h && s.downFits h mpdu)
    let f : DownTx := ⟨2, 6, heads, s.tick, m.dest, m.ftype, body ++ le (crc32 body).toNat 4, 0⟩
    if heads.isEmpty then s else s.onMac (fun x => { x with downQ := x.downQ ++ [f] })

/-- What mesh relaying does with a frame of good FCS (R294): whether it passes it on undeciphered. -/
def State.relayTake (s : State) (b : Body) (m : Mac) (mpdu : List Byte) : State × Bool :=
  if !m.routed then (s, false)
  else if b.rx < 576 then (s.incSat F.MSH_CNT_DROP_BAD_RT, true)
  else match rtOf (payloadOf mpdu) with
    | none => (s.incSat F.MSH_CNT_DROP_BAD_RT, true)
    | some rt =>
      let flood := rt.kind == 2
      if flood && s.seenHas rt.coord m.src rt.fseq then (s.incSat F.MSH_CNT_DROP_DUP, true)
      else
        let s := if flood then s.seenAdd rt.coord m.src rt.fseq else s
        if rt.coord ≠ s.nodeId then
          let r := s.handOff b m rt.coord mpdu
          -- a discarded frame is not assisted (R305)
          (if r.2 then r.1.floodAssist b m rt mpdu else r.1, true)
        else if rt.kind = 1 ∨ (flood ∧ m.dest ≠ 0) then
          ((s.incSat F.MSH_CNT_DROP_ECHO).floodAssist b m rt mpdu, true)
        else (s, false)

/-- The case of R294 passes the frame on undeciphered; nothing is done yet. -/
def State.relayCase (s : State) (b : Body) (m : Mac) (mpdu : List Byte) : Bool := (s.relayTake b m mpdu).2

/-- The payload of a frame behind its route header. -/
def innerPayload (m : Mac) (mpdu : List Byte) : List Byte :=
  let p := payloadOf mpdu
  if m.routed then (match rtOf p with | some r => p.drop r.len | none => p) else p

/-! ### Leases of the coordinator -/

/-- A lease ends without discarding anything: no update of it is queued, or it ends once they are journalled; a fill that waits for an
entry finds one (R230). -/
def State.macRelease (s : State) (k : Nat) : State :=
  if !s.leasedBy k 3 then s
  else if s.leaseBusy k then s.onMac (fun m => { m with letGo := if m.letGo.contains k then m.letGo else m.letGo ++ [k] })
  else ({ s with leases := s.leases.filter (fun l => l.session != k) }.grantNext k).fillsGo

/-- The coordinator changes session `k` once: under the lease it has, or one it takes for that; where another holds it, nothing. -/
def State.macOnce (s : State) (k : Nat) (f : State → State) : State :=
  if s.leasedBy k 3 then f s
  else
    let l := s.leaseTry k 3
    if l.2 then (f l.1).macRelease k else s

/-! ### The route table -/

/-- An entry in use (R298). -/
def State.routeValid (s : State) (e : RouteE) : Bool :=
  decide (s.tick < e.born + sTicks (s.get F.MSH_CFG_ROUTE_MAX_AGE))

/-- The valid entry of a destination. -/
def State.routeOf (s : State) (d : Nat) : Option RouteE := s.mac.routes.find? (fun e => e.dest == d && s.routeValid e)

/-- Follows next hops from node `d` (R299): the path so far, nearest the module first. -/
def State.routeWalk (s : State) (d : Nat) (path : List Nat) : Nat → Option (List Nat)
  | 0 => none
  | n + 1 =>
    match s.routeOf d with
    | none => none
    | some e =>
      let x := e.next
      let st := (s.slot x).st
      if x = d ∨ path.contains x ∨ 14 ≤ path.length ∨ st = 0 ∨ st = 3 then none
      else if s.assigned x then some (x :: path)
      else s.routeWalk x (x :: path) n

/-- The source route to meter `d` (R299). -/
def State.buildRoute (s : State) (d : Nat) : Option (List Nat) :=
  match s.routeWalk d [] 16 with
  | some p => if p.contains d then none else some p
  | none => none

/-- A route entry as a ROUTE message and its window carry it (R312, R376). -/
def State.routeBytes (s : State) (e : RouteE) : List Byte :=
  let age := min 65535 ((s.tick - e.born) / sTicks 1)
  le e.dest 2 ++ le e.next 2 ++ le e.metric 1 ++ le (e.hops % 16 + (if s.routeValid e then 128 else 0)) 1 ++ le age 2

/-- A changed route entry goes to the partner (R376). -/
def State.routeMirror (s : State) (e : RouteE) : State := if s.splOwnerUp then s.splSend 0x14 (s.routeBytes e) else s

/-- A route entry is freed; the partner learns that it is not in use any more (R298, R376). -/
def State.routeDrop (s : State) (e : RouteE) : State :=
  let s := s.onMac (fun m => { m with routes := m.routes.erase e })
  if s.splOwnerUp then s.splSend 0x14 (patch (s.routeBytes e) 5 (le (e.hops % 16) 1)) else s

/-- The entry of destination `d` is freed (R296, R311, R390). -/
def State.routeForget (s : State) (d : Nat) : State :=
  (s.mac.routes.filter (fun e => e.dest == d)).foldl (fun (s : State) e => s.routeDrop e) s

/-- The entry of greatest age at tick `t`, in whole seconds, the lower destination among equals (R298). -/
def oldestRoute (t : Nat) : List RouteE → Option RouteE
  | [] => none
  | e :: l => match oldestRoute t l with
    | none => some e
    | some x =>
      let age := fun (y : RouteE) => (t - y.born) / sTicks 1
      if age e < age x ∨ (age x = age e ∧ x.dest < e.dest) then some x else some e

/-- A candidate is judged against the table (R297, R298); a meter heard directly in its own pair has no entry (R296). -/
def State.routeTake (s : State) (d next metric hops : Nat) : State :=
  let new : RouteE := ⟨d, next, metric, hops, s.tick⟩
  let put := fun (s : State) => (s.onMac (fun m => { m with
    routes := m.routes.filter (fun e => e.dest != d) ++ [new] })).routeMirror new
  if s.assigned d then s else
  match s.routeOf d with
  | some e =>
    if e.next = next ∨ metric ≤ e.metric ∨ e.born + sTicks 60 ≤ s.tick ∨ (s.buildRoute d).isNone then put s else s
  | none =>
    let valid := s.mac.routes.filter s.routeValid
    if valid.length < 8192 then put (s.onMac (fun m => { m with routes := valid }))
    else match oldestRoute s.tick valid with
      | none => put s
      | some o =>
        let s := s.onMac (fun m => { m with routes := valid.erase o })
        let due := match s.mac.routeFullAt with | some t => decide (t + sTicks 60 ≤ s.tick) | none => true
        put (if due then (s.onMac (fun m => { m with routeFullAt := some s.tick })).raise Ev.ROUTE_TABLE_FULL d else s)

/-- The metric of a candidate of `hops` hops heard at an SNR of `snr` quarter decibels (R297). -/
def routeMetric (hops : Nat) (snr : Int) : Nat := min 255 (8 * hops + (max 0 (24 - snr / 4)).toNat)

/-- The hop count of meter `k` (R309). -/
def State.mhops (s : State) (k : Nat) : Nat := s.ctxNum k 0x200 1 % 16

/-- Whether a route header teaches routes (R297): its last relay is a session in radio state ASSIGNED. -/
def State.teaches (s : State) (rt : RtHdr) : Bool :=
  let n := rt.path.length
  s.bit F.MSH_CTRL_LEARN_EN && rt.kind != 1 && n != 0 && s.assigned (rt.path.getD (n - 1) 0xFFFE)

/-- The candidate of a relay (R297), whose metric its session keeps (R309). -/
def State.relayLearn (s : State) (d next metric hops : Nat) : State :=
  let s := s.routeTake d next metric hops
  if (s.slot d).st == 2 && s.isRadio d then s.macOnce d (fun (t : State) => t.ctxPut d 0x204 1 metric 3) else s

/-- What the path of a header teaches of its relays p0 to p(n−2) (R297). -/
def State.learnPath (s : State) (rt : RtHdr) (snr : Int) : State :=
  let n := rt.path.length
  let hop := fun j => rt.path.getD j 0
  if !s.teaches rt then s
  else (List.range (n - 1)).foldl (fun (s : State) j => s.relayLearn (hop j) (hop (j + 1)) (routeMetric (n - j) snr) (n - j)) s

/-- `LAST_FSEQ` follows an accepted FLOOD frame (R309). -/
def State.lastFseq (s : State) (k h : Nat) (rt : RtHdr) : State := if rt.kind = 2 then s.ctxPut k 0x206 2 rt.fseq h else s

/-- An accepted routed frame from session `k` teaches routes (R297, R309, R314); holder `h` has the lease.  A meter heard directly has no
entry (R296). -/
def State.learn (s : State) (k h : Nat) (rt : RtHdr) (snr : Int) : State :=
  let s := s.lastFseq k h rt
  let n := rt.path.length
  if n = 0 then
    let s := s.routeForget k
    if s.bit F.MSH_CTRL_LEARN_EN then s.ctxPut k 0x200 1 (s.ctxNum k 0x200 1 / 16 * 16 + 1) h else s
  else if !s.teaches rt then s
  else
    let hop := fun j => rt.path.getD j 0
    let metric := routeMetric (n + 1) snr
    let s := (s.routeTake k (hop 0) metric (n + 1)).learnPath rt snr
    let repair := (s.ctxNum k 0x201 1).testBit 0
    let s := s.ctxUpdate k 0x200 (le (s.ctxNum k 0x200 1 / 16 * 16 + (n + 1)) 1 ++ le (s.ctxNum k 0x201 1 / 4 * 4 + 2) 1
      ++ le (hop (n - 1)) 2 ++ le metric 1) h
    let s := s.ctxUpdate k 0x208 (le n 1) h
    let s := s.ctxUpdate k 0x20A (padTo 28 (rt.path.flatMap (fun a => le a 2))) h
    s.raiseIf repair Ev.ROUTE_REPAIRED k

/-! ### Sending towards a meter -/

/-- The next value of `MSH_FSEQ` for a FLOOD frame of the module, which enters the seen cache (R303). -/
def State.takeFseq (s : State) : State × Nat :=
  let q := s.get F.MSH_FSEQ_NEXT
  ((s.incWrap F.MSH_FSEQ_NEXT).seenAdd s.nodeId 0 q, q)

/-- A route miss (R299). -/
def State.routeMiss (s : State) (k h : Nat) : State :=
  let s := (s.incSat F.MSH_CNT_ROUTE_MISSES).ctxPut k 0x201 1 (s.ctxNum k 0x201 1 / 4 * 4 + 1) h
  s.raise Ev.ROUTE_MISS k

/-- The TTL of a FLOOD frame that the module originates to `dest` (R303). -/
def State.floodTtl (s : State) (dest : Nat) : Nat :=
  if dest = 0xFFFF then s.get F.MSH_CFG_TTL_BCAST
  else if s.mhops dest = 0 then s.get F.MSH_CFG_TTL_DEFAULT
  else min (s.mhops dest + 2) 15

/-- The route header of a FLOOD frame to `dest` (R303). -/
def State.floodHdr (s : State) (dest : Nat) : State × RtHdr :=
  let q := s.takeFseq
  (q.1, ⟨2, s.floodTtl dest, s.nodeId, q.2, 0, []⟩)

/-- `FLOODS_SENT` counts a frame of the module with a route header of kind `kind` (R311). -/
def State.floodCount (s : State) (kind : Nat) : State := if kind = 2 then s.incSat F.MSH_CNT_ROUTE_FLOODS_SENT else s

/-- The route header of a frame to session `k` (R299, R301, R303), its rank and its heads: a source route on the head that holds
the first relay's pair, or a flood. -/
def State.routeTo (s : State) (k h : Nat) (flood : Bool) : State × RtHdr × Nat × List Nat :=
  let src := if flood then none else s.buildRoute k
  match src with
  | some path => (s, ⟨1, path.length + 1, s.nodeId, 0, 0, path⟩, 1, [s.rchan (path.headD 0) / 8])
  | none =>
    let s := if flood then s else s.routeMiss k h
    let r := s.floodHdr k
    (r.1, r.2, 2, s.floodHeads)

/-- The next exchange sequence number of a radio session (R184): its context has no place for it, since radio sessions leave
the planner's area 0 (R226). -/
def State.radioSeq (s : State) (k : Nat) : State × Nat :=
  let q := (tget (fun _ => 0) s.mac.seqs k + 1) % 65536
  (s.onMac (fun m => { m with seqs := tset (fun _ => 0) m.seqs k q }), q)

/-- A COMMAND or REKEY whose frame is too long (R143, R300): its exchange fails. -/
def State.meshTooLong (s : State) (m : MeshSend) : State :=
  let s := s.onMac (fun x => { x with sends := x.sends.filter (fun y => y.session != m.session) })
  if m.ftype = 2 then s.cmdFail m.session 3 else s

/-- Builds a COMMAND or REKEY for a meter without a pair and queues it (R299 to R301), as the next send of `m`; one that is too long
fails, and any other build that is refused counts as a send without an answer. -/
def State.meshSendOne (s : State) (m : MeshSend) (flood : Bool) : State :=
  let k := m.session
  let rekey := m.ftype == 9
  let q := s.radioSeq k
  let r := q.1.routeTo k 3 flood
  let rx := beaconRx (r.2.2.2.headD 0)
  let mode := s.chanMode rx 0
  let hd := exchHeader (if rekey then 4 else s.cmdReq k) mode false false 127 q.2
  let b := if rekey then r.1.buildRekey rx k 3 r.2.1.bytes hd
    else r.1.buildTraffic rx k 3 2 r.2.1.bytes (hd ++ s.ctxBytes k 0x408 (s.ctxNum k 0x400 2))
  let m' : MeshSend := { m with sends := m.sends + 1, lastSf := s.mac.sfs, source := r.2.2.1 == 1, seq := q.2 }
  let s := b.1.onMac (fun x => { x with sends := x.sends.filter (fun y => y.session != k) ++ [m'] })
  let s := s.ctxPut k 0x205 1 m'.sends 3
  match b.2 with
  | none => if !rekey && decide (1016 < r.2.1.bytes.length + hd.length + s.ctxNum k 0x400 2) then s.meshTooLong m' else s
  | some (mpdu, waits) =>
    let p := s.downPut ⟨r.2.2.1, if rekey then 1 else 0, r.2.2.2, s.tick, k, m.ftype, mpdu, if waits then 1 else 0⟩
    if p.2 then p.1.floodCount r.2.2.1 else p.1.meshTooLong m'

/-- A radio session without a pair that is not heard directly (R299, R301). -/
def State.relayed (s : State) (k : Nat) : Bool :=
  (s.slot k).st == 2 && s.isRadio k && s.rstate k == 0 && s.mhops k != 1

/-- A command or REKEY of a relayed meter that is not under way starts (R301), but not in SPOOL_FULL (R243). -/
def State.meshStart (s : State) (k : Nat) : State :=
  let want := if s.rekeyCan k then 9 else if s.ctxNum k 0x400 2 != 0 && !s.cmdHeld k then 2 else 0
  if !s.relayed k || want == 0 || s.bit F.SES_STATUS_SPOOL_FULL || s.mac.sends.any (fun m => m.session == k) then s
  else
    let l := s.leaseTry k 3
    if l.2 then l.1.meshSendOne ⟨k, want, 0, 0, false, 0⟩ false else s

end Sys2Proof.Machine
end

