-- ==== Sys2Proof/Machine/Respond.lean ====
section
/-! DEFINITION. What the radio coordinator sends to a meter that holds a pair (R272, R282), and the frames it answers JOINs
with (R281, R282, R302). -/
namespace Sys2Proof.Machine
open Sys2Proof

/-- The holder under which the coordinator serves session `k`: 7 while it is handed over (R390), else 3. -/
def State.radioHolder (s : State) (k : Nat) : Nat := if s.leasedBy k 7 then 7 else 3

/-! ### ASSIGN -/

/-- The ASSIGN payload of a radio session (R282) on channel `n`: slot 0 for a meter behind relays (R302). -/
def State.radioAssign (s : State) (k eui ver slot n per phase coding : Nat) : List Byte :=
  let r := 576 + n
  let m := s.chanMode r coding
  let len := s.get F.MAC_HOP_LEN
  le eui 8 ++ le k 2 ++ le ver 1 ++ le slot 1 ++ le n 1 ++ le per 1 ++ le phase 1 ++ le m.byte 1
    ++ le (s.get F.STR_TONE_CENTRE_CENTRE (rxO r)) 3 ++ le (s.get F.STR_TONE_SPACING_SPACING (rxO r)) 2 ++ le (s.maxUp r) 1
    ++ le (s.live F.MAC_RASTER.addr).toNat 4 ++ le len 1 ++ (List.range len).flatMap (fun e => le (s.hopCentre (n / 8) e) 1)

/-- The ASSIGN payload of session `k` as its context places it. -/
def State.assignOf (s : State) (a : RadioAssoc) : List Byte :=
  let k := a.session
  s.radioAssign k a.eui a.ver (if a.mesh then 0 else s.rslot k) (if a.mesh then 8 * a.head else s.rchan k) (s.rper k)
    (s.rphase k) (s.ctxNum k 0x0C5 1 % 4)

/-- A pair is written to session `k`'s context (R286). -/
def State.setPair (s : State) (k slot chan per phase h : Nat) : State :=
  s.ctxUpdate k 0x0C1 (le slot 1 ++ le chan 1 ++ le per 1 ++ le phase 1) h

/-- Releases the pair of session `k` (R278): UNASSIGNED, no pair, no hold. -/
def State.pairFree (s : State) (k h : Nat) : State :=
  let s := s.ctxUpdate k 0x0C0 [0, 0, 0, 0, 0] h
  let s := (s.ctxUpdate k 0x0C6 [0, 0] h).ctxUpdate k 0x0E8 [0, 0] h
  s.onMac (fun m => { m with holds := m.holds.filter (fun x => x.1 != k) })

/-! ### Responder frames -/

/-- The responder header (R272). -/
def respHdr (acked coding : Nat) (more : Bool) : List Byte := le acked 4 ++ le coding 1 ++ [if more then 1 else 0]

/-- What a session's responder may carry besides an ACK, in the order of R272: 9 REKEY, 2 COMMAND, 7 ASSIGN. -/
def State.respWants (s : State) (k : Nat) : List Nat :=
  (if s.rekeyCan k then [9] else []) ++ (if s.ctxNum k 0x400 2 != 0 && !s.cmdHeld k then [2] else [])
    ++ (if ((s.rassoc k).map (·.again)).getD false || s.hoOut.any (fun x => x.session == k && x.payload != []) then [7]
        else [])

/-- Builds one responder frame of a type for a pair (R272, R390): the MPDU and whether it waits for a Vault write; none when the
build is refused. -/
def State.respFrame (s : State) (rx k ftype acked : Nat) (more : Bool) (mode : Mode) : State × Option (List Byte × Bool) :=
  let h := s.radioHolder k
  let hd := respHdr acked (s.ctxNum k 0x0C5 1 % 4) more
  match ftype with
  | 9 =>
    let q := s.radioSeq k
    q.1.buildRekey rx k h [] (hd ++ exchHeader 4 mode false false 127 q.2)
  | 2 =>
    let q := s.radioSeq k
    q.1.buildTraffic rx k h 2 [] (hd ++ exchHeader (s.cmdReq k) mode false false 127 q.2
      ++ s.ctxBytes k 0x408 (s.ctxNum k 0x400 2))
  | 7 =>
    match s.hoOut.find? (fun x => x.session == k && x.payload != []) with
    | some x => s.buildTraffic rx k h 7 [] (hd ++ x.payload ++ le x.node 1)
    | none => match s.rassoc k with
      | some a => s.buildTraffic rx k h 7 [] (hd ++ s.assignOf a)
      | none => (s, none)
  | _ => s.buildTraffic rx k h 11 [] hd

/-- Builds the responder of a pair (R268, R272): a command that does not fit fails as a build refused (R143, R300), and the meter
is acknowledged. -/
def State.respBuild (s : State) (p : PairNow) : State :=
  match p.acked with
  | none => s
  | some c =>
    if p.outcome = 5 ∨ p.tx ≠ [] then s
    else
      let k := p.session
      let wants := s.respWants k
      let mode := s.chanMode p.rx (s.ctxNum k 0x0C5 1 % 4)
      let ftype := wants.headD 11
      let r := s.respFrame p.rx k ftype c (decide (1 < wants.length)) mode
      let fits := match r.2 with
        | some (m, _) => s.fitsDown p.rx mode m.length
        | none => false
      -- a command whose frame is longer than a payload may be (R143)
      let long := ftype == 2 && decide (1016 < 6 + (exchHeader 0 mode false false 127 0).length + s.ctxNum k 0x400 2)
      let r : (State × Option (List Byte × Bool)) × Nat :=
        if fits || ftype == 11 || (r.2.isNone && !long) then ((r.1, if fits then r.2 else none), ftype)
        else
          let s := if long then r.1 else s.raise Ev.LENGTH_REJECT p.rx
          let s := if ftype = 2 then s.cmdFail k (s.radioHolder k) else s
          let a := s.respFrame p.rx k 11 c false mode
          ((a.1, a.2.filter (fun x => s.fitsDown p.rx mode x.1.length)), 11)
      match r.1.2 with
      | none => r.1.1
      | some (mpdu, waits) =>
        r.1.1.onMac (fun m => { m with pairs := m.pairs.map (fun (x : PairNow) =>
          if x.rx = p.rx ∧ x.session = k then { x with tx := mpdu, txType := r.2, wait := if waits then 1 else 0 } else x) })

/-! ### JOINs -/

/-- A JOIN refused or without a place raises its radio event (R281). -/
def State.radioRefuse (s : State) (j : RJoin) : State :=
  let hold := s.tick + sTicks (60 * s.get F.PLN_ASSOC_REFUSE_HOLD)
  { s with refused := s.refused ++ [(j.eui, hold)] }.raise Ev.RADIO_ASSOC_REFUSED 0xFFFE

/-- The image of a radio slot opened as PROVISIONAL (R282, R286), or handed over with an image of its own (R390). -/
def State.radioImage (s : State) (k eui ver slot chan phase : Nat) : List Byte :=
  patch (s.newImage k eui ver true 0 [] 0 0) 0x0C1
    (le slot 1 ++ le chan 1 ++ le (s.get F.MAC_ASSOC_PERIOD) 1 ++ le phase 1)

/-- The ASSIGN of a radio association joins the frames of the contention slot (R282, R302). -/
def State.assignQueue (s : State) (a : RadioAssoc) : State :=
  let payload := s.assignOf a
  let hd : RtHdr := ⟨1, a.path.length + 1, s.nodeId, 0, 0, a.path⟩
  let body := (if a.mesh then hd.bytes else []) ++ payload
  let m := macBytes ⟨7, false, false, a.mesh, 0xFFFE, 0, 0, 0, 0⟩ ++ body
  -- a source route leaves on the head that holds its first relay's pair (R300)
  let head := match a.path.head? with
    | some x => if a.mesh && s.assigned x then s.rchan x / 8 else a.head
    | none => a.head
  (s.downPut ⟨0, 4, [head], s.tick, a.session, 7, m ++ le (crc32 m).toNat 4, 0⟩).1

/-- Session `k` is a radio session (R225): a line session's planner area becomes 0, and what the planner has of it goes (R226). -/
def State.radioBecome (s : State) (k h : Nat) : State :=
  let f := s.ctxNum k 0x001 1
  let s := if f / 2 % 2 = 1 then s
    else { (s.ctxUpdate k 0x040 (List.replicate 0x40 0) h).ctxPut k 0x202 2 0xFFFE h with
      planQ := s.planQ.filter (fun q => q.session != k), overdue := s.overdue.filter (· != k) }
  (s.ctxPut k 0x001 1 (f / 4 * 4 + 2 + f % 2) h).onSlot k (fun x => { x with radio := true })

/-- A JOIN heard on the radio is answered (R281, R282, R287, R302). -/
def State.radioJoin (s : State) (j : RJoin) : State :=
  let known := s.sesOfEui j.eui
  let ver := min j.ver (s.get F.PLN_KLP_MAX)
  let pairIn := fun (s : State) =>
    if j.mesh then some (8 * j.head, 0, 0) else s.freePair j.head (j.caps % 8) (j.caps.testBit 3 && ver != 0)
  if !s.bit F.MAC_CTRL_ASSOC_EN || s.refused.any (fun x => x.1 == j.eui && decide (s.tick < x.2)) then s
  else if j.ver < s.get F.PLN_KLP_FLOOR then s.radioRefuse j
  else
    let go := fun (s : State) (k : Nat) (opened : Bool) =>
      let a : RadioAssoc := ⟨k, j.eui, ver, 0, 0, opened, false, j.mesh, j.path, j.head, s.mac.sfs, none, 0⟩
      ((s.onMac (fun m => { m with assocs := m.assocs.filter (fun x => x.session != k) ++ [a] })).assignQueue a).macRelease k
    match known with
    | some k =>
      let l := s.leaseTry k 3
      if !l.2 then s
      else
        let was := ((s.rassoc k).map (·.opened)).getD false
        -- the pair that a hold still reserves is released first; the session gets a new one (R287)
        let t := l.1.pairFree k 3
        match pairIn t with
        | none => ((if s.rstate k = 2 then t else l.1).macRelease k).raise Ev.RADIO_ASSOC_FULL k
        | some (chan, slot, phase) =>
          let t := t.radioBecome k 3
          go (if j.mesh then t else t.setPair k slot chan (t.get F.MAC_ASSOC_PERIOD) phase 3) k was
    | none =>
      match s.freeAddr, pairIn s with
      | some k, some (chan, slot, phase) =>
        let r := s.openSlot k 3 (s.radioImage k j.eui ver slot (if j.mesh then 0 else chan) phase)
        if r.2 then go r.1 k true else s
      | _, _ => s.raise Ev.RADIO_ASSOC_FULL 0xFFFE

/-- Every JOIN that waits is answered; in SPOOL_FULL they wait on (R243). -/
def State.joinsAnswer (s : State) : State :=
  if s.bit F.SES_STATUS_SPOOL_FULL then s else
  let l := s.mac.joins
  l.foldl (fun s j => s.radioJoin j) (s.onMac (fun m => { m with joins := [] }))

/-- A JOIN accepted on the radio (R281): copies of one EUI are merged and the head of highest RSSI is kept. -/
def State.joinHeard (s : State) (j : RJoin) : State :=
  if s.cacheOnly then s else match s.mac.joins.find? (fun x => x.eui == j.eui) with
  | some x => if x.rssi < j.rssi then
      s.onMac (fun m => { m with joins := m.joins.map (fun y => if y.eui == j.eui then j else y) }) else s
  | none => s.onMac (fun m => { m with joins := m.joins ++ [j] })

end Sys2Proof.Machine
end

