-- ==== Sys2Proof/Machine/Accept.lean ====
section
/-! DEFINITION. From a decoded MPDU to its effect: the verdicts of R141 and R142, the counter check (R339 to R343), repeats and
duplicates (R340, R175), the context update and the record (R239, R411), rate adaptation (R200, R277), and what an exchange or a
pair makes of the frame (R186, R274). -/
namespace Sys2Proof.Machine
open Sys2Proof

/-! ### Verdicts -/

/-- The event of a verdict (R142), if the frame unit raises one. -/
def verdictEv (code : Nat) : Option Nat := match code with
  | 2 => some Ev.FCS_ONLY_ERROR
  | 5 => some Ev.ERASED_REJECT
  | 6 => some Ev.FCS_REJECT
  | 7 => some Ev.TYPE_REJECT
  | 8 => some Ev.LENGTH_REJECT
  | 9 => some Ev.ADDRESS_REJECT
  | 10 => some Ev.VERSION_REJECT
  | 12 => some Ev.UNSEC_REJECT
  | 13 => some Ev.BLOCK_INCOMPLETE
  | _ => none

/-- The verdict on a body (R142): the registers of its receiver, or of its group's reference, and the event.  A frame handed off by
another site has no receiver here. -/
def State.verdict (s : State) (b : Body) (code : Nat) : State :=
  if b.via.isSome then s
  else
    let o := rxO b.rx
    let s := ((s.showHdr b.rx b.hdr).put F.STR_FRM_LAST_VERDICT o code).put F.STR_FRM_LAST2_ERASED_PCT o b.erasedPct
    let s := if code = 14 then s
      else if code = 1 then s.incSat F.STR_FRM_CNT_A_ACCEPTED o
      else if code = 2 then (s.incSat F.STR_FRM_CNT_A_ACCEPTED o).incSat F.STR_FRM_CNT_B_FCS_ONLY o
      else s.incSat F.STR_FRM_CNT_A_REJECTED o
    match verdictEv code with
    | some e => s.raise e b.rx
    | none => s

/-- The MAC fields of `STR_FRM_LAST` (R145). -/
def State.showMac (s : State) (b : Body) (m : Mac) : State :=
  if b.via.isSome then s
  else (s.putB F.STR_FRM_LAST_SECURED (rxO b.rx) m.secured).put F.STR_FRM_LAST_TYPE (rxO b.rx) m.ftype

/-- The pair of a body's receiver ends REJECTED unless it is decided already (R274). -/
def State.pairReject (s : State) (b : Body) : State :=
  if b.via.isSome then s
  else s.onMac (fun m => { m with pairs := m.pairs.map (fun (p : PairNow) =>
    if p.rx = b.rx ∧ p.outcome ≤ 1 ∧ p.acked.isNone then { p with outcome := 3 } else p) })

/-- The receivers of a body. -/
def Body.heard (b : Body) : List Nat := if b.group.isEmpty then [b.rx] else b.group

/-- What a frame that is no reply leaves: a pair ends REJECTED, and the exchange ends unless its receivers may still give a reply;
the outcome is the one given where none comes (R186). -/
def State.lostReply (s : State) (b : Body) (outcome : Nat) : State :=
  if b.via.isSome then s
  else
    let s := (b.heard.foldl (fun (s : State) r => s.onRx r (fun x => { x with failed := outcome })) s).pairReject b
    if s.rxBusy b.rx then s else s.rxOutcome b.rx outcome

/-- A frame that was accepted and yet is no reply. -/
def State.notReply (s : State) (b : Body) : State := s.lostReply b 3

/-- A frame was not accepted (R105, R186): where a receiver put the collision mark on it, its status changes from DELIVERED to
COLLIDED, and the reply counts as lost. -/
def State.unaccepted (s : State) (b : Body) : State :=
  if b.via.isSome then s
  else
    let s := b.collided.foldl (fun (s : State) r =>
      let s := if s.get F.STR_LAST_RX_STATUS (rxO r) = 1 then s.put F.STR_LAST_RX_STATUS (rxO r) 5 else s
      s.incSat F.STR_CNT_MISC_COLLISION (rxO r)) s
    s.lostReply b (if b.collided.isEmpty then 3 else 5)

/-- A rejected frame (R142). -/
def State.frameBad (s : State) (b : Body) (code : Nat) : State := (s.verdict b code).unaccepted b

/-! ### Rate adaptation -/

/-- The margin, the up count and the mode after one sample (R200), over a list of allowed modes. -/
def State.adapt (s : State) (line : Bool) (l : List Mode) (cur : Mode) (margin sample : Int) (first fixed : Bool) (up : Nat) :
    Int × Nat × Mode :=
  let m := if first then sample else moved margin sample (s.get F.PLN_RATE_AVG_SHIFT)
  let step := fun (x : Mode) => (predicted line m cur x, 0, x)
  if fixed then (m, up, cur)
  else if m < 2 * (s.get F.PLN_RATE_DOWN_DB : Int) then
    match modeDown line l cur with
    | some x => step x
    | none => (m, 0, cur)
  else match modeUp line l cur with
    | none => (m, 0, cur)
    | some x =>
      if 2 * (s.get F.PLN_RATE_UP_DB : Int) ≤ predicted line m cur x then
        if s.get F.PLN_RATE_UP_COUNT ≤ up + 1 then step x else (m, up + 1, cur)
      else (m, 0, cur)

/-- The mode of a received frame. -/
def PhyHdr.mode (h : PhyHdr) : Mode := ⟨h.rate, h.levels, h.coding⟩

/-- No reply of session `k` has yet given a margin (R200). -/
def State.firstSample (s : State) (k : Nat) : Bool :=
  let v := tget (fun _ => 0) s.replied k
  s.ctxNum k 0x05C 8 == 0 && (v == 0 || decide (512 ≤ v))

/-- Session `k` has replied in mode `m`, its first byte: 256 more once a reply has given its margin, 512 before (R200). -/
def State.repliedIn (s : State) (k : Nat) (m : Mode) : State :=
  { s with replied := tset (fun _ => 0) s.replied k ((if s.firstSample k then 512 else 256) + m.byte) }

/-- A line session's margin and mode after an accepted reply (R200). -/
def State.adaptLine (s : State) (k h : Nat) (b : Body) : State :=
  let p := b.rx / 4
  let t := b.rx % 4
  let cur := modeOf (s.ctxNum k 0x046 1)
  let r := s.adapt true (s.allowedModes k (s.withTriple p) t) cur (s.ctxInt k 0x048 2) (b.snr - b.hdr.mode.req) (s.firstSample k) (s.pinned k 2)
    (s.ctxNum k 0x047 1)
  s.ctxUpdate k 0x046 (le r.2.2.byte 1 ++ le r.2.1 1 ++ le (toSigned 16 r.1) 2) h

/-- A free pair on the lowest-numbered channel of lower symbol rate (R277): channel, slot, phase. -/
def State.slowerPair (s : State) (n per : Nat) : Option (Nat × Nat × Nat) :=
  let rate := fun n => symRate false (s.get F.STR_FRM_CFG_RX_RATE (rxO (576 + n)))
  let held := s.pairsHeld
  (List.range 32).findSome? (fun x =>
    if rate x < rate n then (s.freeOn held x per).map (fun f => (x, f.1, f.2)) else none)

/-- A radio session's margin and coding after an accepted frame in its pair (R277); below `DOWN_DB` at rate 1/2 it is reassigned
where a slower channel has a free pair. -/
def State.adaptRadio (s : State) (k : Nat) (b : Body) : State :=
  let h := s.radioHolder k
  let n := s.rchan k
  let base := s.chanMode b.rx 0
  let l := [0, 1, 2].map (fun c => ({ base with coding := c } : Mode))
  let cur : Mode := { base with coding := s.ctxNum k 0x0C5 1 % 4 }
  let first := s.ctxNum k 0x0D0 2 == 0
  let r := s.adapt false l cur (s.ctxInt k 0x0D4 2) (b.snr - b.hdr.mode.req) first false (s.ctxNum k 0x0D3 1)
  let s := (s.ctxPut k 0x0C5 1 r.2.2.coding h).ctxUpdate k 0x0D3 (le r.2.1 1 ++ le (toSigned 16 r.1) 2) h
  if cur.coding = 0 ∧ r.1 < 2 * (s.get F.PLN_RATE_DOWN_DB : Int) ∧ (s.rassoc k).isNone ∧ s.rstate k = 1
      ∧ !s.hoOut.any (fun x => x.session == k) then
    match s.slowerPair n (s.rper k) with
    | none => s
    | some (chan, slot, phase) =>
      let old := s.rslot k + 256 * n + 0x8000
      let f := s.rphase k
      let s := (s.setPair k slot chan (s.rper k) phase h).ctxPut k 0x0E8 2 old h
      let a : RadioAssoc := ⟨k, s.euiOf k, s.verOf k, 0, 0, false, true, false, [], chan / 8, s.mac.sfs, none, f⟩
      s.onMac (fun m => { m with assocs := m.assocs ++ [a] })
  else s

/-! ### What an exchange makes of a frame -/

/-- The exchange for which a body of session `k` may be the reply (R183). -/
def State.replyOf (s : State) (b : Body) (k : Nat) : Option Exch :=
  if b.via.isSome ∨ 576 ≤ b.rx then none
  else match s.exchOfRx b.rx with
    | some e => if e.session = k ∧ (e.step = 2 ∨ e.step = 4) then some e else none
    | none => none

/-- The ports that heard a body, with their sync SNR in 0.25 dB units (R198). -/
def Body.heardBy (b : Body) : List (Nat × Int) := b.syncs.map (fun x => (x.1 / 4, x.2))

/-- The METER_DATA body of the reply to a command's exchange is kept for its response (R415, R416). -/
def State.answered (s : State) (e : Exch) (body : List Byte) : State :=
  if e.cls ≠ 0 then s
  else { s with exchs := s.exchs.map (fun (x : Exch) => if x.session = e.session then { x with answer := body } else x) }

/-- The exchange of session `k` ends with its reply accepted, or owes an ALARM its ACK (R183, R203). -/
def State.replyTaken (s : State) (e : Exch) (alarm : Bool) : State :=
  if alarm then { s with exchs := s.exchs.map (fun (x : Exch) =>
    if x.session = e.session then { x with step := 7, needAck := true } else x) }
  else s.exchEnd e.session 1

/-- The turnaround measured from a reply (R194), in ticks. -/
def State.turnOf (s : State) (e : Exch) (b : Body) : Int :=
  let m := b.hdr.mode
  let r0 := ((s.rounds.find? (fun r => r.num == e.round)).map (·.e)).getD s.tick
  (b.sync : Int) - m.ticks true (s.syncLen b.rx) - m.ticks true (s.preBits b.rx) - r0

/-- The sync SNR at port `p` of the reply whose body is `b`, in 0.25 dB units (R170): of a member that joined, or of a receiver of the
same slot that found the same sync word by itself. -/
def State.heardOn (s : State) (b : Body) (p : Nat) : Option Int :=
  match b.heardBy.find? (fun x => x.1 == p) with
  | some x => some x.2
  | none =>
    let r := 4 * p + b.rx % 4
    let t := (s.rx r).syncTick
    if t != 0 && decide (((t : Int) - b.sync).natAbs ≤ s.rxSymTicks b.rx) then some (dbRound (s.rx r).syncSnr 4) else none

/-- The planner's part of an accepted line reply (R167, R168, R170, R194, R198, R200): turnaround, margin and mode, phase report, and
the ports that heard it.  DESIGN CHOICE, log entry 128: the 100 ms of R168 count from this tick.  The flag says that the turnaround
lies outside its limits. -/
def State.replyStats (s : State) (e : Exch) (b : Body) (k h d : Nat) : State × Bool :=
  let t := s.turnOf e b
  let ok := e.step != 2 || (decide (172800 ≤ t) && decide (t ≤ 1939200))
  let s := if e.step = 2 && ok then
      let est := s.ctxNum k 0x04C 4
      s.ctxPut k 0x04C 4 ((est : Int) + roundAway (((t - est : Int) : Rat) / 8)).toNat h
    else s
  let s := s.adaptLine k h b
  let heard := b.heardBy
  let s := { s with
    replied := tset (fun _ => 0) s.replied k (256 + b.hdr.mode.byte),
    portSnr := heard.foldl (fun t x => tset (fun _ => 0) t (16 * k + x.1 % 16) (x.2 + 4096).toNat) s.portSnr,
    exchs := s.exchs.map (fun (x : Exch) => if x.session = k then { x with heard := x.heard ++ heard } else x) }
  let port := e.ports.headD 0
  let snrs := (s.withTriple port).map (s.heardOn b)
  let rep : Option PhaseRep :=
    if 1 ≤ s.verOf k then (if d = 0xFFFF then none else some (.delay (BitVec.ofNat 16 d) e.pollS))
    else match snrs with
      | [some a, some b, some c] => some (.triple a b c)
      | _ => none
  (match rep with
   | some r => { s with phaseReps := s.phaseReps ++ [(⟨k, port, r, s.tick, none⟩ : PhaseDue)] }
   | none => s, !ok)

/-! ### Records -/

/-- The body of a METER_DATA record (R411). -/
def State.meterBody (s : State) (k : Nat) (b : Body) (m : Mac) (payload : List Byte) : List Byte :=
  le (s.euiOf k) 8 ++ le m.counter 4 ++ le m.ftype 1 ++ [if 576 ≤ b.rx then 1 else 0] ++ le b.rx 2
    ++ le (toSigned 16 b.rssi) 2 ++ le (toSigned 16 b.snr) 2 ++ le (s.ctxNum k 0x080 1) 1 ++ le b.hdr.mode.byte 1
    ++ le payload.length 2 ++ payload

/-- The record of an accepted frame, with its FLAGS (R240, R407, R411); none for types that make no record, and for a radio DATA
frame with nothing but its prefix (R271). -/
def State.frameRec (s : State) (k : Nat) (w : AccWait) (m : Mac) (payload : List Byte) : Option Rec :=
  let cls := if m.ftype = 4 then some 0 else if m.ftype = 1 then some (if (s.slot k).prio then 2 else 3) else none
  let flags := (if (s.ctxNum k 0x180 1).testBit 3 then 1 else 0) + (if w.fcsOnly then 2 else 0)
  match cls with
  | none => none
  | some c =>
    if m.ftype = 1 && decide (576 ≤ w.body.rx) && payload.isEmpty then none
    else some ⟨c, 0x01, k, s.tick, s.meterBody k w.body m payload, [], 0, 0, flags⟩

/-- The flow statistics of an accepted frame (R227).  A frame handed off by another site leaves `LAST_RSSI` alone (R307). -/
def State.flowCount (s : State) (k h : Nat) (b : Body) (records : Nat) (follow : List Rec) : State :=
  let s := if records = 0 then s else s.ctxPut k 0x308 4 (s.ctxNum k 0x308 4 + records) h
  let s := if b.via.isSome then s else s.ctxUpdate k 0x310 (le (toSigned 16 b.rssi) 2) h
  let s := s.ctxUpdate k 0x312 (le (toSigned 16 b.snr) 2) h
  s.ctxUpdate k 0x300 (le (s.ctxNum k 0x300 4 + 1) 4) h follow

/-- An accepted frame's tick and flow statistics (R225, R227). -/
def State.flowStats (s : State) (k h : Nat) (b : Body) (records : Nat) (follow : List Rec) : State :=
  (s.ctxPut k 0x020 8 s.tick h).flowCount k h b records follow

/-! ### The radio pair -/

/-- The frame of a pair was accepted (R272, R295): the pair's session is answered with the frame's counter, when that was in time,
and its timing and coding follow.  `pre` is the payload's prefix, none for a repeat. -/
def State.pairAccept (s : State) (b : Body) (m : Mac) (pre : Option (Nat × Nat)) : State :=
  if b.via.isSome ∨ b.rx < 576 then s
  else match s.mac.pairs.find? (fun p => p.rx == b.rx && p.outcome != 5), s.mac.slot with
    | some p, some (_, st) =>
      let s := if pre.isSome then s.adaptRadio p.session b else s
      let timely := decide (s.mac.phase ≤ 1) && decide (s.tick + 7680 ≤ st + s.p2Ticks)
      let p' : PairNow := { p with outcome := 1, pre := if pre.isSome then pre else p.pre, acked := if timely then some m.counter else none }
      let s := s.onMac (fun x => { x with pairs := x.pairs.map (fun y => if y = p then p' else y) })
      if s.mac.phase = 1 then s.respBuild p' else s
    | _, _ => s

/-! ### The end of acceptance -/

/-- A CMD_RESPONSE or REKEY answers the session's command on the radio (R271, R273, R301). -/
def State.radioAnswer (s : State) (k h : Nat) (b : Body) (m : Mac) (seq : Nat) (payload : List Byte) : State :=
  let last := match s.mac.sends.find? (fun x => x.session == k) with
    | some x => x.seq
    | none => tget (fun _ => 0) s.mac.seqs k
  if seq ≠ last then s
  else
    let s := s.onMac (fun x => { x with sends := x.sends.filter (fun y => y.session != k), cmdOut := x.cmdOut.filter (· != k) })
    if m.ftype = 3 then (s.cmdEnd k 0 h (s.meterBody k b m payload)).ctxPut k 0x205 1 0 h else s

/-- A reassignment is acknowledged in the new pair (R277). -/
def State.reassigned (s : State) (k h : Nat) (b : Body) : State :=
  match s.rassoc k with
  | some a =>
    if a.again ∧ b.via.isNone ∧ b.rx = 576 + s.rchan k then
      (s.ctxPut k 0x0E8 2 0 h).onMac (fun m => { m with assocs := m.assocs.filter (fun x => x.session != k) })
    else s
  | none => s

/-- An accepted frame has passed the counter check (R239): the context follows, the record is made, routes are learned, and the
exchange or the pair is served.  A line reply with another `SEQ` is STALE (R185) and leaves no record. -/
def State.frameDone (s : State) (w : AccWait) : State :=
  let b := w.body
  let k := w.session
  let m := macOf w.mpdu
  let h := if s.isRadio k then s.radioHolder k else s.servant k
  let byte := fun j => (w.plain.getD j 0).toNat
  let num := fun j => ofLe ((w.plain.drop j).take 2)
  let answers := m.ftype == 3 || m.ftype == 9
  if 576 ≤ b.rx then
    let payload := w.plain.drop (if answers then 4 else 2)
    let rc := s.frameRec k w m payload
    let s := s.flowStats k h b (if rc.isSome then 1 else 0) rc.toList
    let s := if answers then s.radioAnswer k h b m (num 2) payload else s
    let s := if m.ftype = 11 then s.reassigned k h b else s
    let s := match (if m.routed then rtOf (payloadOf w.mpdu) else none) with
      | some rt => if b.via.isSome then s.lastFseq k h rt else s.learn k h rt b.snr
      | none => s
    s.pairAccept b m (some (byte 0, byte 1))
  else
    let payload := w.plain.drop 4
    match s.replyOf b k with
    | some e =>
      let reply := m.ftype == 1 || answers || m.ftype == 4
      if reply && num 0 != e.seq then
        (s.flowStats k h b 0 []).exchEnd k 8
      else
        let rc := if reply then s.frameRec k w m payload else none
        let s := s.flowStats k h b (if rc.isSome then 1 else 0) rc.toList
        if !reply then s.notReply b
        else
          let r := s.replyStats e b k h (num 2)
          if r.2 then r.1.exchEnd k 3 else (r.1.answered e (s.meterBody k b m payload)).replyTaken e (m.ftype == 4)
    | none =>
      let rc := s.frameRec k w m payload
      (s.flowStats k h b (if rc.isSome then 1 else 0) rc.toList).notReply b

/-- A repeat of the last accepted frame (R340): answered, counted, and nothing else but the flow statistics. -/
def State.frameRepeat (s : State) (w : AccWait) : State :=
  let b := w.body
  let k := w.session
  let m := macOf w.mpdu
  let h := if s.isRadio k then s.radioHolder k else s.servant k
  let s := (s.incSat F.CIP_CNT_B_REPEAT).flowCount k h b 0 []
  if 576 ≤ b.rx then s.pairAccept b m none
  else match s.replyOf b k with
    | some e => (s.answered e (s.meterBody k b m (w.plain.drop 4))).replyTaken e (m.ftype == 4)
    | none => s.notReply b

/-- A frame dropped as a replay (R340). -/
def State.frameReplay (s : State) (w : AccWait) : State :=
  ((s.incSat F.CIP_CNT_A_REPLAY).raise Ev.COUNTER_REPLAY w.session).notReply w.body

/-! ### Associations -/

/-- The session whose association awaits an ACK existed before it (R341). -/
def State.sessionExisted (s : State) (k : Nat) : Bool :=
  match s.assocs.find? (fun a => a.session == k) with
  | some a => !a.opened
  | none => match s.rassoc k with
    | some a => !a.opened || a.ho.isSome
    | none => true

/-- An association ACK takes effect (R208, R282, R341): the counters start afresh, the session is ACTIVE where the ASSIGN placed
it, and the event names it. -/
def State.assocDone (s : State) (w : AccWait) : State :=
  let k := w.session
  let m := macOf w.mpdu
  let epoch := ofLe ((w.plain.drop (if 576 ≤ w.body.rx then 2 else 0)).take 2)
  let h := if 576 ≤ w.body.rx then s.radioHolder k else s.servant k
  let s := s.keysEraseEui (s.euiOf k)
  let s := s.ctxUpdate k 0x180 [0] h
  let s := s.ctxUpdate k 0x182 (le epoch 2 ++ le w.prov 2 ++ le 0 2 ++ le 0 4 ++ le 0 4 ++ le 0 4 ++ le 0 4 ++ le m.counter 4
    ++ le 0 4 ++ le 0 4) h
  match s.assocs.find? (fun a => a.session == k) with
  | some a =>
    let f := s.ctxNum k 0x001 1
    let s := s.ctxUpdate k 0x000 (le 2 1 ++ le (f / 4 * 4 + f % 2) 1 ++ le a.ver 1) h
    -- a line session leaves the radio and mesh areas 0 (R286, R309)
    let s := if f / 2 % 2 = 0 then s
      else (s.ctxUpdate k 0x0C0 (List.replicate 0xC0 0) h).ctxUpdate k 0x200 (List.replicate 0x100 0) h
    let ports := (List.range 4).map (fun j => match a.ports[j]? with
      | some x => BitVec.ofNat 8 (128 + x.1 % 16)
      | none => (0 : Byte))
    -- a pinned field keeps its value (R209, R226)
    let keep := fun (b : Nat) (old new : List Byte) => if s.pinned k b then old else new
    let cord := if s.pinned k 0 then s.cordOf k else ((a.ports.head?).map (·.1)).getD 0 / 16
    let slot := if s.pinned k 1 then s.ctxNum k 0x041 1 / 16 % 4 else a.slot
    let s := s.ctxUpdate k 0x041 (le (cord + 16 * slot) 1 ++ keep 0 (s.ctxBytes k 0x042 4) ports
      ++ keep 2 (s.ctxBytes k 0x046 1) (le a.joinMode.byte 1)) h
    let s := (s.ctxPut k 0x04C 4 a.turn h).ctxPut k 0x054 8 s.tick h
    let s := ({ s with assocs := s.assocs.filter (fun x => x.session != k) }.repliedIn k w.body.hdr.mode).raise Ev.ASSOC_DONE k
    let s := s.flowStats k h w.body 0 []
    match s.replyOf w.body k with
    | some e => s.exchEnd e.session 1
    | none => s
  | none => match s.rassoc k with
    | none => s
    | some a =>
      let s := s.radioBecome k h
      let s := s.ctxUpdate k 0x000 (le 2 1 ++ le (s.ctxNum k 0x001 1) 1 ++ le a.ver 1) h
      let s := s.ctxPut k 0x0C0 1 (if a.mesh then 0 else 1) h
      -- a meter heard in its own pair has no route entry (R296)
      let s := if a.mesh then s else s.routeForget k
      let s := s.onMac (fun m => { m with assocs := m.assocs.filter (fun x => x.session != k) })
      let s := (s.raise Ev.RADIO_ASSOC_DONE k).flowStats k h w.body 0 []
      let s := match (if m.routed then rtOf (payloadOf w.mpdu) else none) with
        | some rt => if w.body.via.isSome then s.lastFseq k h rt else s.learn k h rt w.body.snr
        | none => s
      let s := match a.ho with
        | some (node, addr) =>
          -- HO_DONE to the site that handed the session over (R390)
          let s := (s.brdSend 0x25 node ([(3 : Byte)] ++ le addr 2)).1
          let s := ((s.put F.BRD_HO_STAT_SESSION 0 k).put F.BRD_HO_STAT_NODE 0 node).put F.BRD_HO_STAT_RESULT 0 1
          (s.incSat F.BRD_CNT_B_HANDOVERS).raise Ev.HANDOVER_END k
        | none => s
      s.pairAccept w.body m (some ((w.plain.getD 0 0).toNat, (w.plain.getD 1 0).toNat))

/-! ### The counter check -/

/-- A v4 frame under E + 1 commits the new epoch (R343). -/
def State.commitsEpoch (s : State) (k : Nat) (m : Mac) (plain : List Byte) (pre : Nat) : Bool :=
  decide (1 ≤ s.rekeySent k)
    && (m.purpose == 0 || (m.purpose == 1 && m.ftype == 9
        && ofLe ((plain.drop pre).take 2) == s.epochOf k + 1
        && ofLe ((plain.drop (pre + 2)).take 4) == s.rekeySent k - 1))

/-- A new frame passes: rx_next follows it (R339). -/
def State.counterPass (s : State) (w : AccWait) : State :=
  let k := w.session
  let c := (macOf w.mpdu).counter
  let h := if s.isRadio k then s.radioHolder k else s.servant k
  let s := s.ctxPut k 0x190 4 (c + 1) h
  let s := s.ctxPut k 0x194 4 (s.rxm k) h
  let s := if 0xFFFFF000 ≤ c then s.enterDue k h else s
  let inexact := (s.ctxNum k 0x180 1).testBit 3
  let s := if inexact && decide (s.ctxNum k 0x19C 4 ≤ c) then s.ctxPut k 0x180 1 (s.ctxNum k 0x180 1 % 8) h else s
  s.frameDone w

/-- The counter check of an accepted frame whose context its holder has leased (R339 to R343).  A frame that needs a Vault write
waits for it; while the Splice partner has not acknowledged the session's previous write, it waits to be checked again (R377). -/
def State.counterCheck (s : State) (w : AccWait) : State :=
  let k := w.session
  let m := macOf w.mpdu
  let c := m.counter
  let h := if s.isRadio k then s.radioHolder k else s.servant k
  let ks := 0x080000 + 8 * k
  let hold := fun (s : State) (n what : Nat) =>
    let a : AccWait := { w with left := n, what := what }
    { s with accWait := a :: s.accWait }
  let rxNext := s.ctxNum k 0x190 4
  if m.purpose = 2 then
    let epoch := ofLe ((w.plain.drop (if 576 ≤ w.body.rx then 2 else 0)).take 2)
    if m.ftype ≠ 11 ∨ !s.awaitsAck k ∨ c ≤ s.ctxNum k 0x198 4
        ∨ (s.sessionExisted k ∧ w.prov = s.provOf k ∧ epoch ≤ s.epochOf k) then s.frameReplay w
    else if s.vaultUnacked k then hold s 0 4
    else
      let s := s.vaultWrite ks (keyStateBytes epoch w.prov 0 0) (.keyState k)
      let s := (s.vaultWrite (8 * k) (le 0 4) (.epoch k)).vaultWrite (8 * k + 4) (le 0 4) (.epoch k)
      hold s 3 2
  else if w.prov ≠ s.provOf k then s.frameReplay w
  else if w.epoch = s.epochOf k + 1 then
    if !s.commitsEpoch k m w.plain (if 576 ≤ w.body.rx then 4 else 4) then s.frameReplay w
    else if s.vaultUnacked k then hold s 0 4
    else
      let s := s.vaultWrite ks (keyStateBytes w.epoch w.prov 0 0) (.epoch k)
      let s := s.vaultWrite (8 * k) (le 4096 4) (.epoch k)
      let s := s.vaultWrite (8 * k + 4) (le (4096 * (c / 4096 + 1)) 4) (.epoch k)
      hold s 3 1
  else if w.epoch ≠ s.epochOf k then s.frameReplay w
  else if c = 0xFFFFFFFF then ((s.raise Ev.NONCE_EXHAUSTED k).enterRequired k h).notReply w.body
  else if c + 1 = rxNext then s.frameRepeat w
  else if c < rxNext then s.frameReplay w
  else if s.rxm k ≤ c then
    if s.vaultUnacked k then hold s 0 4
    else
      let n := min (4096 * (c / 4096 + 1)) 0xFFFFFFFF
      hold (s.vaultWrite (8 * k + 4) (le n 4) (.reserve k 1 n)) 1 0
  else s.counterPass w

/-- The Vault writes of an accepted frame are done (R339, R341, R343).  After a receive mark the frame passes the counter check again, which now sees
what an earlier frame of the session left (R347). -/
def State.accFinish (s : State) (w : AccWait) : State :=
  let k := w.session
  let m := macOf w.mpdu
  let h := if s.isRadio k then s.radioHolder k else s.servant k
  match w.what with
  | 0 => s.counterCheck w
  | 2 => s.assocDone w
  | _ =>
    let c := m.counter
    let sent := s.ctxNum k 0x186 2
    let next := if m.purpose = 1 then c + 1 else c
    let s := s.setCstate k 0 h
    let s := s.ctxUpdate k 0x182 (le w.epoch 2 ++ le w.prov 2 ++ le 0 2 ++ le sent 4 ++ le 4096 4 ++ le next 4
      ++ le (4096 * (c / 4096 + 1)) 4) h
    let s := s.ctxPut k 0x1A0 4 c h
    let s := s.raise Ev.REKEY_DONE k
    if m.purpose = 1 then s.frameDone w else s.counterCheck w

/-! ### After the verdict -/

/-- A frame of session `k` waits for its Vault writes: the session's later frames wait behind it (R347). -/
def State.accBusy (s : State) (k : Nat) : Bool := s.accWait.any (fun a => a.session == k && a.what != 4)

/-- A frame accepted under R141 (R175, R215, R233): duplicates of a combining group and frames of PARKED sessions are dropped; else
the session's holder takes the lease and the counter check follows, behind the session's frames that wait for theirs (R347). -/
def State.accepted (s : State) (w : AccWait) : State :=
  let b := w.body
  let k := w.session
  let m := macOf w.mpdu
  let mine := fun (c : CombS) => b.via.isNone && decide (b.rx < 576) && c.cord == b.rx / 64
    && ((s.groupOf b.rx).map (·.1)) == some c.group
  if s.combs.any (fun (c : CombS) => mine c && c.accepted.contains (m.src, m.counter)) then s.incSat F.MNS_COMB_CNT_DUPLICATES
  else
    let s := { s with combs := s.combs.map (fun (c : CombS) =>
      if mine c then { c with accepted := c.accepted ++ [(m.src, m.counter)] } else c) }
    let h := if s.leasedBy k 7 then 7 else if 576 ≤ b.rx then 3 else s.servant k
    let l := s.leaseTry k h
    if l.2 && !s.accWait.any (fun a => a.session == k) then l.1.counterCheck w
    else ({ s with accWait := s.accWait ++ [({ w with what := 4 } : AccWait)] }).leaseAsk k h

/-- A JOIN on the line (R207): each port that accepts it adds its sync SNR; one EUI is one JOIN. -/
def State.joinLine (s : State) (b : Body) (payload : List Byte) : State :=
  let f := fun o n => ofLe ((payload.drop o).take n)
  let heard := b.heardBy
  let t := b.sync
  let up := fun (w : Sweep) =>
    if w.ports.contains (b.rx / 4) && w.slot == b.rx % 4 && w.num == f 12 2 && decide (w.e + msTicks 10 ≤ t) then
      let j := (t - (w.e + msTicks 10)) / w.slotLen
      let w := if w.good.contains j then w else { w with good := w.good ++ [j] }
      if w.joins.any (fun x => x.eui == f 0 8) then
        { w with joins := w.joins.map (fun (x : JoinS) => if x.eui == f 0 8 then { x with heard := x.heard ++ heard } else x) }
      else { w with joins := w.joins ++ [(⟨f 0 8, f 8 1 % 4, f 9 1, f 10 2, heard⟩ : JoinS)] }
    else w
  { s with sweeps := s.sweeps.map up }

/-- A BEACON of another coordinator (R283, R285): it enters the observation table, and a parent's is kept for the grid.  DESIGN CHOICE, log
entry 147: an offset that is no whole number of slots is rounded down. -/
def State.beaconHeard (s : State) (b : Body) (payload : List Byte) : State :=
  let node := (payload.getD 4 0).toNat % 64
  let m := b.hdr.mode
  let r := b.rx
  let line := decide (r < 576)
  let g := 3840 * (payload.getD 6 0).toNat
  let start : Int := (b.sync : Int) - m.ticks line (s.syncLen r) - m.ticks line (s.preBits r) - symTicks line m.rate / 2 - g
  let lf : Int := max 1 s.sfLen
  let off := (((start - s.sfStart) % lf) / max 1 s.slotLen).toNat
  let o : Obs := ⟨node, off, s.mac.sfs⟩
  let rest := s.mac.obs.filter (fun x => x.node != node)
  let old := rest.foldl (fun (a : Option Obs) x => match a with
    | none => some x
    | some y => if x.sf < y.sf then some x else some y) none
  let rest := if 16 ≤ rest.length then (match old with | some y => rest.erase y | none => rest) else rest
  let s := s.onMac (fun x => { x with obs := rest ++ [o] })
  if s.bit F.MAC_CTRL_SUBORD && node == s.get F.MAC_SUB_PARENT_ID && !line then
    s.onMac (fun x => { x with parentRx := some (b.sync, payload), parentHead := r, parentNext := (payload.drop 21).map (·.toNat) })
  else s

/-- What a routed frame accepted without a MIC teaches (R297); one handed off by another site teaches nothing (R307). -/
def State.plainLearn (s : State) (b : Body) (m : Mac) (mpdu : List Byte) : State :=
  if b.via.isSome || !m.routed || m.dest != 0 then s
  else match rtOf (payloadOf mpdu) with
    | none => s
    | some rt =>
      if s.slotUsed m.src && s.isRadio m.src then s.macOnce m.src (fun t => t.learn m.src 3 rt b.snr) else s.learnPath rt b.snr

/-- An unsecured frame that is accepted: it may teach routes, and JOIN and BEACON have an effect (R207, R281, R283, R285, R297). -/
def State.plainDone (s : State) (b : Body) (m : Mac) (mpdu : List Byte) : State :=
  let p := innerPayload m mpdu
  let s := s.plainLearn b m mpdu
  if m.ftype = 6 ∧ m.src = 0xFFFE ∧ 14 ≤ p.length then
    if b.rx < 576 then s.joinLine b p
    else
      let f := fun o n => ofLe ((p.drop o).take n)
      let rt := if m.routed then rtOf (payloadOf mpdu) else none
      let path := match rt with | some r => r.path.reverse | none => []
      -- a JOIN that comes as FLOOD comes from a meter without a pair's reach, whether relayed or not (R302)
      let j : RJoin := ⟨f 0 8, f 8 1 % 4, f 9 1, headOf b.rx, b.rssi, rt.isSome, path⟩
      let s := s.joinHeard j
      -- answered in phase 2 of the same slot, or, through relays, of the next contention slot
      if s.mac.phase = 1 ∨ j.mesh then s.joinsAnswer else s
  else if m.ftype = 8 ∧ m.src = 0 ∧ b.via.isNone then (if b.rx < 576 then (s.beaconHeard b p).notReply b else s.beaconHeard b p)
  else if b.via.isNone then s.notReply b else s

/-! ### Judging -/

/-- A secured frame gets verdict MIC, computed or not (R142, R323). -/
def State.micBad (s : State) (b : Body) : State := s.frameBad b 11

/-- A secured frame goes to the cipher engine, or gets verdict MIC without computation (R317, R323, R334). -/
def State.toCipher (s : State) (b : Body) (m : Mac) (mpdu : List Byte) (fcsOk : Bool) : State :=
  let k := m.src
  if s.bit F.CIP_STATUS_FENCED then (s.incSat F.CIP_CNT_C_FENCED_DROP).micBad b
  else if !s.bit F.CIP_STATUS_ANCHOR then s.micBad b
  else if k = 0 ∨ k = 0xFFFE ∨ (s.rxEpoch k m).isNone then (s.incSat F.CIP_CNT_B_EPOCH_MISS).micBad b
  else { s with macWait := s.macWait ++ [(⟨b, mpdu, fcsOk, s.tick, 0⟩ : MacWait)] }

/-- The last tests of an MPDU from a session, or from a meter without one (R141): its version, and whether it may be unsecured. -/
def State.judgeTo (s : State) (b : Body) (m : Mac) (mpdu : List Byte) (fcsOk : Bool) : State :=
  if m.src ≠ 0xFFFE ∧ m.src ≠ 0 ∧ b.hdr.version ≠ s.verOf m.src then s.frameBad b 10
  else if m.secured then s.toCipher b m mpdu fcsOk
  else if !(s.get F.STR_FRM_POLICY_UNSEC_TYPES).testBit m.ftype then s.frameBad b 12
  else (s.verdict b 1).plainDone b m mpdu

/-- Judges a decoded MPDU (R141). -/
def State.judge (s : State) (b : Body) (mpdu : List Byte) : State :=
  let m := macOf mpdu
  let fcsOk := fcsGood mpdu
  let len := mpdu.length - 14 - (if m.secured then 8 else 0)
  let s := s.showMac b m
  if !fcsOk && !m.secured then s.frameBad b 6
  else
    if 12 ≤ m.ftype then s.frameBad b 7
    else if 1016 < len ∨ (m.secured ∧ mpdu.length < 22) then s.frameBad b 8
    else if s.relayCase b m mpdu then
      if !fcsOk then s.frameBad b 6 else ((s.relayTake b m mpdu).1.verdict b 14).unaccepted b
    else
      let s := if fcsOk then (s.relayTake b m mpdu).1 else s
      if m.dest ≠ 0 ∧ m.dest ≠ 0xFFFF then s.frameBad b 9
      else if !s.slotUsed m.src ∧ m.src ≠ 0xFFFE then s.frameBad b 9
      else if (s.slot m.src).st = 3 then (s.incSat F.SES_FLOW_CNT_PARKED_DROP).unaccepted b
      else (s.agentTouch m.src).judgeTo b m mpdu fcsOk

end Sys2Proof.Machine
end

