-- ==== Sys2Proof/Machine/CipherOps.lean ====
section
/-! DEFINITION. What several commands do with belay jobs and with the cipher engine: the end of a job (R433), the cipher
self-test after a fence and the fence itself (R333, R334), and the end of a raw job (R330). -/
namespace Sys2Proof.Machine
open Sys2Proof

/-! ### Belay jobs -/

/-- The oldest NVM job that waits for the one in progress runs (R435). -/
def State.nvmNext (s : State) : State :=
  let nvm := fun k => s.get F.BLY_SLOT_STAT_KIND (blyO k) == 8
  if (List.range 16).any (fun k => nvm k && s.jobState k == 2) then s
  else match (List.range 16).find? (fun k => nvm k && s.jobState k == 3) with
    | some k => s.put F.BLY_SLOT_STAT_STATE (blyO k) 2
    | none => s

/-! ### The end of a lease -/

/-- Releases the lease on session `k` (R232): what is queued under it is discarded, the oldest request is granted, and a fill that
waits for an entry finds one. -/
def State.leaseEnd (s : State) (k : Nat) : State := ((s.leaseDrop k).grantNext k).fillsGo

/-- Releases the lease once what was done under it is complete. -/
def State.leaseLater (s : State) (k : Nat) : State :=
  if s.leaseBusy k then s.onMac (fun m => { m with letGo := if m.letGo.contains k then m.letGo else m.letGo ++ [k] })
  else s.leaseEnd k

/-! ### The standby's acknowledgement (R376 to R378) -/

/-- The highest `LF_SEQ` applied: a VAULT message counts once its values are in the Vault (R377). -/
def State.splApplied (s : State) : Nat :=
  s.vaultq.foldl (fun (n : Nat) w => match w.why with | .mirror q => min n (q - 1) | _ => n) s.spl.rxSeq

/-- Acknowledges what is applied; with the Vault part of a bulk transfer, `MIRROR_OK` is set (R377, R378). -/
def State.splAck (s : State) : State :=
  if s.get F.SPL_STATUS_LINK ≠ 2 ∨ !s.standsBy then s
  else
    let n := s.splApplied
    let s := s.splSend 0x16 (le n 8)
    match s.spl.bulkTo with
    | some (q, _) => if q ≤ n then { s with spl := { s.spl with bulkTo := none } }.setSplFlag 2 true else s
    | none => s

/-! ### What a job holds -/

/-- A job gives check unit `u` back: `STREAM` 0 (R359). -/
def State.chkGive (s : State) (u : Nat) : State :=
  let o := chkO u
  ((s.put F.CHK_CFG_STREAM o 0).put F.CHK_STATUS_OWNER o 0).put F.CHK_STATUS_STATE o 3

/-- The self-test run of slot `k`. -/
def State.run (s : State) (k : Nat) : Option TstRun := tget (fun _ => none) s.tst.runs k

/-- The state with the self-test run of slot `k` replaced; `BST_STATUS` shows a run in progress. -/
def State.setRun (s : State) (k : Nat) (r : Option TstRun) : State :=
  let s := { s with tst := { s.tst with runs := tset (fun _ => none) s.tst.runs k r } }
  match r with
  | some x => ((s.putB F.BST_STATUS_RUNNING 0 true).put F.BST_STATUS_TARGET 0 x.target).put F.BST_STATUS_SUSPENDS 0 x.suspends
  | none => s.putB F.BST_STATUS_RUNNING 0 (!s.tst.runs.isEmpty)

/-- The log entry of a target's run (R491). -/
def State.tstLog (s : State) (t outcome suspends kind count : Nat) (sig : BitVec 64) (severity : Nat) : State :=
  s.logEntry 0x0101 1 severity 4 (le t 1 ++ le outcome 1 ++ le suspends 1 ++ le kind 1 ++ le count 4 ++ le sig.toNat 8) s.tick

/-- The end of a run of target `t` (R470 to R472, R495): `BST_RESULT`, its log entry, and EV244 when it is INCOMPLETE. -/
def State.tstResult (s : State) (t outcome suspends kind count : Nat) (sig : BitVec 64) (severity : Nat) (golden : Bool) :
    State :=
  let o := wO t
  let s := ((s.put F.BST_RESULT_OUTCOME o outcome).putB F.BST_RESULT_GOLDEN o golden).put F.BST_RESULT_SUSPENDS o suspends
  let s := (s.incWrap F.BST_RESULT_RUNS o).tstLog t outcome suspends kind count sig severity
  s.raiseIf (outcome == 3) Ev.BST_INCOMPLETE t

/-- The run kind of a job's log entries (R491): 3 the cipher test, 1 a job of the module, 2 one requested. -/
def State.runKind (s : State) (k : Nat) : Nat :=
  if s.get F.BLY_SLOT_STAT_KIND (blyO k) = 11 then 3 else if 12 ≤ k then 1 else 2

/-- A run that its job does not finish ends INCOMPLETE (R481). -/
def State.runDrop (s : State) (k : Nat) : State :=
  match s.run k with
  | some r => (s.setRun k none).tstResult r.target 3 r.suspends (s.runKind k) r.count 0 2 false
  | none => s

/-- A job lets go of what it holds: its self-test run, its check unit, its leases and requests for them. -/
def State.jobDrop (s : State) (k : Nat) : State :=
  let s := s.runDrop k
  let unit := (s.job k).deadline
  let s := if [9, 10].contains (s.get F.BLY_SLOT_STAT_KIND (blyO k)) && unit != 0 then s.chkGive (unit - 1) else s
  let mine : List Nat := (s.leases.filter (fun l => l.holder == 8 + k)).map (·.session)
  let s := { s with
    leaseQ := s.leaseQ.filter (fun q => q.holder != 8 + k), rekeyMarks := s.rekeyMarks.filter (fun x => x.2 != k) }
  mine.foldl (fun (s : State) n => s.leaseLater n) s

/-- A job ends (R433): its state and result, the JOB_STATUS record, and EV247. -/
def State.jobEnd (s : State) (k st result : Nat) : State :=
  if !s.jobLive k then s
  else
    let s := s.jobDrop k
    let s := (s.put F.BLY_SLOT_STAT_STATE (blyO k) st).put F.BLY_SLOT_STAT_RESULT (blyO k) result
    ((s.jobStatus k).raise Ev.BLY_JOB_END k).nvmNext

/-- Result data word `j` of slot `k`. -/
def State.jobData (s : State) (k j : Nat) : Nat := s.get F.BLY_SLOT_DATA (blyO k + 4 * j)

/-- Result data word `j` of slot `k` is set. -/
def State.setJobData (s : State) (k j v : Nat) : State := s.put F.BLY_SLOT_DATA (blyO k + 4 * j) v

/-- Parameter `j` of the job in slot `k`. -/
def State.jobParam (s : State) (k j : Nat) : Nat := (s.job k).params.getD j 0

/-- The boundary after a step (R433): the job ends with `final`, or, when a cancel waits, CANCELLED. -/
def State.jobBoundary (s : State) (k : Nat) (final : Option (Nat × Nat)) : State :=
  let s := s.onJob k (fun j => { j with lastStep := s.tick })
  match final with
  | some (st, r) => s.jobEnd k st r
  | none => if (s.job k).cancel then s.jobEnd k 7 7 else s

/-- A step is counted. -/
def State.jobCount (s : State) (k : Nat) : State := s.put F.BLY_SLOT_DONE (blyO k) (s.get F.BLY_SLOT_DONE (blyO k) + 1)

/-- Every job of some kinds that has not ended ends FAILED with a result. -/
def State.jobsFail (s : State) (kinds : List Nat) (result : Nat) : State :=
  (List.range 16).foldl (fun s k =>
    if s.jobLive k && kinds.contains (s.get F.BLY_SLOT_STAT_KIND (blyO k)) then s.jobEnd k 6 result else s) s

/-! ### Raw jobs (R328 to R330) -/

/-- Bytes of `CIP_RAW_BUF` from byte `off` on. -/
def State.rawBytes (s : State) (off n : Nat) : List Byte :=
  (List.range n).map (fun j => BitVec.ofNat 8 (bitsOf (s.live (0x114000 + (off + j) / 4 * 4)) (8 * ((off + j) % 4) + 7)
    (8 * ((off + j) % 4))))

/-- Bytes stored in `CIP_RAW_BUF` from byte `off` on. -/
def State.rawStore (s : State) (off : Nat) : List Byte → State
  | [] => s
  | b :: t =>
    let a := 0x114000 + off / 4 * 4
    let k := 8 * (off % 4)
    State.rawStore (s.setLive a (setBits (s.live a) (k + 7) k b.toNat)) (off + 1) t

/-- The raw job in progress ends with a result, which `CIP_RAW_STAT` shows (R330): its output goes to its registers, or to a record of
spool class 1.  `out` is the
output and `tag` the tag that goes with it. -/
def State.rawEnd (s : State) (j : RawJob) (result : Nat) (out tag : List Byte) : State :=
  let s := { s with cip := { s.cip with raw := s.cip.raw.erase j, flight := if s.cip.flight = 3 then 0 else s.cip.flight } }
  let s := s.putB F.CIP_STATUS_RAW_BUSY 0 (!s.cip.raw.isEmpty)
  let s := match j.cmd with
    | none =>
      let s := s.rawStore (F.CIP_RAW_LEN_AAD_LEN.of j.len) out
      let s := (List.range tag.length).foldl (fun (s : State) i =>
        let a := F.CIP_RAW_TAG.addr + i / 4 * 4
        s.setLive a (setBits (s.live a) (8 * (i % 4) + 7) (8 * (i % 4)) ((tag.getD i 0).toNat))) s
      (s.putB F.CIP_RAW_STAT_BUSY 0 false).put F.CIP_RAW_STAT_OUT_LEN 0 out.length
    | some id => s.respond id 4 0 0 (le result 1 ++ le out.length 2 ++ out ++ tag)
  let s := (s.put F.CIP_RAW_STAT_RESULT 0 result).raiseIf (result == 1) Ev.AUTH_FAIL 0
  s.raiseIf (s.bit F.CIP_CTRL_RAW_EV) Ev.RAW_DONE 0

/-! ### Faults and the fence -/

/-- The cipher self-test starts as a belay job (R334, R474): target 12, 256 steps. -/
def State.cipherTest (s : State) : State :=
  match s.jobStart 11 0 4 0 [2 ^ 12] 256 true with
  | (s, some _) => s
  | (s, none) => s.raise Ev.BLY_SLOTS_FULL 0

/-- The engine is fenced (R334, R347): the key cache goes, frames whose MIC was awaited get verdict MIC and the leases under which
they were served are revoked (R234), raw jobs end FENCED, and links that carry GCM stop carrying data.  Once three fences have been lifted within
24 h, the fence holds until reset. -/
def State.fence (s : State) : State :=
  if s.bit F.CIP_STATUS_FENCED then s
  else
    let s := (s.raise Ev.CIPHER_FENCED 0).keysErase
    let s := (s.putB F.CIP_STATUS_FENCED 0 true).setReason 8
    let waiting := s.macWait
    let s := { s with macWait := [] }
    let s : State := waiting.foldl (fun (s : State) w =>
      let k := (macOf w.mpdu).src
      let s := if (s.leaseOf k).isSome then (s.revoke k).exchEnd k 5 else s
      (s.incSat F.CIP_CNT_C_FENCED_DROP).micBad w.body) s
    let s : State := s.cip.raw.foldl (fun (s : State) j => s.rawEnd j 5 [] []) s
    let lifts : List Nat := s.cip.lifts.filter (fun t => decide (s.tick < t + sTicks 86400))
    let held := decide (3 ≤ lifts.length)
    let s := { s with cip := { s.cip with lifts := lifts, held := held, flight := 0 } }
    if s.bit F.CIP_CTRL_AUTO_UNFENCE && !held then s.cipherTest else s

/-- Two computations of one block differ (R333).  The flag says that the engine is now fenced; `tries` counts the mismatches met in
the same work before. -/
def State.cipherFault (s : State) (tries : Nat) : State × Bool :=
  let s := (s.incSat F.CIP_CNT_C_FAULTS).raise Ev.CIPHER_FAULT 0
  let recent := s.tick :: s.cip.faults.filter (fun t => decide (s.tick < t + sTicks 1))
  let s := { s with cip := { s.cip with faults := recent } }
  if 1 ≤ tries ∨ 3 ≤ recent.length then (s.fence, true) else (s, false)

/-- The fence is lifted (R334), unless the engine is marked (R483). -/
def State.unfence (s : State) : State :=
  if s.bit F.CIP_STATUS_FENCED && !s.cip.held && !s.marked 12 then
    let s := s.putB F.CIP_STATUS_FENCED 0 false
    let lifts := s.tick :: s.cip.lifts.filter (fun t => decide (s.tick < t + sTicks 86400))
    let s := { s with cip := { s.cip with lifts := lifts } }.put F.CIP_STATUS_FENCES 0 (min 15 lifts.length)
    (s.clearReason 8).raise Ev.CIPHER_RESTORED 0
  else s

end Sys2Proof.Machine
end

