-- ==== Sys2Proof/Machine/RadioSlots.lean ====
section
/-! DEFINITION. What the radio coordinator's commands share: starting and stopping the superframe (R266, R283), applying its
commit (R291), the beacon (R269), the pairs of a slot (R270, R275), what a slot leaves of a pair (R274, R276, R278), and gain
selection (R263). -/
namespace Sys2Proof.Machine
open Sys2Proof

/-! ### Starting and stopping -/

/-- The superframe may run: `RUN` is set, start-up is done, and neither a thermal stop, nor a mark of the radio complex's
coefficient memory stands in the way (R447, R463, R483); while a profile switch drains, it runs on only until the last round in
flight has ended (R454). -/
def State.macCan (s : State) : Bool :=
  s.bit F.MAC_CTRL_RUN && s.bit F.GLB_STATUS_STARTED && !s.workOff && !s.marked 24 && s.own
    && (decide (s.profPhase < 2) || (s.profPhase == 2 && !s.rounds.isEmpty))

/-- The superframe starts at the first grid instant (R266). -/
def State.macStart (s : State) : State :=
  if !s.macCan || s.mac.next.isSome then s
  else
    let s := s.put F.MAC_STATUS_OFFSET 0 (s.get F.MAC_SUB_OFFSET_SLOTS)
    let s := (s.put F.MAC_STATUS_MODE 0 (if s.bit F.MAC_CTRL_SUBORD then 2 else 1)).put F.MAC_STATUS_PARENT_MISS 0 0
    s.onMac (fun m => { m with next := some (s.gridFrom s.tick), fresh := true, slot := none, phase := 3 })

/-- The superframe stops: nothing is sent or heard until it runs again. -/
def State.macStop (s : State) : State :=
  if s.mac.next.isNone then s
  else
    let ks := (s.mac.pairs ++ s.mac.nextPairs).map (·.session)
    let s := (List.range 4).foldl (fun (s : State) h => (s.headListens h false).putB F.RFS_HEAD_STAT_TX (rhO h) false) s
    let s := s.mac.air.foldl (fun (s : State) a => s.onRx a.1 (fun x => { x with txOn := false })) s
    let s := s.onMac (fun m => { m with
      next := none, slot := none, phase := 3, pairs := [], nextPairs := [], leasedFor := none, air := [], parentRx := none,
      listenTune := 0 })
    let s := ks.foldl (fun (s : State) k => s.macRelease k) s
    (List.range 4).foldl (fun (s : State) h => s.headListens h true) (s.put F.MAC_STATUS_MODE 0 0)

/-! ### Head links and the commit -/

/-- The link-init script of head `h` runs (R260); a malformed one raises EV162 (R262). -/
def State.linkInit (s : State) (h : Nat) : State :=
  let s := s.put F.RFS_HEAD_STAT_LINK (rhO h) 1
  let s := s.onMac (fun m => { m with
    linkRetry := tset (fun _ => 0) m.linkRetry h s.tick, linkInit := tset (fun _ => 0) m.linkInit h (s.tick + 1) })
  let s := s.scriptRun h (328 + h)
  s.raiseIf (s.scriptBad (328 + h)) Ev.RH_SCRIPT_LATE h

/-- The head's link leaves UP, or the head is disabled: its strands hold, and what it had in the slot is SKIPPED (R260, R287). -/
def State.headDown (s : State) (h : Nat) : State :=
  let s := (s.headListens h false).airDrop h
  let s := s.onMac (fun m => { m with
    pairs := m.pairs.map (fun (p : PairNow) => if headOf p.rx = h then { p with outcome := 5, tx := [], acked := none } else p) })
  s.put F.RFS_HEAD_STAT_LINK (rhO h) 0

/-- The pending MAC commit applies (R291): the heads' links follow `ENABLE`, the grid follows `OFFSET_SLOTS`. -/
def State.macApply (s : State) : State :=
  let was := (List.range 4).map (fun h => s.bit F.RFS_HEAD_CFG_ENABLE (rhO h))
  let s := s.applyInst 7 0
  let s := (List.range 4).foldl (fun (s : State) h =>
    match was.getD h false, s.bit F.RFS_HEAD_CFG_ENABLE (rhO h) with
    | false, true => s.linkInit h
    | true, false => s.headDown h
    | _, _ => s) s
  s.put F.MAC_STATUS_OFFSET 0 (s.get F.MAC_SUB_OFFSET_SLOTS)

/-- The instance of a commit that may apply at boundary `b` (R291): at least one slot after it was accepted. -/
def State.macDue (s : State) (b : Nat) : Bool :=
  s.commitPending 7 && decide (s.mac.commitAt + s.slotLen ≤ b)

/-! ### The beacon -/

/-- The payload of head `h`'s beacon, whose ramp-up starts at tick `t` (R269). -/
def State.beaconPayload (s : State) (h t : Nat) : List Byte :=
  let r := beaconRx h
  let m := s.chanMode r 0
  let sync := t + symTicks false m.rate / 2 + m.ticks false (s.preBits r) + m.ticks false (s.syncLen r)
  let mode := match s.get F.MAC_STATUS_MODE with | 2 => 1 | 3 => 2 | _ => 0
  le s.sfn 4 ++ le (s.nodeId % 64 + 64 * mode) 1 ++ le (s.get F.MAC_SF_CFG_SLOT_MS) 1 ++ le (s.get F.MAC_SF_CFG_GUARD) 1
    ++ le (s.get F.MAC_SF_CFG_P2_MS) 1 ++ le (s.get F.MAC_HOP_LEN) 1 ++ le (s.get F.MAC_CONT_CONT_FIRST) 1
    ++ le (s.get F.MAC_CONT_CONT_COUNT) 1
    ++ le (if s.bit F.MAC_CTRL_ASSOC_EN then s.get F.MAC_CONT_PERMIT else 0) 1
    ++ le (s.get F.PLN_KLP_FLOOR + 4 * s.get F.PLN_KLP_MAX) 1 ++ le sync 8
    ++ (List.range 4).flatMap (fun h' =>
      if s.beaconHeads.contains h' && s.bit F.RFS_HEAD_CFG_TX_EN (rhO h') && s.bit F.RFS_HEAD_CFG_ENABLE (rhO h')
      then le (s.rasterOf (s.radioHz (beaconRx h') (s.sfn + 1))) 1 else [0xFF])

/-- The version of a frame to `dest` of session `k` (R143): `PLN_KLP.MAX` for 0xFFFF, else the one negotiated. -/
def State.airVer (s : State) (dest k : Nat) : Nat := if dest = 0xFFFF then s.get F.PLN_KLP_MAX else s.verOf k

/-- A frame of receiver `r`'s synthesiser begins, its ramp-up at `t` (R122, R267): its head leaves receive. -/
def State.airStart (s : State) (r t : Nat) (mode : Mode) (version : Nat) (mpdu : List Byte) : State :=
  let h := headOf r
  let b := s.burst r mode version t mpdu
  let s := (s.headListens h false).putB F.RFS_HEAD_STAT_TX (rhO h) true
  (s.onRx r (fun x => { x with txOn := true })).onMac (fun m => { m with air := m.air ++ [(r, b)] })

/-- Receiver `r`'s strand may send (R115, R264): it is in use, and its head may transmit. -/
def State.strandSends (s : State) (r : Nat) : Bool := s.headSends (headOf r) && s.bit F.STR_TONE_SPACING_EN (rxO r)

/-! ### A head's stream -/

/-- The frames that head `h` sends in the present slot. -/
def State.headBursts (s : State) (h : Nat) : List Burst := (s.mac.air.filter (fun a => headOf a.1 == h)).map (·.2)

/-- The sum of head `h`'s synthesisers at sample `n` of its transmission, complex, at 3.84 MS/s (R122). -/
def State.headSum (s : State) (h : Nat) (n : Int) : Rat × Rat :=
  let l := s.headBursts h
  if n < 0 then (0, 0) else sumAt 10 l (firstOf l + 10 * n.toNat)

/-- The limiter's gain at sample `n` of head `h`'s transmission (R120, R264). -/
def State.headGain (s : State) (h : Nat) (n : Int) : Rat :=
  limGain (s.bit F.RFS_HEAD_TX_EN (rhO h)) (ampDb (-(s.get F.RFS_HEAD_TX_LIMIT (rhO h) : Rat) / 4)) (s.headSum h) n

/-- The samples of head `h`'s transmission. -/
def State.headSamples (s : State) (h : Nat) : Nat :=
  let l := s.headBursts h
  (txOver l - firstOf l + 9) / 10

/-- The 16-bit I and Q words of head `h`'s transmit lane (R258, R264).  DESIGN CHOICE, log entry 115: to the nearest, ties away from
zero. -/
def State.laneWord (s : State) (h : Nat) (n : Int) : BitVec 16 × BitVec 16 :=
  let x := s.headSum h n
  let g := s.headGain h n
  let word := fun (v : Rat) => BitVec.ofInt 16 (sat 16 (roundAway (v * g * 2 ^ 15))).1
  (word x.1, word x.2)

/-- Head `h` sends its beacon in slot 0, unless it may not transmit, the beacon does not fit, the air-time tests refuse it, or its script
is malformed (R262, R264, R268, R269, R280); with two cores lost no beacon is sent (R25). -/
def State.beaconSend (s : State) (h st : Nat) : State :=
  if !s.strandSends (beaconRx h) || s.twoCoresLost then s
  else
    let r := beaconRx h
    let t := st + s.guardTicks
    let mpdu := plainMpdu 8 0xFFFF 0 (s.beaconPayload h t)
    let air := s.airTicks r (s.chanMode r 0) mpdu.length
    if s.slotLen < s.guardTicks + air + halfMs then s
    else
    let ask := s.airAsk r t (t + air) 0xFFFF
    if !ask.2 then ask.1
    else if s.scriptBad (324 + h) then (s.scriptRun h (324 + h)).headFails h false
    else (ask.1.scriptRun h (324 + h)).airStart r t (s.chanMode r 0) (s.airVer 0xFFFF 0) mpdu

/-! ### The pairs of a slot -/

/-- A pair of session `k` on receiver `r` before its slot. -/
def pairInit (k r : Nat) (old : Bool) : PairNow := ⟨k, r, old, 0, 0, 0, none, none, none, [], 0, 0, false⟩

/-- The pairs active in slot `j` of superframe `n` (R270): of sessions that hold their pair, and the old pairs of those that are
reassigned, each at its own phase (R277). -/
def State.pairsIn (s : State) (j n : Nat) : List PairNow :=
  (s.radioSessions.filter s.holdsPair).flatMap (fun k =>
    (if s.rslot k = j && s.pairActive k (s.rphase k) n then [pairInit k (576 + s.rchan k) false] else []) ++ (match s.roldPair k with
      | some (sl, ch, f) => if sl = j && s.pairActive k f n then [pairInit k (576 + ch) true] else []
      | none => []))

/-- The window of a pair in the slot that starts at `st` (R275). -/
def State.pairWindow (s : State) (p : PairNow) (st : Nat) : PairNow :=
  let k := p.session
  let g := s.guardTicks
  let o := s.ctxInt k 0x0C8 4
  let d := s.ctxInt k 0x0CC 4
  let drift := roundAway (((d * ((st : Int) - s.sfStart) : Int) : Rat) / 100000000)
  let t : Int := st + g + o + drift
  let m := s.ctxNum k 0x0C6 1
  let gw : Int := if m = 0 then g else if m = 1 then 2 * g else 4 * g
  let mode := s.chanMode p.rx 0
  let len : Int := mode.ticks false (s.preBits p.rx) + mode.ticks false (s.syncLen p.rx)
  { p with
    openAt := (max (st : Int) (t - gw)).toNat,
    closeAt := (min ((st + s.p2Ticks : Nat) - (halfMs : Int)) (t + gw + len)).toNat }

/-! ### Gain -/

/-- The gain entry of head `h` is set before a phase in which it receives (R262, R263). -/
def State.gainSet (s : State) (h : Nat) (cont : Bool) (level : Option Int) : State :=
  match s.gainFor h cont level with
    | none => s.headFails h true
    | some k =>
      let s := s.scriptRun h (256 + 16 * h + k)
      if s.scriptBad (256 + 16 * h + k) then s.headFails h true
      else s.put F.RFS_HEAD_STAT_GAIN_ENTRY (rhO h) k

/-- The highest of some levels. -/
def maxLevel : List Int → Option Int
  | [] => none
  | x :: t => match maxLevel t with
    | none => some x
    | some y => some (max x y)

/-- Every enabled head is set up for slot `j` of superframe `n` (R262, R263): the receive script of every tail, then the gain entry where
the head receives. -/
def State.gainsSet (s : State) (j n : Nat) : State :=
  let cont := s.contSlot j
  (List.range 4).foldl (fun (s : State) h =>
    let ks := ((s.pairsIn j n).filter (fun p => headOf p.rx == h)).map (·.session)
    let listen := s.bit F.MAC_CTRL_SUBORD && s.get F.MAC_SUB_LISTEN_HEAD == h
    if !s.bit F.RFS_HEAD_CFG_ENABLE (rhO h) then s
    else
    let s := s.scriptRun h (320 + h)
    if s.scriptBad (320 + h) then s.headFails h true
    else if cont then (if s.beaconHeads.contains h then s.gainSet h true none else s)
    else if !ks.isEmpty then s.gainSet h false (maxLevel (ks.map (fun k => s.ctxInt k 0x310 2)))
    else if listen && j != 0 then s.gainSet h false none else s) s

/-! ### What a slot leaves -/

/-- Byte offset of the radio-only registers of receiver `r` (R288). -/
def rfO (r : Nat) : Nat := 0x100 * (r - 576)

/-- The final outcome of a pair (R274). -/
def PairNow.final (p : PairNow) : Nat := if p.outcome = 0 then 2 else p.outcome

/-- The session's timing after a HEARD outcome (R276): the offset and drift follow the measured start. -/
def State.pairTiming (s : State) (p : PairNow) (st h : Nat) : State :=
  let k := p.session
  let s := s.ctxUpdate k 0x0C6 [0, 0] h
  let s := s.ctxPut k 0x0D8 4 s.sfn h
  match p.sync, p.pre with
  | some t, some (bage, report) =>
    let mode := s.chanMode p.rx 0
    let start : Int := (t : Int) - mode.ticks false (s.syncLen p.rx) - mode.ticks false (s.preBits p.rx)
    let e : Int := start - (st + s.guardTicks : Nat)
    let age : Int := ((st : Int) - s.sfStart) + bage * s.sfLen
    let n := s.ctxNum k 0x0D0 2
    let n' := min (n + 1) 65535
    let o := s.ctxInt k 0x0C8 4
    let d := s.ctxInt k 0x0CC 4
    let rep := signed 8 report
    let resid : Rat := (e : Rat) - ((o : Rat) + (d : Rat) * (age : Rat) / 100000000)
    let o' := if n = 0 then e else o + roundAway (resid / 8)
    let d1 := if n = 0 then 0 else if age = 0 then d else d + roundAway (resid / (age : Rat) * 100000000 / 16)
    let d' := if report ≠ 0x80 ∧ n' < 4 then -50 * rep else d1
    let s := s.ctxUpdate k 0x0C8 (le (toSigned 32 o') 4 ++ le (toSigned 32 d') 4 ++ le n' 2) h
    s.ctxPut k 0x0D2 1 report h
  | _, _ => s

/-- The outcome of a pair enters its session (R274, R276, R278, R337).  While a session is reassigned, misses count on its old pair
alone. -/
def State.pairOutcome (s : State) (p : PairNow) (st : Nat) : State :=
  let k := p.session
  let h := s.radioHolder k
  if !s.leasedBy k h then s
  else
  let s := if p.txType = 9 ∧ p.tx ≠ [] then s else s.rekeySpent k h
  match p.final with
  | 1 =>
    let s := s.pairTiming p st h
    if s.rstate k = 2 then
      ((s.ctxPut k 0x0C0 1 1 h).routeForget k).onMac (fun m => { m with holds := m.holds.filter (fun x => x.1 != k) })
    else s
  | 2 =>
    let s := s.ctxInc k 0x0E0 h
    let counts := s.rstate k == 1 && (p.old || (s.roldPair k).isNone)
    if !counts then s
    else
      let m := s.ctxNum k 0x0C6 1 + 1
      let s := s.ctxPut k 0x0C6 1 (min m 5) h
      if 5 ≤ m then
        let s := (s.ctxPut k 0x0C0 1 2 h).ctxPut k 0x0C7 1 8 h
        (s.onMac (fun x => { x with holds := x.holds.filter (fun y => y.1 != k) ++ [(k, s.mac.sfs)] })).raise Ev.DRIFT_LOST k
      else s
  | 4 => s.ctxInc k 0x0E4 h
  | _ => s

/-- The registers and tries of a pair whose slot `j` ends (R274, R282, R288). -/
def State.pairShow (s : State) (p : PairNow) (j : Nat) : State :=
  let o := rfO p.rx
  let k := p.session
  let f := p.final
  let s := ((s.put F.RFS_LAST_PAIR_SESSION o k).put F.RFS_LAST_PAIR_SLOT o j).put F.RFS_LAST_PAIR_OUTCOME o f
  let s := if f = 1 ∨ f = 3 ∨ f = 4 then s.incSat F.RFS_UP_CNT_HEARD o else s
  let s := if f = 2 then s.incSat F.RFS_UP_CNT_MISSED o else s
  let s := if s.mac.cmdOut.contains k && !p.first && !p.old then
      s.ctxPut k 0x0D6 2 (min 65535 (s.ctxNum k 0x0D6 2 + 1)) (s.radioHolder k) else s
  if p.old then s
  else s.onMac (fun m => { m with assocs := m.assocs.map (fun (a : RadioAssoc) =>
    if a.session = k ∧ !a.mesh ∧ (1 ≤ a.sent ∨ a.ho.isSome) then { a with active := a.active + 1 } else a) })

end Sys2Proof.Machine
end

