-- ==== Sys2Proof/Machine/TimeBase.lean ====
section
/-! DEFINITION. The discipline of the time base (R458, R459). -/
namespace Sys2Proof.Machine
open Sys2Proof

/-- The source of discipline (R458): 1 PPS, 2 Braid, 0 holdover. -/
def State.timeSource (s : State) : Nat :=
  if s.bit F.CLK_PPS_CFG_EN && s.bit F.CLK_STATUS_PPS_LOCK then 1
  else if s.bit F.CLK_DISC_CFG_BRAID_EN && s.bit F.BRD_TIME_STAT_VALID && !s.bit F.BRD_TIME_STAT_IS_MASTER then 2
  else 0

/-- `CLK_RATE` shows ρ, in 0.001 ppm. -/
def State.rateShow (s : State) : State := s.putI F.CLK_RATE_RHO 0 (roundAway (s.up.rho * 1000))

/-- A pending CLK commit applies (R467). -/
def State.clkApply (s : State) : State := if s.instPending 1 0 then s.applyInst 1 0 else s

/-- The source is chosen again (R458): in holdover ρ stays at −f and a pending commit applies.  A change of source causes no
step: the next sample's rate error is counted from that sample. -/
def State.sourceShow (s : State) : State :=
  let n := s.timeSource
  let old := s.get F.CLK_STATUS_SOURCE
  let s := s.put F.CLK_STATUS_SOURCE 0 n
  if n = 0 then
    let s := if old = 0 then s else (s.onUp (fun u => { u with rho := -u.rateF })).rateShow
    s.clkApply
  else s

/-- A value held between −`m` and `m`. -/
def clampRat (x m : Rat) : Rat := if m < x then m else if x < -m then -m else x

/-- A discipline sample of error `e` ticks and interval `delta` seconds (R459).  `fresh` says that the source has just changed. -/
def State.discipline (s : State) (e : Int) (delta : Rat) (fresh : Bool) : State :=
  let s := s.clkApply
  let mayStep := !s.bit F.GLB_STATUS_STARTED || s.bit F.CLK_PPS_CFG_STEP_EN
  let limit : Rat := (s.get F.CLK_PPS_CFG_STEP_LIMIT : Rat) * 192 / 5
  let ex : Rat := e
  if mayStep && (decide (limit < ex) || decide (ex < -limit)) then
    let s := { s with tick := ((s.tick : Int) - e).toNat }.incSat F.CLK_CNT_STEPS
    let s := s.onUp (fun u => { u with ePrev := 0 })
    s.raise Ev.TIME_STEP (toSigned 16 (roundAway (-ex * 5 / 192)))
  else
    let k : Rat := delta * 192 / 5
    let prev := if fresh then ex else s.up.ePrev
    let f := s.up.rateF + (ex - prev) / k / (max 1 (s.get F.CLK_DISC_CFG_TC) : Nat)
    let rho := clampRat (-f - ex / k) (s.get F.CLK_DISC_CFG_SLEW_PPM : Nat)
    (s.onUp (fun u => { u with rateF := f, ePrev := ex, rho := rho })).rateShow

end Sys2Proof.Machine
end

