-- ==== Sys2Proof/Machine/Halt.lean ====
section
/-! DEFINITION. Ending work on the line and the radio at once, and taking it up again: the loss of a clock (R456), a thermal stop
(R463), the loss of ownership (R371), and the domains' restart. -/
namespace Sys2Proof.Machine
open Sys2Proof

/-- The frames of port `p` end with their next symbols (R49); a transmission not started is not started, and its enable is taken
back.  The port leaves TX as R29 says. -/
def State.portEnd (s : State) (p : Nat) : State :=
  let s := if (s.port p).planned.isSome then (s.onPort p (fun x => { x with planned := none })).aenClear p else s
  s.onPort p (fun x => { x with tx := x.tx.map (fun b => b.endAt s.tick) })

/-- Port `p` is out of TX without a latch that clears its enable bit: its ball driver is held off (R30, R371).  DESIGN CHOICE, log entry
111: it goes to AWAKE, or to WATCH while its engine's clock stands. -/
def State.portDrop (s : State) (p : Nat) : State :=
  let s := s.portHalt p
  if s.portSt p = 3 then
    let s := (s.put F.LP_STATUS_STATE (lpO p) (if s.cordRuns (p / 16) then 2 else 1)).portFault p
    s.onPort p (fun x => { x with clearedAt := none, monitor := false, txLeft := s.tick, settleEnd := s.tick + 256 })
  else s

/-- Line work ends: every exchange is LOST with its round, sweeps end, each port is stopped as `f` says, and the strands of the line
go to HOLD. -/
def State.lineStop (s : State) (f : State → Nat → State) : State :=
  let s := s.endAll s.exchs 5
  let s := { s with sweeps := [], rounds := [], combs := [], pinCombs := [] }
  let s := (List.range 144).foldl f s
  (List.range 576).foldl (fun (s : State) r => if s.rxSt r = 0 then s else s.rxForceHold r) s

/-- The enable chain owes an all-zero word, and no enable is wanted (R45, R456); a shift in progress goes on to its end (R27). -/
def State.aenZero (s : State) : State :=
  { s with aen := { s.aen with want := 0, zeroOwed := true, waiting := true } }

/-- The engine of cord `c` has stopped its clock (R29, R82, R461): ports in AWAKE go to WATCH, and its receivers go to HOLD. -/
def State.cordSleep (s : State) (c : Nat) : State :=
  let s := { s with cordStop := tset (fun _ => 0) s.cordStop c s.tick }
  let s := (List.range 16).foldl (fun (s : State) j => s.portSleep (16 * c + j)) s
  (List.range 64).foldl (fun (s : State) j =>
    (s.onRx (64 * c + j) (fun x => { x with stopped := true })).rxForceHold (64 * c + j)) s

/-- The cord engines and CE9 stop their clocks (R461). -/
def State.cordsStop (s : State) : State :=
  let cords := (List.range 9).filter s.cordRuns
  let s := (List.range 10).foldl (fun (s : State) n => s.putBit F.PWR_DOMAIN_STAT 0 n false) s
  cords.foldl (fun (s : State) c => s.cordSleep c) s

/-- The ownership signal becomes inactive (R371): line and radio work ends, the DACs are held off and the enable chain is let
go. -/
def State.ownLose (s : State) : State :=
  let s := (({ s with own := false }).lineStop State.portDrop).macStop
  { s with aen := { s.aen with want := 0, shifting := none, zeroOwed := false, waiting := false } }

/-- The ownership signal becomes active (R45, R371): the all-zero word and then the current word are shifted, and the superframe
may start. -/
def State.ownGain (s : State) : State := if s.own then s else ({ s with own := true }.aenZero).macStart

/-- `OWN_OUT` (R371): driven while it serves as such. -/
def State.driveOwnOut (s : State) (on : Bool) : State := s.putB F.SPL_STATUS_OWN_OUT 0 (on && s.bit F.GLB_GPIO_FUNC_OWN_OUT_EN)

/-- No profile switch is in a phase. -/
def State.profNone (s : State) : State := { s with profPhase := 0 }.onUp (fun u => { u with sect := [] })

/-- A profile switch that ends outside a step of its own (R432): its phase is over, and the superframe may run again. -/
def State.profOver (s : State) : State := s.profNone.macStart

end Sys2Proof.Machine
end

