-- ==== Sys2Proof/Machine/SesOps.lean ====
section
/-! DEFINITION. What the session engine's commands share: the session commands of R218, rebuilding (R238), write-backs (R236),
the journal's high-water condition (R237), the spool's pages (R241 to R243), and cache-only mode (R249). -/
namespace Sys2Proof.Machine
open Sys2Proof

/-! ### The journal's condition -/

/-- The oldest journal entry of session `k` that is not releasable. -/
def State.oldestOf (s : State) (k : Nat) : Option Nat :=
  (s.jrn.find? (fun e => e.session == k && !e.free && e.kind != 3)).map (·.seq)

/-- Inserts a session by its oldest unreleased entry. -/
def State.wbIn (s : State) (k : Nat) : List Nat → List Nat
  | [] => [k]
  | x :: t => match s.oldestOf k, s.oldestOf x with
    | some a, some b => if a < b then k :: x :: t else x :: s.wbIn k t
    | some _, none => k :: x :: t
    | _, _ => x :: s.wbIn k t

/-- The dirty context whose oldest unreleased entry is oldest. -/
def State.oldestDirty (s : State) : Option Nat :=
  (((s.cache.filter (fun e => e.dirty && e.filled)).map (·.session)).foldl (fun l k => s.wbIn k l) []).head?

/-- JOURNAL_HIGH starts at `HIGH`, with EV134, and ends when the fill is 10 % below it; while it lasts, the dirty context of oldest
unreleased entry is written back next (R237; the event names session 0, log entry 30). -/
def State.jrnHigh (s : State) : State :=
  let high := s.get F.SES_JRN_CFG_HIGH
  let s := if s.bit F.SES_STATUS_JOURNAL_HIGH then
      if 100 * s.jrnUsed ≤ (high - 10) * ringUnits then s.putB F.SES_STATUS_JOURNAL_HIGH 0 false else s
    else if high ≤ s.jrnFill then (s.putB F.SES_STATUS_JOURNAL_HIGH 0 true).raise Ev.JOURNAL_HIGH 0
    else s
  if s.bit F.SES_STATUS_JOURNAL_HIGH && s.wbq.isEmpty then
    match s.oldestDirty with
    | some k => s.writeBack k
    | none => s
  else s

/-! ### Records that wait -/

/-- The bytes a record takes in the spool (R241). -/
def recSize (r : Rec) : Nat := (32 + r.body.length + 63) / 64 * 64

/-- A record as it stands in the spool (R241): its header and its body, padded. -/
def Rec.spooled (r : Rec) : List Byte :=
  let h := le r.seq 8 ++ le r.time 8 ++ le r.session 2 ++ le r.cls 1 ++ le r.rtype 1 ++ le r.body.length 2 ++ List.replicate 6 0
  padTo (recSize r) (h ++ le (crc32c (h ++ r.body)).toNat 4 ++ r.body)

/-- The output queue serves as the spool: in cache-only mode, and before the store is taken into use (R249, R532). -/
def State.queueSpools (s : State) : Bool := s.cacheOnly || !s.storeOpen

/-- Bytes of the output queue in use as the spool. -/
def State.queueUsed (s : State) : Nat :=
  (s.spool.filter (fun r => r.rc.page == 0)).foldl (fun (n : Nat) r => n + recSize r.rc) 0

/-- All spool pages (R221, R241). -/
def State.allPages (s : State) : Nat := (s.cxlMib - 512) * 16

/-- Spool fill in per mille (R242, R249). -/
def State.spoolFill (s : State) : Nat :=
  if s.queueSpools then min 1000 (1000 * s.queueUsed / 387072)
  else if s.allPages = 0 then 0 else min 1000 (1000 * s.pages.length / s.allPages)

/-- The SPOOL_HIGH condition follows the fill (R242). -/
def State.spoolHigh (s : State) (cls : Nat) : State :=
  let high := s.get F.SES_SPOOL_CFG_HIGH
  let low := high - s.get F.SES_SPOOL_CFG_HYST
  if s.bit F.SES_STATUS_SPOOL_HIGH then
    if s.spoolFill < 10 * low then s.putB F.SES_STATUS_SPOOL_HIGH 0 false else s
  else if 10 * high ≤ s.spoolFill then (s.putB F.SES_STATUS_SPOOL_HIGH 0 true).raise Ev.SPOOL_HIGH cls
  else s

/-- The pages of a class. -/
def State.classPages (s : State) (cls : Nat) : Nat := (s.pages.filter (fun p => p.cls == cls)).length

/-- The reserve of a class (R242). -/
def State.reserveOf (s : State) (cls : Nat) : Nat := s.get F.SES_SPOOL_RES_PAGES (wO cls)

/-- A page may be given to a class: the free pages still cover the unused reserve of every other class (R242). -/
def State.pageCan (s : State) (cls : Nat) : Bool :=
  let free := s.allPages - s.pages.length
  let owed := ((List.range 5).filter (· != cls)).foldl (fun (n : Nat) k => n + (s.reserveOf k - s.classPages k)) 0
  decide (owed + 1 ≤ free)

/-- Records discarded with their count (R243). -/
def State.spoolDrop (s : State) (n cls : Nat) : State := (s.incSat F.SES_SPOOL_STAT_DROPS 0 n).raise Ev.SPOOL_DROP cls

/-- The oldest class 4 page is reclaimed with its records (R243). -/
def State.reclaim (s : State) : State :=
  match s.pages.find? (fun p => p.cls == 4) with
  | none => s
  | some p =>
    let gone := s.spool.filter (fun r => r.rc.page == p.num)
    let s := { s with spool := s.spool.filter (fun r => r.rc.page != p.num), pages := s.pages.erase p }
    s.spoolDrop gone.length 4

/-- The page of a class with room for `n` bytes, its newest one. -/
def State.roomPage (s : State) (cls n : Nat) : Option Page :=
  match (s.pages.filter (fun p => p.cls == cls)).getLast? with
  | some p => if p.used + n ≤ 65536 then some p else none
  | none => none

/-- The lowest number of a page that is not in use; pages are numbered from 1. -/
def State.freePage (s : State) : Nat :=
  (((List.range (s.pages.length + 1)).map (· + 1)).find? (fun n => !s.pages.any (fun p => p.num == n))).getD (s.pages.length + 1)

/-- A new page for a class, reclaiming class 4 where R243 allows. -/
def State.newPage (s : State) (cls : Nat) : Option State :=
  let give := fun (s : State) =>
    let n := s.freePage
    { s with pages := s.pages ++ [(⟨n, cls, 0⟩ : Page)], pageNext := n + 1 }
  if s.pageCan cls then some (give s)
  else if s.classPages 4 = 0 then none
  else if cls = 4 ∨ s.reserveOf 4 < s.classPages 4 then
    let s := s.reclaim
    if s.pageCan cls || cls == 4 then some (give s) else none
  else none

/-- The log entries that a LOG_EXPORT record carries count as exported (R493). -/
def State.logExported (s : State) (ks : List Nat) : State :=
  ks.foldl (fun (s : State) k =>
    let e := s.logAt k
    if thas s.log k && !e.exported then
      let s := { s with log := tset (fun _ => LogEntry.init) s.log k { e with exported := true } }
      if k < 7936 then (s.dec F.LOG_STAT_UNEXPORTED).logDues false else s
    else s) s

/-- The bytes used of a page. -/
def State.pageUsed (s : State) (page : Nat) : Nat := ((s.pages.find? (fun p => p.num == page)).map (·.used)).getD 0

/-- The oldest records that together give at least `need` bytes; all of them where they do not. -/
def oldestFor (need : Nat) : List SpoolRec → List SpoolRec
  | [] => []
  | x :: t => if need = 0 then [] else x :: oldestFor (need - recSize x.rc) t

/-- A record takes its place in the spool with its `SPOOL_SEQ` (R241). -/
def State.spoolPut (s : State) (r : Rec) (page : Nat) : State :=
  let r' := { r with seq := s.spoolNext.getD r.cls 0, page := page }
  let off := s.pageUsed page
  let s := s.logExported r.logIdx
  let s := { s with
    spool := s.spool ++ [(⟨r', none, off⟩ : SpoolRec)],
    spoolNext := s.spoolNext.set r.cls (r'.seq + 1),
    pages := s.pages.map (fun p => if p.num = page then { p with used := p.used + recSize r } else p) }
  if page = 0 then s else s.snoop 3 3 r'.spooled

/-- Finds a place for a record (R242, R243, R249): the page it goes to, or none when it must wait. -/
def State.placeRec (s : State) (r : Rec) : Option (State × Nat) :=
  let n := recSize r
  if s.queueSpools then
    if s.queueUsed + n ≤ 387072 then some (s, 0)
    else
      -- the oldest class 4 records of the queue make room, where they can
      let gone := oldestFor (s.queueUsed + n - 387072) (s.spool.filter (fun x => x.rc.page == 0 && x.rc.cls == 4))
      let t := { s with spool := s.spool.filter (fun x => !gone.contains x) }
      if t.queueUsed + n ≤ 387072 then some (t.spoolDrop gone.length 4, 0) else none
  else match s.roomPage r.cls n with
    | some p => some (s, p.num)
    | none => (s.newPage r.cls).map (fun t => (t, t.pageNext - 1))

/-- The ceiling whose write failed last for a class, and has not succeeded since (R533). -/
def State.ceilFailed (s : State) (cls : Nat) : Option Nat := (s.ceilBad.find? (fun x => x.1 == cls)).map (·.2)

/-- The ceiling of a class's `SPOOL_SEQ` (R533): as the Vault holds it, or below one whose write has failed. -/
def State.spoolCeil (s : State) (cls : Nat) : Nat := match s.ceilFailed cls with
  | some n => n - 65536
  | none => s.vaultNum (0x110000 + 8 * cls) 8

/-- The ceiling write of a class waits or is in progress. -/
def State.ceilWaits (s : State) (cls : Nat) : Bool :=
  s.vaultq.any (fun w => match w.why with | .spool c _ => c == cls | _ => false)

/-- The spool writer takes the first record it can store, keeping the order within each class (R239, R241 to R243, R533): a
record whose class has reached its ceiling waits for the Vault.  `tried` are the classes that wait. -/
def State.spoolStep (s : State) (before : List Rec) (tried : List Nat) : List Rec → State
  | [] => s
  | r :: t =>
    if tried.contains r.cls then s.spoolStep (before ++ [r]) tried t
    else if s.spoolCeil r.cls ≤ s.spoolNext.getD r.cls 0 then
      let s := if s.ceilWaits r.cls then s
        else
          let n := s.spoolCeil r.cls + 65536
          s.vaultWrite (0x110000 + 8 * r.cls) (le n 8) (.spool r.cls n)
      s.spoolStep (before ++ [r]) (r.cls :: tried) t
    else match s.placeRec r with
      | some (s', page) => ({ s' with outq := before ++ t }.spoolPut r page).spoolHigh r.cls
      | none =>
        if s.bit F.SES_STATUS_SPOOL_FULL then s.spoolStep (before ++ [r]) (r.cls :: tried) t
        else State.spoolStep ((s.putB F.SES_STATUS_SPOOL_FULL 0 true).raise Ev.SPOOL_FULL r.cls) (before ++ [r])
          (r.cls :: tried) t

/-- SPOOL_FULL ends when the queue is empty (R243). -/
def State.spoolFullEnd (s : State) : State :=
  if s.bit F.SES_STATUS_SPOOL_FULL && s.outq.isEmpty then s.putB F.SES_STATUS_SPOOL_FULL 0 false else s

/-! ### CXL reads that fail -/

/-- A poisoned read (R247): EV133, the address, and the counts. -/
def State.cxlPoison (s : State) (addr src : Nat) : State :=
  let s := (s.put F.CXL_ERR_ADDR_LO_ADDR 0 addr).put F.CXL_ERR_ADDR_HI_ADDR 0 (addr / 2 ^ 32)
  let s := s.incSat F.CXL_ERR_CNT_UE
  { s with ueHour := s.tick :: s.ueHour.filter (fun t => decide (s.tick < t + sTicks 3600)) }.raise Ev.CXL_POISON src

/-- Device address of session `k`'s home copy (R221). -/
def homeAddr (k : Nat) : Nat := 0x04000000 + 0x800 * k

/-! ### Filling and rebuilding -/

/-- An image becomes the cached context of session `k`. -/
def State.loadImage (s : State) (k : Nat) (img : List Byte) (dirty : Bool) : State :=
  let s := { s with ctx := tsplice (2048 * k) (2048 * k + 2048) (cellsOf (2048 * k) img) s.ctx }
  s.onCache k (fun e => { e with filled := true, dirty := dirty })

/-- The slot table follows an image (R216). -/
def State.slotOfImage (s : State) (k : Nat) (img : List Byte) : State :=
  if k = 0 then s
  else
    let f := (img.getD 1 0).toNat
    s.onSlot k (fun x => { x with st := (img.getD 0 0).toNat % 4, prio := f.testBit 0, radio := f.testBit 1 })

/-- The cached copy of session `k` is given up and rebuilt (R229, R238); slot 0x0000 keeps its copy (R215). -/
def State.startRebuild (s : State) (k : Nat) : State :=
  if k = 0 then s else
  let s := s.onCache k (fun e => { e with filled := false })
  if s.rebuilds.contains k then s else { s with rebuilds := s.rebuilds ++ [k] }

/-- The home copy of session `k` can be the base of a rebuild (R238). -/
def State.homeGood (s : State) (k : Nat) (homeBad : Bool) : Bool := !homeBad && imageGood (s.homeImage k) k

/-- The newest CHECKPOINT of session `k` in the journal (R235, R238). -/
def State.checkpoint (s : State) (k : Nat) : Option JEntry := s.jrn.reverse.find? (fun e => e.session == k && e.kind == 1)

/-- The base of a rebuild (R238): the home copy if its `CRC` is good, else the newest CHECKPOINT in the journal. -/
def State.rebuildBase (s : State) (k : Nat) (homeBad : Bool) : Option (List Byte) :=
  if s.homeGood k homeBad then some (s.homeImage k) else (s.checkpoint k).map (·.bytes)

/-- The entries that the walk of a rebuild reads (R238): the session's entries above the base's `JSEQ`, and the checkpoint where that
is the base. -/
def State.rebuildReads (s : State) (k : Nat) (homeBad : Bool) : List JEntry :=
  let from' := if s.homeGood k homeBad then imageJseq (s.homeImage k) + 1 else ((s.checkpoint k).map (·.seq)).getD 0
  s.jrn.filter (fun e => e.session == k && e.kind != 3 && decide (from' ≤ e.seq))

/-- An image with journal entries applied in their order; `JSEQ` follows (R225, R238). -/
def applyEntries (es : List JEntry) (img : List Byte) : List Byte :=
  es.foldl (fun i e => patch (patch i e.offset e.bytes) 16 (le e.seq 8)) img

/-- The image that a rebuild gives: the base with every later UPDATE entry of the session applied, in order (R238). -/
def State.rebuildImage (s : State) (k : Nat) (base : List Byte) : List Byte :=
  applyEntries (s.jrn.filter (fun e => e.session == k && e.kind == 0 && decide (imageJseq base < e.seq))) base

end Sys2Proof.Machine
end

