-- ==== Sys2Proof/Machine/HalOps.lean ====
section
/-! DEFINITION. What Halyard sends (R404 to R407, R413, R414): records, frames, raw and UDP framing, and MACsec protection. -/
namespace Sys2Proof.Machine
open Sys2Proof

/-! ### Records and frames -/

/-- A record as it travels (R407). -/
def halRecord (rtype flags cls node session seq time : Nat) (body : List Byte) : List Byte :=
  let h := le rtype 1 ++ le flags 1 ++ le cls 1 ++ le node 1 ++ le body.length 2 ++ le session 2 ++ le seq 8 ++ le time 8
    ++ [0, 0, 0, 0]
  h ++ le (crc32c (h ++ body)).toNat 4 ++ body

/-- The node id that record headers carry: in v3 only (R407). -/
def State.halNode (s : State) : Nat := if s.get F.HAL_STATUS_VERSION = 2 ∧ s.bit F.HAL_STATUS_NEGOTIATED then s.nodeId else 0

/-- A spooled record as it travels. -/
def State.spoolBytes (s : State) (r : SpoolRec) : List Byte :=
  halRecord r.rc.rtype r.rc.flags r.rc.cls s.halNode r.rc.session r.rc.seq r.rc.time r.rc.body

/-- The payload of a frame (R406). -/
def halPayload (version : Nat) (recs : List (List Byte)) : List Byte :=
  [0x4B, 0x48] ++ le version 1 ++ le recs.length 1 ++ [0, 0, 0, 0] ++ recs.flatten

/-- The bytes that a frame's header and records may take (R406). -/
def State.halRoom (s : State) : Nat :=
  (if s.bit F.HAL_CFG_JUMBO then 9000 else 1500) - (if s.bit F.HAL_CFG_UDP then 48 else 0)

/-! ### Framing -/

/-- The module's MAC address. -/
def State.halMac (s : State) : List Byte := le (s.get F.HAL_MAC_LO_MAC) 4 ++ le (s.get F.HAL_MAC_HI_MAC) 2

/-- The next hop's MAC address. -/
def State.halPeer (s : State) : List Byte := le (s.get F.HAL_PEER_MAC_LO_MAC) 4 ++ le (s.get F.HAL_PEER_MAC_HI_MAC) 2

/-- An IPv6 address held in four registers. -/
def State.halIp (s : State) (f : Fld) : List Byte := (List.range 4).flatMap (fun k => le (s.get f (wO k)) 4)

/-- The Internet checksum of a list of bytes, folded to 16 bits and complemented. -/
def inetSum (l : List Byte) : Nat :=
  let n := (chunks 2 l.length (if l.length % 2 = 1 then l ++ [0] else l)).foldl (fun (n : Nat) w => n + beNum w) 0
  let f := fun (x : Nat) => x % 65536 + x / 65536
  65535 - f (f (f n))

/-- The IPv6 and UDP headers before a payload (R405). -/
def State.halUdp (s : State) (payload : List Byte) : List Byte :=
  let src := s.halIp F.HAL_IP6_SRC_ADDR
  let dst := s.halIp F.HAL_IP6_DST_ADDR
  let len := 8 + payload.length
  let ports := be (s.get F.HAL_UDP_LOCAL_PORT) 2 ++ be (s.get F.HAL_UDP_PEER_PORT) 2
  let sum := inetSum (src ++ dst ++ be len 4 ++ [0, 0, 0, 17] ++ ports ++ be len 2 ++ payload)
  [0x60, 0, 0, 0] ++ be len 2 ++ [17] ++ le (s.get F.HAL_CFG_HOP_LIMIT) 1 ++ src ++ dst ++ ports ++ be len 2
    ++ be (if sum = 0 then 65535 else sum) 2 ++ payload

/-- The EtherType and what follows it in a frame that carries a payload (R405). -/
def State.halTyped (s : State) (payload : List Byte) : List Byte :=
  if s.bit F.HAL_CFG_UDP then [0x86, 0xDD] ++ s.halUdp payload else be (s.get F.HAL_ETHERTYPE_TYPE) 2 ++ payload

/-! ### MACsec (R413, R414; the SecTAG and the IVs of IEEE 802.1AE are PRESUMED, log entry 31) -/

/-- The offset of port `p`'s MACsec registers. -/
def msO (p : Nat) : Nat := 0x80 * p

/-- MACsec protects port `p`. -/
def State.msecOn (s : State) (p : Nat) : Bool := s.bit F.HAL_MSEC_CFG_EN (msO p)

/-- The last PN of port `p`'s suite. -/
def State.lastPn (s : State) (p : Nat) : Nat := if s.bit F.HAL_MSEC_CFG_XPN (msO p) then 2 ^ 64 - 1 else 2 ^ 32 - 1

/-- The PN at which `PN_HIGH` is set. -/
def State.highPn (s : State) (p : Nat) : Nat := if s.bit F.HAL_MSEC_CFG_XPN (msO p) then 2 ^ 62 else 0xC0000000

/-- The GCM IV of a frame with a PN under an SA. -/
def SaS.iv (a : SaS) (xpn : Bool) (sci : List Byte) (pn : Nat) : List Byte :=
  if xpn then xorL (be a.ssci 4 ++ be pn 8) (padTo 12 a.salt) else sci ++ be (pn % 2 ^ 32) 4

/-- The SecTAG with an explicit SCI. -/
def secTag (an len pn : Nat) (sci : List Byte) : List Byte :=
  [0x88, 0xE5] ++ le (0x2C + an) 1 ++ le (if len < 48 then len else 0) 1 ++ be (pn % 2 ^ 32) 4 ++ sci

/-- The transmit SA in use at port `p`. -/
def State.txSa (s : State) (p : Nat) : Option SaS := s.hal.sas.find? (fun a => a.port == p && a.tx && a.on)

/-- Changes Halyard's own state. -/
def State.onHal (s : State) (f : HalS → HalS) : State := { s with hal := f s.hal }

/-- EV243 at most once per second per port (R413). -/
def State.msecAlert (s : State) (p : Nat) : State :=
  if thas s.hal.alerts p && decide (s.tick < tget (fun _ => 0) s.hal.alerts p + sTicks 1) then s
  else (s.onHal (fun h => { h with alerts := tset (fun _ => 0) h.alerts p (s.tick) })).raise Ev.MACSEC_ALERT p

/-- The sending port, if there is one (R404). -/
def State.halPort (s : State) : Option Nat :=
  let n := s.get F.HAL_STATUS_SENDING
  if n ≤ 1 then some n else none

/-- A frame can leave: a port sends, and where it protects its frames the engine computes (R332, R334) and it has a transmit SA whose PN
is not used up (R414). -/
def State.halCan (s : State) : Bool :=
  match s.halPort with
  | none => false
  | some p => !s.msecOn p || (s.engineUp && match s.txSa p with | some a => decide (a.pn < s.lastPn p) | none => false)

/-- A frame to be sent needs GCM, which waits for frame-path CCM (R27). -/
def State.halHeld (s : State) : Bool := (match s.halPort with | some p => s.msecOn p | none => false) && s.ccmWaits

/-- A frame that could leave begins to wait for link GCM. -/
def State.halWait (s : State) : State :=
  s.onHal (fun h => { h with heldAt := match h.heldAt with | some t => some t | none => some s.tick })

/-- The transmit SA's next PN after a frame: `PN_HIGH` with EV243 when it reaches its mark, and `PN_EXHAUSTED` at the last PN
(R414). -/
def State.pnUsed (s : State) (p : Nat) (a : SaS) : State :=
  let n := a.pn + 1
  let s := s.onHal (fun h => { h with sas := h.sas.map (fun x => if x = a then { x with pn := n } else x) })
  let s := if s.highPn p ≤ n && !s.bit F.HAL_MSEC_STAT_PN_HIGH (msO p)
    then (s.putB F.HAL_MSEC_STAT_PN_HIGH (msO p) true).raise Ev.MACSEC_ALERT p else s
  if s.lastPn p ≤ n then s.putB F.HAL_MSEC_STAT_PN_EXHAUSTED (msO p) true else s

/-- Sends a payload of `n` records as one frame on the sending port (R404, R405, R413). -/
def State.halSend (s : State) (payload : List Byte) (n : Nat) : State :=
  match s.halPort with
  | none => s
  | some p =>
    let addr := s.halPeer ++ s.halMac
    let typed := s.halTyped payload
    let s := ((s.onHal (fun h => { h with heldAt := none })).incWrap F.HAL_CNT_TX_RECORDS 0 n).snoop 6 p (addr ++ typed)
    if !s.msecOn p then s.onHal (fun h => { h with last := some (p, addr ++ typed) })
    else match s.txSa p with
      | none => s
      | some a =>
        let sci := s.halMac ++ [0, 1]
        let tag := secTag a.an typed.length a.pn sci
        let e := gcmEnc (s.useKey a.key) (a.iv (s.bit F.HAL_MSEC_CFG_XPN (msO p)) sci a.pn) (addr ++ tag) typed
        (s.maskUse.onHal (fun h => { h with last := some (p, addr ++ tag ++ e.1 ++ e.2) })).pnUsed p a

/-- The fingerprint of the programmed anchor (R319), as the registers show it. -/
def State.fingerprint (s : State) : List Byte := le (s.get F.CIP_FINGERPRINT_LO_FP) 4 ++ le (s.get F.CIP_FINGERPRINT_HI_FP) 4

/-- The 64-bit serial number. -/
def State.serialNum (s : State) : Nat := s.get F.GLB_SERIAL_LO + 2 ^ 32 * s.get F.GLB_SERIAL_HI

/-- Sends HELLO (R409, R411) now. -/
def State.helloNow (s : State) : State :=
  let id := s.nodeId + (if s.bit F.BRD_STATUS_ID_VALID then 0x80 else 0)
  let body := le s.serialNum 8 ++ le (s.get F.HAL_CFG_VER_MIN + 1) 1 ++ le (s.get F.HAL_CFG_VER_MAX + 1) 1 ++ le id 1 ++ [0]
    ++ s.fingerprint
  let s := s.onHal (fun h => { h with helloAt := s.tick })
  if s.halCan then s.halSend (halPayload 0 [halRecord 0x20 0 0 0 0 0 0 body]) 1 else s

/-- Sends HELLO, which where it is protected waits for frame-path CCM (R27). -/
def State.halHello (s : State) : State := if s.halHeld && s.halCan then s.halWait else s.helloNow

/-! ### The drain (R244 to R246) -/

/-- The records that wait to be sent. -/
def State.unsent (s : State) : List SpoolRec := s.spool.filter (fun r => r.sent.isNone)

/-- The moment since which the balance is 0 while records wait (R244). -/
def State.creditWatch (s : State) : State :=
  if s.get F.SES_CREDIT_BALANCE = 0 && !s.unsent.isEmpty then
    (if s.creditZero.isSome then s else { s with creditZero := some s.tick })
  else { s with creditZero := none }

/-- Whether a spooled record can be read: in the output queue, or in CXL memory while the link is UP. -/
def State.canRead (s : State) (r : SpoolRec) : Bool := r.rc.page == 0 || s.cxlUp

/-- The record that is sent next (R245). -/
def State.nextRec (s : State) : Option SpoolRec :=
  let l := s.unsent.filter s.canRead
  let first := fun c => l.find? (fun r => r.rc.cls == c)
  match (if s.get F.SES_SPOOL_CFG_LOG_EVERY ≤ s.logSkip then first 4 else none) with
  | some r => some r
  | none => (List.range 5).findSome? first

/-- A record counts as sent (R244 to R246). -/
def State.recSent (s : State) (r : SpoolRec) : State :=
  let s := s.dec F.SES_CREDIT_BALANCE
  let waits := s.unsent.any (fun x => x.rc.cls == 4)
  { s with
    spool := s.spool.map (fun x => if x.rc.cls = r.rc.cls ∧ x.rc.seq = r.rc.seq then { x with sent := some s.tick } else x),
    logSkip := if r.rc.cls = 4 ∨ !waits then 0 else s.logSkip + 1 }

/-- The further records that a frame with room for `room` bytes and `n` more records takes, in sending order (R406). -/
def State.frameRecs (s : State) (room : Nat) : Nat → State × List (List Byte)
  | 0 => (s, [])
  | n + 1 =>
    if s.get F.SES_CREDIT_BALANCE = 0 then (s, [])
    else match s.nextRec with
      | none => (s, [])
      | some r =>
        let b := s.spoolBytes r
        if room < b.length then (s, [])
        else
          let t := (s.recSent r).frameRecs (room - b.length) n
          (t.1, b :: t.2)

/-- A class rewinds to its oldest unacknowledged record; what was sent is marked RESENT (R246, R407). -/
def State.rewind (s : State) (cls : Nat) : State :=
  { s with spool := s.spool.map (fun (x : SpoolRec) =>
    if x.rc.cls = cls ∧ x.sent.isSome then
      { x with sent := none, rc := { x.rc with flags := if x.rc.flags.testBit 3 then x.rc.flags else x.rc.flags + 8 } }
    else x) }

end Sys2Proof.Machine
end

