-- ==== Sys2Proof/Machine/Arbiter.lean ====
section
/-! DEFINITION. The arbiters of R27 whose work several commands do: the bandwidth of the CXL memory, which the root port gives out, and
the cipher engine.  In each order a lower entry is served only while no higher entry waits. -/
namespace Sys2Proof.Machine
open Sys2Proof

/-! ### CXL memory bandwidth -/

/-- A journal write waits and can run (R235). -/
def State.jrnReady (s : State) : Bool :=
  s.cxlUp && s.journals && (match s.jq with | u :: _ => !u.waits && s.jrnRoom u.bytes.length | [] => false)

/-- The fill of session `k`'s context waits and can run (R229). -/
def State.fillCan (s : State) (k : Nat) : Bool :=
  s.fills.contains k && (s.cacheOf k).isSome && s.cxlUp && s.storeOpen && !s.cacheOnly

/-- The bytes of a context (R224). -/
def ctxSize : Nat := 2048

/-- A write-back of session `k` waits and can run: journalling, the link and the ring allow it. -/
def State.backCan (s : State) (k : Nat) : Bool := s.wbq.contains k && s.cached k && s.journals && s.cxlUp && s.jrnRoom ctxSize

/-- A record of the output queue waits that the spool writer can store in CXL memory (R239, R242, R243). -/
def State.spoolReady (s : State) : Bool :=
  s.cxlUp && !s.queueSpools && decide ((s.spoolStep [] [] s.outq).outq.length < s.outq.length)

/-- A record of the spool waits to be read for Halyard, which can send it now (R244). -/
def State.readReady (s : State) : Bool :=
  s.cxlUp && s.bit F.HAL_STATUS_NEGOTIATED && s.halCan && s.get F.SES_CREDIT_BALANCE != 0 && s.nextRec.any (fun r => r.rc.page != 0)

/-- Entry `n` of the order for CXL memory waits (R27): 0 journal writes, 1 fills, 2 write-backs, 3 spool writes, 4 spool reads. -/
def State.cxlWaits (s : State) (n : Nat) : Bool :=
  match n with
  | 0 => s.jrnReady
  | 1 => s.fills.any (fun k => s.fillCan k)
  | 2 => s.wbq.any (fun k => s.backCan k)
  | 3 => s.spoolReady
  | _ => s.readReady

/-- Work of entry `n` waits for a higher entry of the order; entry 5 is the audits, the scrubs, and the saves and restores of
self-test. -/
def State.cxlHeld (s : State) (n : Nat) : Bool := (List.range n).any (fun k => s.cxlWaits k)

/-! ### The cipher engine -/

/-- The frame that leaves ring port `p` next: bring-up frames first, then by priority (R384); on a port whose lane 0 queues towards a
cutover nothing leaves (R394).  Every frame but HELLO is protected and needs link GCM (R367), which `gcm` grants. -/
def State.portPick (s : State) (p : Nat) (gcm : Bool) : Option (Nat × Msg) :=
  let mine := s.brdOut.filter (fun m => m.1 == p && (gcm || m.2.kind == 1))
  let st := s.linkSt (p + 1)
  let open' := (st == 2 && !s.brd.held.contains p) || (st == 3 && (s.link (p + 1)).rxSeq.isSome)
  match mine.find? (fun m => decide (m.2.kind < 0x20)) with
  | some m => some m
  | none => if !open' then none
    else [0, 1, 2, 3].findSome? (fun k => mine.find? (fun m => brdPrio m.2.kind == k))

/-- The frame that leaves the Splice link next (R376): bring-up frames, and on an UP link the messages in the order of their `LF_SEQ`, of
which those of the mirror stay until they are acknowledged (R377); `gcm` as for a ring port. -/
def State.splicePick (s : State) (gcm : Bool) : Option Msg :=
  let up := s.linkSt 0 == 2
  s.splOut.find? (fun m => if m.kind < 0x10 then gcm || m.kind == 1 else gcm && up && decide (s.spl.txTo ≤ m.seq))

/-- A Halyard frame that waits for link GCM can still leave: HELLO, or a record. -/
def State.halWaits (s : State) : Bool :=
  s.hal.heldAt.isSome && s.halCan && (!s.bit F.HAL_STATUS_NEGOTIATED || (s.nextRec.isSome && s.get F.SES_CREDIT_BALANCE != 0))

/-- A link frame waits for link GCM, of Halyard, the Splice link or a ring port. -/
def State.linkGcmWaits (s : State) : Bool :=
  s.halWaits || (s.splicePick true).any (fun m => m.kind != 1) || [0, 1].any (fun p => (s.portPick p true).any (fun m => m.2.kind != 1))

/-- Key derivation for prefetch waits for frame-path CCM or link GCM (R27). -/
def State.keysHeld (s : State) : Bool := s.ccmWaits || s.linkGcmWaits

/-- A raw job waits for a higher entry of the cipher engine's order (R27). -/
def State.rawHeld (s : State) : Bool := s.keysHeld || (!s.keyq.isEmpty && s.cipherUp)

end Sys2Proof.Machine
end

