-- ==== Sys2Proof/Machine/Serve.lean ====
section
/-! DEFINITION. What waits for a lease is served when the lease is granted: frames at the counter check, pin commands, the session
commands of `SES_CMD` (R218) and `CIP_SES_CMD` (R348), METER_COMMANDs (R228) and the marks of a REKEY_SWEEP (R434). -/
namespace Sys2Proof.Machine
open Sys2Proof

/-- The leases that were to end with their updates. -/
def State.letGoNow (s : State) : State :=
  let due := s.mac.letGo.filter (fun k => !s.leaseBusy k)
  due.foldl (fun (s : State) k => s.leaseEnd k) (s.onMac (fun m => { m with letGo := m.letGo.filter (fun k => !due.contains k) }))

/-- The command path still needs the lease on session `k`. -/
def State.pathNeeds (s : State) (k : Nat) : Bool :=
  (match s.sesCmd with | some c => c.session == k && c.op != 6 | none => false)
    || (match s.cipCmd with | some c => c.session == k | none => false) || s.meterCmds.any (fun m => m.session == k)

/-- The command path lets go of session `k`. -/
def State.pathRelease (s : State) (k : Nat) : State := if s.leasedBy k 24 && !s.pathNeeds k then s.leaseLater k else s

/-! ### Pending commands -/

/-- A line session's pending command enters class 0 (R187, R228). -/
def State.cmdPlan (s : State) (k : Nat) : State :=
  if s.isRadio k || (s.slot k).st != 2 || s.ctxNum k 0x400 2 == 0 || s.planQ.any (fun q => q.session == k && q.cls == 0)
      || s.exchs.any (fun e => e.session == k && e.cls == 0) || s.lateEnds.any (fun x => x.1.session == k && x.1.cls == 0) then s
  else { s with planQ := s.planQ ++ [(⟨k, 0, if (s.ctxNum k 0x402 2).testBit 0 then 1 else 3, 1, s.tick, false, false⟩ : PReq)] }

/-- What the context of a restored line session asks of the planner: its pending command and its rekeying (R187, R342). -/
def State.ctxPlan (s : State) (k : Nat) : State := (s.cmdPlan k).rekeyAgain k

/-- A session with a pending command is served with it: a line session by the planner, a radio session over the mesh where it is
relayed (R187, R228, R306). -/
def State.cmdServe (s : State) (k : Nat) : State :=
  let s := s.ctxPlan k
  if s.isRadio k then s.meshStart k else s

/-- A METER_COMMAND under its lease (R228, R415, R416): refused, or stored; it is answered when the store is journalled. -/
def State.meterRun (s : State) (m : MeterCmd) : State :=
  let k := m.session
  let answer := fun (r : Nat) => ({ s with meterCmds := s.meterCmds.erase m }.respond m.id 1 r k []).pathRelease k
  if (s.slot k).st ≠ 2 then answer 9
  else if s.ctxNum k 0x400 2 ≠ 0 then answer 3
  else
    let s := s.ctxUpdate k 0x400 (le m.payload.length 2 ++ le m.flags 2 ++ le m.id 4 ++ m.payload) 24
    { s with meterCmds := s.meterCmds.map (fun x => if x = m then { x with run := true, result := 1 } else x) }

/-- A METER_COMMAND is stored: QUEUED, and the session is served with it. -/
def State.meterDone (s : State) (m : MeterCmd) : State :=
  let s := ({ s with meterCmds := s.meterCmds.erase m }.respond m.id 1 m.result m.session []).pathRelease m.session
  s.cmdServe m.session

/-- METER_COMMANDs whose lease is granted are stored, those that are journalled are answered. -/
def State.meterServe (s : State) : State :=
  s.meterCmds.foldl (fun (s : State) m =>
    if m.run then (if s.jqHas m.session then s else s.meterDone m)
    else if s.leasedBy m.session 24 then
      let s := s.meterRun m
      match s.meterCmds.find? (fun x => x.id == m.id && x.session == m.session && x.run) with
      | some x => if s.jqHas m.session then s else s.meterDone x
      | none => s
    else s) s

/-! ### SES_CMD -/

/-- What the module remembers of session `k` outside its context goes with it. -/
def State.sesForget (s : State) (k : Nat) : State :=
  let s := { s with
    planQ := s.planQ.filter (fun q => q.session != k), assocs := s.assocs.filter (fun a => a.session != k),
    overdue := s.overdue.filter (· != k), pinBad := s.pinBad.filter (· != k), pinCords := s.pinCords.filter (· != k),
    phaseReps := s.phaseReps.filter (fun p => p.session != k), replied := tset (fun _ => 0) s.replied k 0,
    lateEnds := s.lateEnds.filter (fun x => x.1.session != k) }
  s.onMac (fun m => { m with
    assocs := m.assocs.filter (fun a => a.session != k), sends := m.sends.filter (fun x => x.session != k),
    cmdOut := m.cmdOut.filter (· != k), downQ := m.downQ.filter (fun d => d.session != k),
    holds := m.holds.filter (fun x => x.1 != k) })

/-- `SES_CMD` ends with a result (R255). -/
def State.sesResult (s : State) (result : Nat) : State :=
  ({ s with sesCmd := none }.putB F.SES_CMD_STAT_BUSY 0 false).put F.SES_CMD_STAT_RESULT 0 result

/-- The session command in progress ends: after DELETE the session is forgotten, after RESTORE it awaits restore no more (R252), and a
pending command that an image holds is served (R228). -/
def State.sesEnd (s : State) (c : SesCmd) (result : Nat) : State :=
  let k := c.session
  let s := (s.sesResult result).pathRelease k
  if c.op = 1 ∧ result = 0 then ((s.sesForget k).slotGone k).restoreOff k
  else if c.op = 5 ∧ result = 0 then s.cmdServe k
  else if c.op = 7 ∧ result = 0 then ((s.incSat F.SES_RESTORE_STAT_RESTORED).cmdServe k).restoreOff k
  else s

/-- The context window (R255). -/
def State.ctxWindow (s : State) : List Byte := (List.range 512).flatMap (fun n => le (s.live (0x108000 + 4 * n)).toNat 4)

/-- The image in force of session `k` with `JSEQ` and `CRC` computed (R225). -/
def State.sealedImage (s : State) (k : Nat) : List Byte :=
  let img := s.ctxBytes k 0 2048
  sealImage img (((s.slot k).newest).getD (ofLe ((img.drop 16).take 8)))

/-- The context window shows an image. -/
def State.showImage (s : State) (img : List Byte) : State :=
  (List.range 512).foldl (fun (s : State) n => s.setLive (0x108000 + 4 * n) (BitVec.ofNat 32 (ofLe ((img.drop (4 * n)).take 4)))) s

/-- The image that WRITE installs (R218). -/
def State.writeImage (s : State) (k : Nat) : List Byte :=
  let cur := s.ctxBytes k 0 2048
  [(0x000, 2), (0x003, 5), (0x010, 8), (0x028, 2)].foldl (fun l x => patch l x.1 ((cur.drop x.1).take x.2)) s.ctxWindow

/-- The image that RESTORE installs (R218, R252): the bytes a head-end restore carries, ACTIVE, and a line session RETRYING and due
at once.  The flag says that the priority flag was dropped because 1,024 sessions carry it. -/
def State.restoreImage (s : State) (k : Nat) : List Byte × Bool :=
  let w := s.ctxWindow
  let img := w.take 0x80 ++ List.replicate 0x100 0 ++ (w.drop 0x180).take 0x80 ++ List.replicate 0x200 0 ++ w.drop 0x400
  let f := (img.getD 1 0).toNat
  let many := f % 2 == 1 && decide (1024 ≤ s.prioCount)
  let flags := (if many then 0 else f % 2) + f / 2 % 2 * 2
  let line := f / 2 % 2 == 0
  let place := (img.getD 0x41 0).toNat % 64 + 64
  let ps : List (Nat × List Byte) := [(0x000, [2]), (0x001, le flags 1), (0x003, [1]), (0x004, le 0 4), (0x010, le 0 8),
    (0x028, le k 2)] ++ (if line then [(0x041, le place 1), (0x054, le s.tick 8)] else [])
  (ps.foldl (fun l x => patch l x.1 x.2) img, many)

/-- Whether `SES_CMD` op `op` is allowed in slot state `st` (R218). -/
def sesAllowed (op st : Nat) : Bool := match op with
  | 1 => st == 1 || st == 2 || st == 3
  | 4 => st == 1 || st == 2
  | 7 => st == 0 || st == 3
  | 8 => true
  | _ => st == 2

/-- A session command runs under its lease (R217, R218). -/
def State.sesRun (s : State) (c : SesCmd) : State :=
  let k := c.session
  let go := { s with sesCmd := some { c with run := true } }
  if !sesAllowed c.op (s.slot k).st then s.sesEnd c 3
  else match c.op with
  | 1 => go.ctxUpdate k 0 (List.replicate 2048 0) 24 [] 2
  | 2 =>
    if (s.slot k).prio then s.sesEnd c 0
    else if 1024 ≤ s.prioCount then (s.raise Ev.PRIO_LIMIT k).sesEnd c 2
    else go.ctxPut k 0x001 1 (s.ctxNum k 0x001 1 + 1) 24
  | 3 => if (s.slot k).prio then go.ctxPut k 0x001 1 (s.ctxNum k 0x001 1 - 1) 24 else s.sesEnd c 0
  | 4 => (s.showImage (s.sealedImage k)).sesEnd c 0
  | 5 =>
    let r := s.ctrImage k (s.writeImage k)
    (go.ctrImageVault k r.1 r.2).ctxUpdate k 0 r.1 24
  | _ => (go.writeBack k).pathRelease k

/-- RESTORE, whose slot has no accessible context, takes an entry of the cache and with it the lease, and installs its image (R218,
R252); it waits for an entry as for the lease (R230).  A slot restored meanwhile ends it STATE (R254). -/
def State.restoreRun (s : State) (c : SesCmd) : State :=
  let k := c.session
  let asked := fun (q : LeaseReq) => q.session == k && q.holder == 24
  if !sesAllowed 7 (s.slot k).st then { s with leaseQ := s.leaseQ.filter (fun q => !asked q) }.sesEnd c 3
  else
    let a := s.allocEntry k
    if !a.2 then a.1
    else
      let s := { (a.1.onCache k (fun e => { e with filled := true })) with
        ctx := tsplice (2048 * k) (2048 * k + 2048) [] a.1.ctx, leaseQ := a.1.leaseQ.filter (fun q => !asked q) }.homeDrop k
      let l := s.leaseTry k 24
      if !l.2 then { l.1 with leaseQ := a.1.leaseQ }
      else
        let i := l.1.restoreImage k
        let s := l.1.raiseIf i.2 Ev.PRIO_LIMIT k
        let r := s.ctrImage k i.1
        let s := { s with sesCmd := some { c with run := true } }
        (s.ctrImageVault k r.1 r.2).ctxUpdate k 0 r.1 24 [] 1

/-- The session command in progress is served when its lease is granted, and ends when its update is journalled. -/
def State.sesServe (s : State) : State :=
  match s.sesCmd with
  | none => s
  | some c =>
    let s := if c.run then s
      else if c.op = 7 then s.restoreRun c
      else if s.leasedBy c.session 24 then s.sesRun c else s
    match s.sesCmd with
    | none => s
    | some c => if c.run && c.op != 6 && !s.jqHas c.session then s.sesEnd c 0 else s

/-- DELETE of a PARKED session, whose context is not accessible: the slot is freed once its SLOT entry is written (R218, R235, R237). -/
def State.parkedDelete (s : State) (c : SesCmd) : State :=
  let s := { s with sesCmd := some { c with run := true } }.putB F.SES_CMD_STAT_BUSY 0 true
  if s.journals then s.jrnOwn 2 c.session 24 0 (List.replicate 2048 0) else s

/-! ### CIP_SES_CMD -/

/-- `CIP_SES_CMD` ends with a result (R348). -/
def State.cipResult (s : State) (k result : Nat) : State :=
  (({ s with cipCmd := none }.putB F.CIP_SES_STAT_BUSY 0 false).put F.CIP_SES_STAT_RESULT 0 result).pathRelease k

/-- The registers that `CIP_SES_CMD` READ fills (R348). -/
def State.cipShow (s : State) (k : Nat) : State :=
  let s := (s.put F.CIP_SES_KEY_EPOCH 0 (s.epochOf k)).put F.CIP_SES_KEY_PROV 0 (s.provOf k)
  let s := s.put F.CIP_SES_FLAGS_CSTATE 0 (s.cstate k)
  let s := s.putB F.CIP_SES_FLAGS_RX_INEXACT 0 ((s.ctxNum k 0x180 1).testBit 3)
  let s := s.putB F.CIP_SES_FLAGS_MIRROR 0 ((s.vaultNum (0x080000 + 8 * k + 6) 1).testBit 0)
  let s := s.put F.CIP_SES_FLAGS_REKEY_SENT 0 (s.ctxNum k 0x186 2)
  let s := (s.put F.CIP_SES_TX_NEXT 0 (s.ctxNum k 0x188 4)).put F.CIP_SES_TXC 0 (s.ctxNum k 0x18C 4)
  (s.put F.CIP_SES_RX_NEXT 0 (s.ctxNum k 0x190 4)).put F.CIP_SES_RXM 0 (s.ctxNum k 0x194 4)

/-- A cipher session command runs under its lease. -/
def State.cipRun (s : State) (c : SesCmd) : State :=
  let k := c.session
  let go := { s with cipCmd := some { c with run := true } }
  match c.op with
  | 1 => (s.cipShow k).cipResult k 0
  | 2 => if s.cstate k = 0 then go.enterDue k 24 else s.cipResult k 2
  | _ => if s.cstate k = 5 then s.cipResult k 2 else go.enterReprovision k 24

/-- The cipher session command in progress is served when its lease is granted, and ends when its update is journalled. -/
def State.cipServe (s : State) : State :=
  match s.cipCmd with
  | none => s
  | some c =>
    let s := if !c.run && s.leasedBy c.session 24 then s.cipRun c else s
    match s.cipCmd with
    | none => s
    | some c => if c.run && !s.jqHas c.session then s.cipResult c.session 0 else s

/-! ### Frames, sweeps of rekeying, and the whole -/

/-- The holder under whose lease a waiting frame goes on (R231, R233). -/
def State.waitHolder (s : State) (w : AccWait) : Nat :=
  if s.leasedBy w.session 7 then 7 else if 576 ≤ w.body.rx then 3 else s.servant w.session

/-- Frames accepted under R141 that waited for their session's lease, or for the partner, pass on to the counter check (R233,
R377); those whose Vault writes are done go on (R339, R341, R343).  The frames of one session pass in order (R347). -/
def State.accServe (s : State) : State :=
  match s.accWait.find? (fun w => s.leasedBy w.session (s.waitHolder w) &&
      (if w.what == 4 then !s.vaultUnacked w.session && !s.accBusy w.session else w.left == 0)) with
  | some w =>
    let s := { s with accWait := s.accWait.erase w }
    if w.what = 4 then s.counterCheck w else s.accFinish w
  | none => s

/-- A session that a REKEY_SWEEP marks (R434): ACTIVE, NORMAL and below the limit. -/
def State.sweepMarks (s : State) (k limit : Nat) : Bool :=
  (s.slot k).st == 2 && k != 0 && s.cstate k == 0 && (decide (s.epochOf k < limit) || limit == 0xFFFF)

/-- The sessions that a REKEY_SWEEP has still to mark are marked under the job's lease. -/
def State.marksServe (s : State) : State :=
  s.rekeyMarks.foldl (fun (s : State) x =>
    let k := x.1
    let h := 8 + x.2
    if s.leasedBy k h then
      let s := { s with rekeyMarks := s.rekeyMarks.erase x }
      let limit := s.jobParam x.2 1 % 65536
      let s := if s.sweepMarks k limit then (s.enterDue k h).setJobData x.2 0 (s.jobData x.2 0 + 1) else s
      s.leaseLater k
    else s) s

/-- What ended exchanges leave in their contexts follows once the planner has the lease (R210, R227). -/
def State.lateServe (s : State) : State :=
  s.lateEnds.foldl (fun (s : State) x =>
    let k := x.1.session
    let h := plannerOf x.1.cord
    if s.leasedBy k h then (({ s with lateEnds := s.lateEnds.erase x }.exchCtx x.1 x.2 h).leaseLater k)
    else if (s.slot k).st != 2 then { s with lateEnds := s.lateEnds.erase x }.exchCtx x.1 x.2 h
    else s) s

/-- The planner's request for session `k` is refused: what its ended exchanges leave is the retry alone. -/
def State.lateRefused (s : State) (k h : Nat) : State :=
  (s.lateEnds.filter (fun x => x.1.session == k && plannerOf x.1.cord == h)).foldl (fun (s : State) x =>
    { s with lateEnds := s.lateEnds.erase x }.exchCtx x.1 x.2 h) s

/-- One pass over everything that waits for a lease. -/
def State.servePass (s : State) : State :=
  s.letGoNow.lateServe.pinServe.accServe.sesServe.cipServe.meterServe.marksServe

/-- Passes until nothing more can be served. -/
def State.serveN (s : State) : Nat → State
  | 0 => s
  | n + 1 => s.servePass.serveN n

/-- Serves what waits for a lease. -/
def State.serve (s : State) : State :=
  s.serveN (2 + s.accWait.length + s.meterCmds.length)

end Sys2Proof.Machine
end

