-- ==== Sys2Proof/Machine/Sessions.lean ====
section
/-! DEFINITION. Session commands, leases, the context cache, the journal and the flow of records (R215 to R246). -/
namespace Sys2Proof.Machine
open Sys2Proof

/-! ### Restoring -/

/-- A record of the output queue moves to a page of its class, keeping its `SPOOL_SEQ` (R250, R532); it stays where no page can be
given. -/
def State.queueMove (s : State) (r : SpoolRec) : State :=
  let n := recSize r.rc
  let put := fun (s : State) (page : Nat) =>
    let off := s.pageUsed page
    (({ s with
    spool := s.spool.map (fun (x : SpoolRec) => if x.rc.cls = r.rc.cls ∧ x.rc.seq = r.rc.seq then
      { x with rc := { x.rc with page := page }, off := off } else x),
    pages := s.pages.map (fun p => if p.num = page then { p with used := p.used + n } else p) } : State).snoop 3 3 r.rc.spooled).spoolHigh r.rc.cls
  match s.roomPage r.rc.cls n with
  | some p => put s p.num
  | none => match s.newPage r.rc.cls with
    | some t => put t (t.pageNext - 1)
    | none => s

/-- The unacknowledged records of the output queue move to the spool in `SPOOL_SEQ` order (R250, R532). -/
def State.queueToSpool (s : State) : State :=
  (s.spool.filter (fun r => r.rc.page == 0)).foldl (fun (s : State) r => s.queueMove r) s

/-- The Splice partner can be asked for contexts: the link is UP and the pair is formed (R250, R251, R381). -/
def State.partnerThere (s : State) : Bool := s.get F.SPL_STATUS_LINK == 2 && s.bit F.SPL_STATUS_PAIRED

/-- The PARKED sessions that have been asked of no one yet. -/
def State.parkedRest (s : State) : List Nat := s.parkedList.filter (fun k => !s.restoreQ.contains k && !s.spl.want.contains k)

/-- PARKED sessions are restored: from the Splice partner, or else from the head-end (R250 to R252). -/
def State.parkedRestore (s : State) : State :=
  let ks := s.parkedRest
  let s := { s with restoring := true }
  if ks.isEmpty then s.restoreEnd
  else if s.partnerThere then (s.put F.SES_STATUS_RESTORE_SRC 0 2).splAsk ks
  else (s.put F.SES_STATUS_RESTORE_SRC 0 3).headendRestore ks

/-! ### Session commands (R218, R255) -/

/-- RESTORE_END frees every slot that awaits head-end restore; a SLOT entry says so (R218, R235). -/
def State.restoreFree (s : State) : State :=
  let due := s.restoreQ.filter (fun k => (s.slot k).st == 3)
  let s := due.foldl (fun (s : State) k =>
    let s := if s.journals then s.jrnOwn 2 k 24 0 [0, 0] else s
    (s.sesForget k).slotGone k) s
  { s with restoreQ := [] }.restoreShow.restoreEnd

/-- A write of `SES_CMD` with op `op`: ignored while a command is in progress; refused where the op is not allowed; a session with a
context takes the lease of the command path first.  DESIGN CHOICE, log entry 141: FLUSH of a cached context ends BUSY in cache-only
mode. -/
def State.sesWrite (s : State) (i : Iface) (w : Word) (op : Nat) : State :=
  let s := s.wlogNote i F.SES_CMD.addr w
  if F.SES_CMD_OP.of w ≠ op ∨ s.bit F.SES_CMD_STAT_BUSY then s
  else
    let k := F.SES_CMD_SESSION.of w
    let s := s.put F.SES_CMD_STAT_SESSION 0 k
    let st := (s.slot k).st
    let c : SesCmd := ⟨op, k, false⟩
    if op = 8 then s.restoreFree.sesResult 0
    else if 0xFFFE ≤ k ∨ (k = 0 ∧ op ≠ 4 ∧ op ≠ 6) ∨ !sesAllowed op st then s.sesResult 3
    else if s.cacheOnly ∧ (st = 0 ∨ st = 3 ∨ !s.cached k) then s.sesResult 4
    else if s.cacheOnly ∧ op = 6 then s.sesResult 1
    else if op = 1 ∧ st = 3 then (s.parkedDelete c).serve
    else if op = 7 then
      ({ s with sesCmd := some c, leaseQ := s.leaseQ ++ [(⟨k, 24, s.tick⟩ : LeaseReq)] }.putB F.SES_CMD_STAT_BUSY 0 true).serve
    else (({ s with sesCmd := some c }.putB F.SES_CMD_STAT_BUSY 0 true).leaseAsk k 24).serve

/-- SES_CMD_DELETE (R218). -/
def execSesCmdDelete (i : Iface) (w : Word) (s : State) : Out := s.answer <| .next (s.sesWrite i w 1)
/-- SES_CMD_SET_PRIO (R217, R218). -/
def execSesCmdSetPrio (i : Iface) (w : Word) (s : State) : Out := s.answer <| .next (s.sesWrite i w 2)
/-- SES_CMD_CLEAR_PRIO (R217, R218). -/
def execSesCmdClearPrio (i : Iface) (w : Word) (s : State) : Out := s.answer <| .next (s.sesWrite i w 3)
/-- SES_CMD_READ (R218). -/
def execSesCmdRead (i : Iface) (w : Word) (s : State) : Out := s.answer <| .next (s.sesWrite i w 4)
/-- SES_CMD_WRITE (R218). -/
def execSesCmdWrite (i : Iface) (w : Word) (s : State) : Out := s.answer <| .next (s.sesWrite i w 5)
/-- SES_CMD_FLUSH (R218, R236). -/
def execSesCmdFlush (i : Iface) (w : Word) (s : State) : Out := s.answer <| .next (s.sesWrite i w 6)
/-- SES_CMD_RESTORE (R218, R252). -/
def execSesCmdRestore (i : Iface) (w : Word) (s : State) : Out := s.answer <| .next (s.sesWrite i w 7)
/-- SES_CMD_RESTORE_END (R218, R252). -/
def execSesCmdRestoreEnd (i : Iface) (w : Word) (s : State) : Out := s.answer <| .next (s.sesWrite i w 8)

/-! ### Leases (R231 to R234) -/

/-- A session that has a context: PROVISIONAL or ACTIVE. -/
def State.hasCtx (s : State) (k : Nat) : Bool := (s.slot k).st == 1 || (s.slot k).st == 2

/-- LEASE_REQUEST (R229, R232, R233). -/
def execLeaseRequest (sess : BitVec 16) (holder : Fin 25) (s : State) : Out := s.answer <|
  let k := sess.toNat
  .next (if s.hasCtx k && holder.val != 4 && holder.val != 5 then (s.leaseAsk k holder.val).serve else s)

/-- The lease on a context is the one that an identifier and a holder name (R232). -/
def State.leaseIs (s : State) (k id h : Nat) : Bool :=
  ((s.leaseOf k).map (fun l => l.id == id && l.holder == h)).getD false

/-- LEASE_RELEASE (R232). -/
def execLeaseRelease (sess id : BitVec 16) (holder : Fin 25) (s : State) : Out := s.answer <|
  .next (if s.leaseIs sess.toNat id.toNat holder.val then (s.leaseEnd sess.toNat).serve else s)

/-- LEASE_RENEW (R232). -/
def execLeaseRenew (sess id : BitVec 16) (holder : Fin 25) (s : State) : Out := s.answer <|
  .next (if s.leaseIs sess.toNat id.toNat holder.val then s.leaseTouch sess.toNat else s)

/-- A release of the lease on session `k` waits at this tick (R254). -/
def State.releaseWaits (s : State) (k : Nat) : Bool := s.pending.any (fun i => match i with
  | .leaseRelease a id h => a.toNat == k && s.leaseIs k id.toNat h.val
  | _ => false)

/-- LEASE_EXPIRY (R232, R234): expiry is not measured while the holder has an update queued behind the journal, and a release at the same
tick goes first (R254). -/
def execLeaseExpiry (sess : BitVec 16) (s : State) : Out := s.answer <|
  let k := sess.toNat
  match s.leaseOf k with
  | none => .next s
  | some l =>
    let queued := s.jq.any (fun u => u.session == k && u.lease == some l.id)
    .next (if l.expires ≤ s.tick ∧ !queued ∧ !s.releaseWaits k then ((s.revoke k).exchEnd k 5).serve else s)

/-- What waited for a lease that is refused ends (R209, R218, R228, R233, R348). -/
def State.leaseRefused (s : State) (k h : Nat) : State :=
  let s := if h = 24 then
      let s := match s.sesCmd with
        | some c => if c.session = k ∧ !c.run then s.sesResult 1 else s
        | none => s
      let s := match s.cipCmd with
        | some c => if c.session = k ∧ !c.run then s.cipResult k 1 else s
        | none => s
      (s.meterCmds.filter (fun m => m.session == k && !m.run)).foldl (fun (s : State) m =>
        { s with meterCmds := s.meterCmds.erase m }.respond m.id 1 2 k []) s
    else s
  let s := if h = 1 ∨ h = 2 then
      match s.pinCmd with
      | some c => if c.session = k then { s with pinCmd := none }.putB F.PLN_PIN_STAT_BUSY 0 false else s
      | none => s
    else s
  let s := s.lateRefused k h
  let s := if 8 ≤ h ∧ h ≤ 23 then { s with rekeyMarks := s.rekeyMarks.filter (fun x => x != (k, h - 8)) } else s
  if h = 1 ∨ h = 2 ∨ h = 3 ∨ h = 7 then
    (s.accWait.filter (fun w => (w.what == 4 || w.left == 0) && w.session == k)).foldl (fun (s : State) w =>
      ({ s with accWait := s.accWait.erase w }.incSat F.SES_FLOW_CNT_LEASE_DROP).notReply w.body) s
  else s

/-- LEASE_WAIT_TIMEOUT (R233). -/
def execLeaseWaitTimeout (sess : BitVec 16) (holder : Fin 25) (s : State) : Out := s.answer <|
  let k := sess.toNat
  match s.leaseQ.find? (fun q => q.session == k && q.holder == holder.val) with
  | none => .next s
  | some q =>
    if q.since + msTicks (s.get F.SES_LEASE_CFG_WAIT_MAX) ≤ s.tick then
      let s := ({ s with leaseQ := s.leaseQ.erase q }.incSat F.SES_LEASE_CNT_REFUSED).raise Ev.LEASE_REFUSED holder.val
      .next (s.leaseRefused k holder.val).serve
    else .next s

/-! ### The cache (R229, R230, R238) -/

/-- CONTEXT_PREFETCH (R229, R321). -/
def execContextPrefetch (sess : BitVec 16) (s : State) : Out := s.answer <|
  .next (if s.hasCtx sess.toNat then s.prefetch sess.toNat else s)

/-- CONTEXT_FILL_DONE (R27, R229, R247): the image is checked; a bad or poisoned one is rebuilt. -/
def execContextFillDone (sess : BitVec 16) (poison : Bool) (s : State) : Out := s.answer <|
  let k := sess.toNat
  if s.fillCan k && !s.cxlHeld 1 then
    let s := { s with fills := s.fills.filter (· != k) }.incWrap F.SES_CACHE_CNT_FILLS
    if poison then .next ((s.cxlPoison (homeAddr k) k).startRebuild k)
    else
      let img := s.homeImage k
      if imageGood img k then
        .next (((s.loadImage k img false).keysAhead k).grantNext k).serve
      else .next (s.startRebuild k)
  else .next s

/-- A rebuild whose walk meets a poisoned entry (R238, R247): which of the entries it reads is a free value. -/
def State.walkPoison (s : State) (k : Nat) (reads : List JEntry) : State :=
  let r := s.draw 32
  match reads[r.1.toNat % reads.length]? with
  | some e => (r.2.cxlPoison (0x0C000000 + 64 * e.pos) k).ctxLost k
  | none => s

/-- CONTEXT_REBUILD_DONE (R238): from the home copy or the newest checkpoint, with the later UPDATE entries of the journal; a poisoned
read of an entry ends the walk. -/
def execContextRebuildDone (sess : BitVec 16) (homePoison jrnPoison : Bool) (s : State) : Out := s.answer <|
  let k := sess.toNat
  let flight := match s.jq with | u :: _ => u.session == k && !u.waits | [] => false
  if !s.rebuilds.contains k || flight then .next s
  else
    let s := { s with rebuilds := s.rebuilds.filter (· != k) }
    let s := if homePoison then s.cxlPoison (homeAddr k) k else s
    let reads := s.rebuildReads k homePoison
    match s.rebuildBase k homePoison with
    | none => .next (if jrnPoison && !reads.isEmpty then s.walkPoison k reads else s.ctxLost k).serve
    | some base =>
      if jrnPoison && !reads.isEmpty then .next (s.walkPoison k reads).serve
      else
        let img := s.rebuildImage k base
        let s := ((s.loadImage k img true).slotOfImage k img).incSat F.SES_JRN_STAT_REBUILDS
        .next (((s.raise Ev.CTX_REBUILT k).keysAhead k).grantNext k).serve

/-! ### The journal (R235 to R237) and the store header (R222) -/

/-- The sequence number that the next entry of `n` data bytes takes. -/
def State.nextSeq (s : State) (n : Nat) : Nat := if s.padUnits (entryUnits n) = 0 then s.jrnSeq else s.jrnSeq + 1

/-- The entries of session `k` up to `seq` are releasable (R236). -/
def State.jrnFree (s : State) (k seq : Nat) : State :=
  { s with jrn := s.jrn.map (fun (e : JEntry) => if e.session = k ∧ e.kind ≠ 3 ∧ e.seq ≤ seq then { e with free := true } else e) }

/-- An entry has been written, and its update is applied (R235): to the cached context; to a home copy whose context is not cached, which
then reflects it; or, where it frees a slot without a context, by giving up the home copy. -/
def State.entryApply (s : State) (u : JUpd) (bytes : List Byte) (seq : Nat) : State :=
  let k := u.session
  let st := (s.slot k).st
  if u.kind = 2 ∧ u.lease.isNone then ((s.homeDrop k).jrnFree k seq).jrnTrim
  else if s.cached k then s.ctxStore k u.offset bytes
  else if !s.rebuilds.contains k && (st == 1 || st == 2) && s.homeGood k false then
    let img := patch (s.homeImage k) u.offset bytes
    (((s.homePut k (sealImage img seq)).slotOfImage k img).jrnFree k seq).jrnTrim
  else s

/-- JOURNAL_WRITE_DONE (R235): the entry is written, then its update is applied, then what it releases is released. -/
def execJournalWriteDone (s : State) : Out := s.answer <|
  match s.jq with
  | [] => .next s
  | u :: rest =>
    if u.waits || !s.cxlUp || !s.journals then .next s
    else if !s.jrnRoom u.bytes.length then .next { s with jq := { u with waits := true } :: rest }
    else
      let k := u.session
      let bytes := if u.kind = 1 then sealImage u.bytes (s.nextSeq u.bytes.length) else u.bytes
      let seq := s.nextSeq u.bytes.length
      let s := { s with jq := rest }.jrnAppend u.kind k u.holder u.offset bytes
      let s := s.entryApply u bytes seq
      let s := { s with outq := s.outq ++ u.follow }
      let cur := (s.leaseOf k).map (·.id)
      let s := if cur.isSome && u.lease == cur then s.leaseTouch k else s
      .next s.jrnHigh.serve

/-- JOURNAL_UPDATE_RESUME (R237). -/
def execJournalUpdateResume (s : State) : Out := s.answer <|
  match s.jq with
  | [] => .next s
  | u :: rest =>
    .next (if u.waits ∧ s.jrnRoom u.bytes.length then { s with jq := { u with waits := false } :: rest.map (fun (x : JUpd) => { x with waits := false }) } else s)

/-- The checkpoint and the home copy of a write-back: what the session's entries up to the checkpoint held is released. -/
def State.backStored (s : State) (k seq : Nat) (img : List Byte) : State :=
  let s := s.jrnAppend 1 k 0 0 img
  let s := { s.homePut k img with wbq := s.wbq.filter (· != k) }.jrnFree k seq
  ((s.onCache k (fun e => { e with dirty := false })).jrnTrim.jrnHigh).fillsGo

/-- FLUSH ends with its write-back (R218). -/
def State.flushEnd (s : State) (k : Nat) : State :=
  match s.sesCmd with
  | some c => if c.op = 6 ∧ c.run ∧ c.session = k then s.sesEnd c 0 else s
  | none => s

/-- After the last write-back of R250 the records move and the PARKED sessions are restored. -/
def State.returnGo (s : State) : State :=
  if s.get F.SES_STATUS_MODE = 2 ∧ s.wbq.isEmpty ∧ s.spl.want.isEmpty
  then s.queueToSpool.parkedRestore else s

/-- WRITE_BACK_DONE (R27, R236): checkpoint, home copy, read-back, and the session's entries up to the checkpoint become releasable; the
last write-back of R250 lets the records and the PARKED sessions follow. -/
def execWriteBackDone (sess : BitVec 16) (s : State) : Out := s.answer <|
  let k := sess.toNat
  if !s.backCan k || s.cxlHeld 2 then .next s
  else
    let seq := s.nextSeq ctxSize
    let img := sealImage (s.ctxImage k) seq
    .next ((s.backStored k seq img).flushEnd k).returnGo.serve

/-- STORE_HEADER_WRITE (R222): at most once per second, when `JRN_TAIL` has moved. -/
def execStoreHeaderWrite (s : State) : Out := s.answer <|
  match s.store with
  | none => .next s
  | some h =>
    let t := s.jrnTail
    .next (if s.journals && s.cxlUp && s.hdrTail != t && decide (s.hdrAt + sTicks 1 ≤ s.tick)
      then s.hdrWrite { h with jrnTail := t } else s)

/-! ### Records (R239 to R246) -/

/-- SPOOL_WRITE (R27, R239, R241 to R243): a write to CXL memory waits for the higher entries of its order. -/
def execSpoolWrite (s : State) : Out := s.answer <|
  .next (if !s.outq.isEmpty && (s.queueSpools || (s.cxlUp && !s.cxlHeld 3)) then ((s.spoolStep [] [] s.outq).spoolFullEnd).creditWatch else s)

/-- A record read poisoned is discarded and counted (R247). -/
def State.recPoison (s : State) (r : SpoolRec) : State :=
  let s := s.cxlPoison (0x20000000 + 65536 * (r.rc.page - 1) + r.off) r.rc.session
  { s with spool := s.spool.erase r }.spoolDrop 1 r.rc.cls

/-- The next record is sent: its read from CXL memory waits for the higher entries of its order (R27), and in v2 and v3 as many more go
with it as the frame and the credits take (R244, R245, R406). -/
def State.recordSend (s : State) (poison : Bool) : State :=
  match s.nextRec with
  | none => s
  | some r =>
    if r.rc.page != 0 && s.cxlHeld 4 then s
    else if poison && r.rc.page != 0 then (s.recPoison r).creditWatch
    else
      let v := s.get F.HAL_STATUS_VERSION
      let b := s.spoolBytes r
      let t := (s.recSent r).frameRecs (s.halRoom - 8 - b.length) (if v = 0 then 0 else 254)
      ((t.1.halSend (halPayload (v + 1) (b :: t.2)) (1 + t.2.length))).creditWatch

/-- RECORD_SEND (R27, R244, R245, R406): a frame that MACsec protects waits for frame-path CCM. -/
def execRecordSend (poison : Bool) (s : State) : Out := s.answer <|
  if s.bit F.HAL_STATUS_NEGOTIATED && s.halCan && s.get F.SES_CREDIT_BALANCE != 0 then
    .next (if s.halHeld && s.nextRec.isSome then s.halWait else s.recordSend poison)
  else .next s

/-- A CREDIT record of `n` (R244, R410). -/
def State.halCredit (s : State) (n : Nat) : State :=
  if n = 0 then s
  else ({ s with stallRaised := false }.put F.SES_CREDIT_BALANCE 0 (min 16777215 (s.get F.SES_CREDIT_BALANCE + n))).creditWatch

/-- CREDIT (R244). -/
def execCredit (n : BitVec 32) (s : State) : Out := s.answer <| .next (s.halCredit n.toNat)

/-- CREDIT_STALL (R244). -/
def execCreditStall (s : State) : Out := s.answer <|
  match s.creditZero with
  | none => .next s
  | some t =>
    .next (if t + sTicks (s.get F.SES_DRAIN_CFG_STALL) ≤ s.tick ∧ !s.stallRaised
      then ({ s with stallRaised := true }.incSat F.SES_DRAIN_CNT_STALLS).raise Ev.CREDIT_STALL 0 else s)

/-- An acknowledgement of class `cls` up to `seq` (R246). -/
def State.halAck (s : State) (cls seq : Nat) : State :=
  if s.spoolNext.getD cls 0 ≤ seq ∨ seq < s.spoolAck.getD cls 0 then s
  else
    let s := { s with
      spool := s.spool.filter (fun r => !(r.rc.cls == cls && decide (r.rc.seq ≤ seq))),
      spoolAck := s.spoolAck.set cls (seq + 1) }
    let s := { s with pages := s.pages.filter (fun p => p.used == 0 || s.spool.any (fun r => r.rc.page == p.num)) }
    (s.spoolHigh cls).creditWatch

/-- HAL_ACK (R246). -/
def execHalAck (cls : Fin 5) (seq : BitVec 64) (s : State) : Out := s.answer <| .next (s.halAck cls.val seq.toNat)

/-- The acknowledgements of class `cls` that wait at this tick (R254). -/
def State.acksNow (s : State) (cls : Nat) : State :=
  s.pending.foldl (fun (s : State) i => match i with
    | .halAck c seq => if c.val = cls then s.halAck cls seq.toNat else s
    | _ => s) s

/-- DRAIN_REWIND (R246): the acknowledgements of the same tick go first (R254). -/
def execDrainRewind (cls : Fin 5) (s : State) : Out := s.answer <|
  let s := s.acksNow cls.val
  match s.spool.find? (fun r => r.rc.cls == cls.val) with
  | none => .next s
  | some r => match r.sent with
    | none => .next s
    | some t =>
      .next (if t + msTicks (s.get F.SES_DRAIN_CFG_ACK_TIMEOUT) < s.tick
        then ((s.rewind cls.val).incSat F.SES_DRAIN_CNT_REWINDS).raise Ev.DRAIN_REWIND cls.val |>.creditWatch else s)

end Sys2Proof.Machine
end

