-- ==== Sys2Proof/Machine/Cipher.lean ====
section
/-! DEFINITION. The cipher engine's commands: the anchor (R316), the key cache (R321), entropy (R332), Vault writes (R336), raw jobs
(R328 to R330) and the session commands of `CIP_SES_CMD` (R348). -/
namespace Sys2Proof.Machine
open Sys2Proof

/-- Changes the cipher engine's own state. -/
def State.onCip (s : State) (f : CipS → CipS) : State := { s with cip := f s.cip }

/-! ### The anchor (R315, R316) -/

/-- KA as staged: byte i at bits [8i+7:8i]. -/
def State.staged (s : State) : List Byte := (List.range 8).flatMap (fun j => le (s.live (F.CIP_ANCHOR_DATA.addr + 4 * j)).toNat 4)

/-- Programming ends with a result: the staging registers are zeroed, and the event says how it went (R316, step 7). -/
def State.anchorEnd (s : State) (result : Nat) : State :=
  let s := (List.range 8).foldl (fun (s : State) j =>
    (s.setLive (F.CIP_ANCHOR_DATA.addr + 4 * j) 0).setShad (F.CIP_ANCHOR_DATA.addr + 4 * j) 0) s
  let s := (s.putB F.CIP_ANCHOR_STAT_BUSY 0 false).put F.CIP_ANCHOR_STAT_RESULT 0 result
  s.raise (if result = 1 then Ev.ANCHOR_PROGRAMMED else Ev.ANCHOR_REFUSED) 0

/-- ANCHOR_PROGRAM (R316): refused, or the fuses begin to be blown. -/
def execAnchorProgram (i : Iface) (w : Word) (s : State) : Out := s.answer <|
  let s := s.wlogNote i F.CIP_ANCHOR_CMD.addr w
  if !F.CIP_ANCHOR_CMD_PROGRAM.on w ∨ s.bit F.CIP_ANCHOR_STAT_BUSY then .next s
  else
    let ka := s.staged
    if s.anchorTried then .next (s.anchorEnd 2)
    else if F.CIP_ANCHOR_CMD_KEY.of w ≠ 0xA9 ∨ ka = List.replicate 32 0 ∨ ka = List.replicate 32 0xFF then .next (s.anchorEnd 3)
    else
      let s := { s with anchorTried := true }.onCip (fun c => { c with blowing := some ka })
      .next (s.putB F.CIP_ANCHOR_STAT_BUSY 0 true)

/-- ANCHOR_PROGRAM_DONE (R316, R331): `good` says that the fuses read back as staged.  DESIGN CHOICE, log entry 116: the fuses hold KA as
two shares. -/
def execAnchorProgramDone (good : Bool) (s : State) : Out := s.answer <|
  match s.cip.blowing with
  | none => .next s
  | some ka =>
    let s := s.onCip (fun c => { c with blowing := none })
    if good then .next (({ s with anchor := some (s.share ka) }.maskUse.anchorShow).maskUse.anchorEnd 1) else .next (s.anchorEnd 4)

/-! ### The key cache (R321) -/

/-- KEY_DERIVATION_DONE (R27, R319, R321, R347): the key takes the place of the least recently used one. -/
def execKeyDerivationDone (s : State) : Out := s.answer <|
  match s.keyq with
  | [] => .next s
  | t :: rest =>
    if !((s.cipherUp && !s.keysHeld) || s.cip.flight == 2) then .next s
    else .next { s with cip := { s.cip with flight := 0 }, keyq := rest, keys := ((⟨t, (s.deriveKey t).sh⟩ : KeyE) :: s.keys.filter (fun e => e.tag != t)).take 1024 }.maskUse

/-- KCACHE_FLUSH (R321). -/
def execKcacheFlush (i : Iface) (w : Word) (s : State) : Out := s.answer <|
  let s := s.wlogNote i F.CIP_KCACHE_CMD.addr w
  .next (if F.CIP_KCACHE_CMD_FLUSH.on w then s.keysErase else s)

/-! ### Entropy (R332) -/

/-- DRBG_RESEED (R332): at least every 1 ms, and after 65,536 requests; the seed is a free value. -/
def execDrbgReseed (s : State) : Out := s.answer <|
  if s.cip.entropy = 1 ∧ (s.cip.drbgAt + msTicks 1 ≤ s.tick ∨ 65536 ≤ s.cip.drbgUsed) then
    .next ((s.draw 8).2.onCip (fun c => { c with drbgAt := s.tick, drbgUsed := 0 }))
  else .next s

/-- A health test fails (R332, R347): the next 1,024 samples are discarded; a second failure within 1 s fences the engine.
The computation in progress, the first in the order of R27, may still complete. -/
def State.entropyFail (s : State) : State :=
  let fails := s.tick :: s.cip.entFails.filter (fun t => decide (s.tick < t + sTicks 1))
  let flight := if s.cip.entropy ≠ 1 then 0 else if !s.macWait.isEmpty then 1 else if s.linkGcmWaits then 0
    else if !s.keyq.isEmpty && s.bit F.CIP_STATUS_ANCHOR then 2 else if !s.cip.raw.isEmpty then 3 else 0
  let s := (s.incSat F.CIP_ENTROPY_STAT_FAILS).putB F.CIP_STATUS_ENTROPY_OK 0 false
  let s := (s.onCip (fun c => { c with entropy := 2, entFails := fails, flight := flight })).raise Ev.ENTROPY_FAIL 0
  if 2 ≤ fails.length then s.fence else s

/-- The noise source has passed its test. -/
def State.entropyGood (s : State) : State :=
  (s.onCip (fun c => { c with entropy := 1, flight := 0, drbgAt := s.tick, drbgUsed := 0 })).putB F.CIP_STATUS_ENTROPY_OK 0 true

/-- ENTROPY_STARTUP_TEST (R332). -/
def execEntropyStartupTest (pass : Bool) (s : State) : Out := s.answer <|
  if s.cip.entropy ≠ 0 ∨ s.up.run ≠ 2 then .next s
  else .next (if pass then s.entropyGood else s.entropyFail)

/-- ENTROPY_FAIL (R332). -/
def execEntropyFail (s : State) : Out := s.answer <| .next (if s.cip.entropy = 1 then s.entropyFail else s)

/-- ENTROPY_RETEST (R332): after the discarded samples. -/
def execEntropyRetest (pass : Bool) (s : State) : Out := s.answer <|
  if s.cip.entropy ≠ 2 then .next s else .next (if pass then s.entropyGood else s.entropyFail)

/-! ### Vault writes (R336) -/

/-- A word written counts towards its wear (R336). -/
def State.wearCount (s : State) (w : VaultWrite) : State :=
  let words := (w.bytes.length + w.addr % 4 + 3) / 4
  let wear := (List.range words).foldl (fun (t : Table Nat) j =>
    let a := w.addr / 4 * 4 + 4 * j
    tset (fun _ => 0) t a (tget (fun _ => 0) t a + 1)) s.wear
  let most := wear.foldl (fun (m : Nat) e => max m e.2) 0
  let old := s.get F.CIP_VAULT_STAT_WEAR
  let new := min 1023 (most * 1000 / 100000000000)
  let s := ({ s with wear := wear }.incWrap F.CIP_VAULT_CNT_WRITES).put F.CIP_VAULT_STAT_WEAR 0 new
  if old < 900 ∧ 900 ≤ new then (s.raise Ev.VAULT_WEAR 0).setReason 3 else s

/-- The session whose counters or key state a write changes. -/
def VaultWrite.sessionOf (w : VaultWrite) : Option Nat := match w.why with
  | .reserve k _ _ => some k
  | .epoch k => some k
  | .keyState k => some k
  | _ => none

/-- A write that frames sent wait for: a transmit reservation or a key state of session `k`. -/
def VaultWrite.holdsTx (w : VaultWrite) (k : Nat) : Bool := match w.why with
  | .reserve j d _ => j == k && d == 0
  | .keyState j => j == k
  | _ => false

/-- A write that a frame received waits for, by what follows it (0 the receive mark, else an epoch or an association). -/
def VaultWrite.holdsRx (w : VaultWrite) (k what : Nat) : Bool := match w.why with
  | .reserve j d _ => j == k && d == 1 && what == 0
  | .epoch j => j == k && what != 0
  | .keyState j => j == k && what == 2
  | _ => false

/-- What waited for the writes of session `k` goes on (R338, R339, R341, R343): tx_next follows the counters that waited. -/
def State.vaultGo (s : State) (k : Nat) : State :=
  let mine := s.cip.txWait.filter (fun x => x.1 == k)
  let tx := s.vaultq.any (fun w => w.holdsTx k) || mine.any (fun x => decide (s.txc k ≤ x.2))
  let s : State := if tx then s
    else
      let s := s.onCip (fun c => { c with txWait := c.txWait.filter (fun x => x.1 != k) })
      let s := mine.foldl (fun (s : State) x => match s.leaseOf k with
        | some l => s.txUsed k l.holder x.2
        | none => s.ctxOwn k 0x188 (le (x.2 + 1) 4)) s
      let s := { s with exchs := s.exchs.map (fun (e : Exch) => if e.session = k then { e with wait := 0 } else e) }
      s.onMac (fun m => { m with
        pairs := m.pairs.map (fun (p : PairNow) => if p.session = k then { p with wait := 0 } else p),
        downQ := m.downQ.map (fun (d : DownTx) => if d.session = k then { d with wait := 0 } else d) })
  let done := s.accWait.filter (fun a => a.session == k && a.what != 4 && a.left != 0
    && !s.vaultq.any (fun w => w.holdsRx k a.what))
  done.foldl (fun (s : State) a =>
    let s := { s with accWait := s.accWait.map (fun x => if x = a then { x with left := 0 } else x) }
    let h := s.waitHolder a
    let l := s.leaseTry k h
    if l.2 then l.1 else l.1.leaseAsk k h) s

/-- The copy of a ceiling in the context follows the Vault (R346), whether or not the context is leased. -/
def State.ceilCopy (s : State) (w : VaultWrite) : State := match w.why with
  | .reserve k d n => match s.leaseOf k with
    | some l => s.ctxPut k (if d = 0 then 0x18C else 0x194) 4 n l.holder
    | none => s.ctxOwn k (if d = 0 then 0x18C else 0x194) (le n 4)
  | _ => s

/-- A Vault write has read back right. -/
def State.vaultDone (s : State) (w : VaultWrite) : State :=
  let s := ({ s with vault := vaultStore s.vault w.addr w.bytes, vaultq := s.vaultq.drop 1 }).ceilCopy w
  match w.why with
  | .mirror _ => s.splAck
  | .spool c _ => { s with ceilBad := s.ceilBad.filter (fun x => x.1 != c) }
  | _ => match w.sessionOf with
    | none => s
    | some k =>
      let s := if s.vaultq.any (fun x => x.sessionOf == some k) then s else s.splVault k
      s.vaultGo k

/-- What needed a Vault write that has failed fails (R336, R338, R339, R343, R347). -/
def State.vaultLost (s : State) (w : VaultWrite) : State :=
  let s := { s with vaultq := s.vaultq.drop 1 }
  match w.why with
  | .mirror _ => { s with vaultq := s.vaultq ++ [{ w with retried := false }] }
  | .spool c n => { s with ceilBad := (c, n) :: s.ceilBad.filter (fun x => x.1 != c) }
  | _ => match w.sessionOf with
    | none => s
    | some k =>
      -- the later writes of a commit are not started
      let s := match w.why with
        | .epoch _ => { s with vaultq := s.vaultq.filter (fun x => match x.why with | .epoch j => j != k | _ => true) }
        | .keyState _ => if s.accWait.any (fun a => a.session == k && a.what == 2)
          then { s with vaultq := s.vaultq.filter (fun x => match x.why with | .epoch j => j != k | _ => true) } else s
        | _ => s
      let s := if w.holdsTx k then
          let s := s.onCip (fun c => { c with txWait := c.txWait.filter (fun x => x.1 != k) })
          let s := if s.exchs.any (fun e => e.session == k && decide (0 < e.wait)) then s.exchEnd k 9 else s
          s.onMac (fun m => { m with
            pairs := m.pairs.map (fun p => if p.session = k ∧ 0 < p.wait then { p with wait := 0, tx := [] } else p),
            downQ := m.downQ.filter (fun d => !(d.session == k && decide (0 < d.wait))) })
        else s
      let lost := s.accWait.filter (fun a => a.session == k && a.left != 0 && w.holdsRx k a.what)
      let s := lost.foldl (fun (s : State) a =>
        let s := { s with accWait := s.accWait.erase a }
        if a.what = 0 then s.frameReplay a else s.notReply a.body) s
      s.vaultGo k

/-- VAULT_WRITE_DONE (R336): `good` says that the read-back was right.  After a second failure each byte of the word keeps its old or
takes its new value, all together: a free value. -/
def execVaultWriteDone (good : Bool) (s : State) : Out := s.answer <|
  match s.vaultq with
  | [] => .next s
  | w :: rest =>
    let s := s.wearCount w
    if good then .next (s.vaultDone w).serve
    else if !w.retried then .next { s with vaultq := { w with retried := true } :: rest }
    else
      let d := s.draw 1
      let s := if d.1 = 1 then { d.2 with vault := vaultStore d.2.vault w.addr w.bytes } else d.2
      let faults := s.tick :: s.vaultFaults.filter (fun t => decide (s.tick < t + sTicks 86400))
      let s := { s with vaultFaults := faults }.put F.CIP_VAULT_STAT_WRITE_FAULTS 0 (min 255 faults.length)
      let s := s.raise Ev.VAULT_FAULT ((w.sessionOf).getD 0)
      let s := if 3 ≤ faults.length then s.setReason 4 else s
      .next (s.vaultLost w).serve

/-! ### Raw jobs (R328 to R330) -/

/-- Why a raw job is not computed: its result code (R329, R330, R317), or none.  DEDUCED, log entry 134: a padded output that would pass
the end of the buffer behind the associated data ends LENGTH. -/
def State.rawRefused (s : State) (j : RawJob) : Option Nat :=
  let mode := F.CIP_RAW_CFG_MODE.of j.cfg
  let dec := F.CIP_RAW_CFG_DECRYPT.on j.cfg
  let ses := F.CIP_RAW_CFG_KEY_SRC.on j.cfg
  let tag := F.CIP_RAW_CFG_TAG_LEN.of j.cfg
  let nonce := F.CIP_RAW_CFG_NONCE_LEN.of j.cfg
  let n := F.CIP_RAW_LEN_DATA_LEN.of j.len
  let aad := F.CIP_RAW_LEN_AAD_LEN.of j.len
  let k := F.CIP_RAW_SESSION_SESSION.of j.ses
  if s.bit F.CIP_STATUS_FENCED then some 5
  else if 6 ≤ mode ∨ (ses ∧ F.CIP_RAW_CFG_PURPOSE.of j.cfg = 3)
      ∨ (mode = 4 ∧ (nonce < 7 ∨ 13 < nonce ∨ tag < 4 ∨ 16 < tag ∨ tag % 2 = 1))
      ∨ (mode = 5 ∧ (nonce ≠ 12 ∨ tag < 12 ∨ 16 < tag)) ∨ (mode = 3 ∧ (tag = 0 ∨ 16 < tag)) then some 6
  else if 16384 < aad + n ∨ (mode ≤ 1 ∧ !dec ∧ 16384 < aad + 16 * (n / 16 + 1)) ∨ (mode ≤ 1 ∧ !dec ∧ 16367 < n) ∨ (mode ≤ 1 ∧ dec ∧ (n % 16 ≠ 0 ∨ n < 16 ∨ 16368 < n)) then some 3
  else if ses ∧ (!s.bit F.CIP_STATUS_ANCHOR ∨ (s.slot k).st ≠ 2 ∨ k = 0) then some 4
  else none

/-- The tag of the frame key that a raw job names (R328); with purpose ASSOC the epoch is 0 (R319). -/
def State.rawTag (s : State) (j : RawJob) : KeyTag :=
  let k := F.CIP_RAW_SESSION_SESSION.of j.ses
  let p := F.CIP_RAW_CFG_PURPOSE.of j.cfg
  ⟨s.euiOf k, s.provOf k, if p = 2 then 0 else F.CIP_RAW_SESSION_EPOCH.of j.ses, p, F.CIP_RAW_CFG_DIR.of j.cfg⟩

/-- The key of a raw job (R328): the register key, or the frame key of a session. -/
def State.rawKey (s : State) (j : RawJob) : Key :=
  if F.CIP_RAW_CFG_KEY_SRC.on j.cfg then s.keyOf (s.rawTag j)
  else s.useKey (j.key.lin (·.take (if F.CIP_RAW_CFG_KEY_256.on j.cfg then 32 else 16)))

/-- A raw job uses its key: a frame key by way of the key cache (R321). -/
def State.rawUse (s : State) (j : RawJob) : State := if F.CIP_RAW_CFG_KEY_SRC.on j.cfg then s.keyUse (s.rawTag j) else s.maskUse

/-- Padding method 2 of ISO/IEC 9797-1. -/
def padAdd (l : List Byte) : List Byte :=
  let x := l ++ [0x80]
  x ++ List.replicate ((16 - x.length % 16) % 16) 0

/-- The data without its padding; none where the padding is wrong. -/
def padOff (l : List Byte) : Option (List Byte) :=
  match l.reverse.dropWhile (· == 0) with
  | b :: t => if b = 0x80 ∧ l.length ≤ t.length + 16 then some t.reverse else none
  | [] => none

/-- CBC over whole blocks. -/
def cbcEnc (key : Key) (iv l : List Byte) : List Byte :=
  ((chunks 16 (l.length / 16) l).foldl (fun (c : List Byte × List Byte) b =>
    let e := aesEnc (key.sub c.2.length) (xorL c.1 b)
    (e, c.2 ++ e)) (iv, [])).2

/-- CBC decryption over whole blocks. -/
def cbcDec (key : Key) (iv l : List Byte) : List Byte :=
  ((chunks 16 (l.length / 16) l).foldl (fun (c : List Byte × List Byte) b =>
    (b, c.2 ++ xorL c.1 (aesDec (key.sub c.2.length) b))) (iv, [])).2

/-- ECB over whole blocks. -/
def ecb (f : Key → List Byte → List Byte) (key : Key) (l : List Byte) : List Byte :=
  ((chunks 16 (l.length / 16) l).mapIdx (fun i b => f (key.sub i) b)).flatten

/-- What a raw job computes (R329): its result, the output and the tag. -/
def rawCompute (j : RawJob) (key : Key) : Nat × List Byte × List Byte :=
  let aad := j.data.take (F.CIP_RAW_LEN_AAD_LEN.of j.len)
  let d := j.data.drop aad.length
  let dec := F.CIP_RAW_CFG_DECRYPT.on j.cfg
  let n := F.CIP_RAW_CFG_TAG_LEN.of j.cfg
  let nonce := j.iv.take (F.CIP_RAW_CFG_NONCE_LEN.of j.cfg)
  let tag := j.tag.take n
  let zero := List.replicate d.length (0 : Byte)
  let unpad := fun (p : List Byte) => match padOff p with
    | some x => (0, x, ([] : List Byte))
    | none => (2, zero, [])
  match F.CIP_RAW_CFG_MODE.of j.cfg with
  | 0 => if dec then unpad (ecb aesDec key d) else (0, ecb aesEnc key (padAdd d), [])
  | 1 => if dec then unpad (cbcDec key j.iv d) else (0, cbcEnc key j.iv (padAdd d), [])
  | 2 => (0, xorL d (keyStream key (beNum j.iv) 128 d.length), [])
  | 3 => (0, [], (cmac key d).take n)
  | 4 =>
    if dec then
      let r := ccmDec key nonce aad d tag
      if r.2 then (0, r.1, []) else (1, zero, [])
    else
      let e := ccmEnc key nonce aad d n
      (0, e.1, e.2)
  | _ =>
    if dec then
      let r := gcmDec key nonce aad d tag
      if r.2 then (0, r.1, []) else (1, zero, [])
    else
      let e := gcmEnc key nonce aad d
      (0, e.1, e.2.take n)

/-- A raw job joins the engine's queue, or ends at once (R328, R348). -/
def State.rawJoin (s : State) (j : RawJob) : State :=
  let s : State := { s with cip := { s.cip with raw := s.cip.raw ++ [j] } }
  match s.rawRefused j with
  | some r => s.rawEnd j r [] []
  | none => s.putB F.CIP_STATUS_RAW_BUSY 0 true

/-- RAW_JOB_START (R328, R348). -/
def execRawJobStart (i : Iface) (w : Word) (s : State) : Out := s.answer <|
  let s := s.wlogNote i F.CIP_RAW_CMD.addr w
  if !F.CIP_RAW_CMD_GO.on w ∨ s.bit F.CIP_RAW_STAT_BUSY then .next s
  else
    let len := s.live F.CIP_RAW_LEN.addr
    let words := fun (a n : Nat) => (List.range n).flatMap (fun k => le (s.live (a + 4 * k)).toNat 4)
    let n := min 16384 (F.CIP_RAW_LEN_AAD_LEN.of len + F.CIP_RAW_LEN_DATA_LEN.of len)
    let j : RawJob := ⟨none, s.live F.CIP_RAW_CFG.addr, len, s.live F.CIP_RAW_SESSION.addr, words F.CIP_RAW_IV.addr 4,
      words F.CIP_RAW_TAG.addr 4, s.share (words F.CIP_RAW_KEY.addr 8), s.rawBytes 0 n, 0⟩
    .next ((s.maskUse.putB F.CIP_RAW_STAT_BUSY 0 true).rawJoin j)

/-- RAW_JOB_ABORT (R348): the register job ends, with its output zeroed. -/
def execRawJobAbort (i : Iface) (w : Word) (s : State) : Out := s.answer <|
  let s := s.wlogNote i F.CIP_RAW_CMD.addr w
  if !F.CIP_RAW_CMD_ABORT.on w then .next s
  else match s.cip.raw.find? (fun j => j.cmd.isNone) with
  | none => .next s
  | some j => .next (s.rawEnd j 7 (List.replicate (F.CIP_RAW_LEN_DATA_LEN.of j.len) 0) [])

/-- RAW_JOB_DONE (R27, R329, R330, R333, R347): `mismatch` says that the two AES computations differed. -/
def execRawJobDone (mismatch : Bool) (s : State) : Out := s.answer <|
  match s.cip.raw with
  | [] => .next s
  | j :: rest =>
    if !((s.engineUp && !s.rawHeld) || s.cip.flight == 3) then .next s
    else if mismatch then
      let r := s.cipherFault j.tries
      if r.2 then .next r.1 else .next (r.1.onCip (fun c => { c with raw := { j with tries := j.tries + 1 } :: rest }))
    else
      let r := rawCompute j (s.rawKey j)
      .next ((s.rawUse j).rawEnd j r.1 r.2.1 r.2.2)

/-! ### Session commands of the engine (R348) -/

/-- A write of `CIP_SES_CMD` with op `op`. -/
def State.cipWrite (s : State) (i : Iface) (w : Word) (op : Nat) : State :=
  let s := s.wlogNote i F.CIP_SES_CMD.addr w
  if F.CIP_SES_CMD_OP.of w ≠ op ∨ s.bit F.CIP_SES_STAT_BUSY then s
  else
    let k := F.CIP_SES_CMD_SESSION.of w
    let s := s.put F.CIP_SES_STAT_SESSION 0 k
    let st := (s.slot k).st
    if st = 3 ∧ s.cacheOnly then s.put F.CIP_SES_STAT_RESULT 0 3
    else if (st ≠ 1 ∧ st ≠ 2) ∨ (k = 0 ∧ op ≠ 1) then s.put F.CIP_SES_STAT_RESULT 0 2
    else (({ s with cipCmd := some ⟨op, k, false⟩ }.putB F.CIP_SES_STAT_BUSY 0 true).leaseAsk k 24).serve

/-- CIP_SES_READ (R348). -/
def execCipSesRead (i : Iface) (w : Word) (s : State) : Out := s.answer <| .next (s.cipWrite i w 1)
/-- CIP_SES_REKEY_DUE (R337, R348). -/
def execCipSesRekeyDue (i : Iface) (w : Word) (s : State) : Out := s.answer <| .next (s.cipWrite i w 2)
/-- CIP_SES_REPROVISION (R337, R348). -/
def execCipSesReprovision (i : Iface) (w : Word) (s : State) : Out := s.answer <| .next (s.cipWrite i w 3)

/-- The rules of R349. -/
def cipRules (s : State) (cells : List (Nat × Word)) : Option (Nat × Nat) :=
  firstFail [(cells.all (fun c => shadowLegal c.1 c.2), 0x90, 0), (!s.commitPending 9, 0x91, 0)]

/-- CIP_COMMIT (R349): it applies before the next counter is taken. -/
def execCipCommit (i : Iface) (w : Word) (s : State) : Out := s.answer <|
  let s := s.wlogNote i F.CIP_COMMIT.addr w
  .next (if F.CIP_COMMIT_GO.on w then (s.commit i 9 [0] cipRules).applyInst 9 0 else s)

end Sys2Proof.Machine
end

