-- ==== Sys2Proof/Machine/Checks.lean ====
section
/-! DEFINITION. The check units (R351 to R364): the algorithms, a window from its arm to its outcome, the comparison, and the
commits.  A window takes the bytes that passed on its stream (Taps.lean); those of a CXL region come with the command that ends it. -/
namespace Sys2Proof.Machine
open Sys2Proof

/-! ### The algorithms (R354) -/

/-- One bit into a CRC register held left-aligned. -/
def crcGenBit (poly crc : BitVec 32) (b : Bool) : BitVec 32 := if crc.msb != b then (crc <<< 1) ^^^ poly else crc <<< 1

/-- The bits of a byte in the order a CRC takes them: least significant first when reflected. -/
def crcBits (refIn : Bool) (b : Byte) : List Bool :=
  (List.range 8).map (fun k => if refIn then b.getLsbD k else b.getMsbD k)

/-- A CRC of `width` bits over bytes, right-aligned. -/
def crcGen (width : Nat) (poly init xorOut : Word) (refIn refOut : Bool) (l : List Byte) : Word :=
  let reg := (l.flatMap (crcBits refIn)).foldl (crcGenBit (poly <<< (32 - width))) (init <<< (32 - width))
  let r := if refOut then reg.reverse else reg >>> (32 - width)
  (r ^^^ xorOut) &&& bitsMask (width - 1) 0

/-- The two sums of Fletcher-32 over 16-bit little-endian words, an odd last byte padded with 0. -/
def fletcherSums : List Byte → Nat × Nat → Nat × Nat
  | a :: b :: t, (x, y) =>
    let x' := (x + a.toNat + 256 * b.toNat) % 65535
    fletcherSums t (x', (y + x') % 65535)
  | [a], (x, y) =>
    let x' := (x + a.toNat) % 65535
    (x', (y + x') % 65535)
  | [], p => p

/-- Fletcher-32. -/
def fletcher32 (l : List Byte) : Word := let p := fletcherSums l (0, 0); BitVec.ofNat 32 (p.2 * 65536 + p.1)

/-- The result of unit `u`'s algorithm over bytes. -/
def State.chkCompute (s : State) (u : Nat) (l : List Byte) : Word :=
  let o := chkO u
  match s.get F.CHK_CFG_ALG o with
  | 0 => crcGen 16 0x1021#32 0xFFFF#32 0#32 false false l
  | 1 => crcGen 32 0x04C11DB7#32 0xFFFFFFFF#32 0xFFFFFFFF#32 true true l
  | 2 => crcGen 32 0x1EDC6F41#32 0xFFFFFFFF#32 0xFFFFFFFF#32 true true l
  | 3 => fletcher32 l
  | _ => crcGen (s.get F.CHK_PARAM_WIDTH o) (s.live (F.CHK_POLY.addr + o)) (s.live (F.CHK_INIT.addr + o))
      (s.live (F.CHK_XOROUT.addr + o)) (s.bit F.CHK_PARAM_REFIN o) (s.bit F.CHK_PARAM_REFOUT o) l

/-- The width of unit `u`'s result. -/
def State.chkWidth (s : State) (u : Nat) : Nat :=
  match s.get F.CHK_CFG_ALG (chkO u) with
  | 0 => 16
  | 4 => s.get F.CHK_PARAM_WIDTH (chkO u)
  | _ => 32

/-! ### Windows and comparison (R355 to R357) -/

/-- Unit `u` compares its complete result with `CHK_EXPECT` (R356). -/
def State.chkCompare (s : State) (u : Nat) : State :=
  let o := chkO u
  let s := { s with chkOwed := s.chkOwed.filter (· != u) }
  let exp := s.live (F.CHK_EXPECT.addr + o)
  let res := s.live (F.CHK_RESULT.addr + o)
  if exp &&& bitsMask (s.chkWidth u - 1) 0 = res then s.put F.CHK_STATUS_OUTCOME o 1
  else
    let s := ((s.put F.CHK_STATUS_OUTCOME o 2).incSat F.CHK_CNT_MISMATCHES o).putBit F.CHK_PEND 0 u true
    s.raiseLogged Ev.CHECK_MISMATCH u 0x13 0
      (le u 1 ++ le (s.get F.CHK_CFG_STREAM o) 1 ++ [0, 0] ++ le res.toNat 4 ++ le exp.toNat 4)

/-- The state after a window of unit `u`: DONE, or WAITING for the next one (R355). -/
def State.chkNext (s : State) (u : Nat) : State :=
  s.put F.CHK_STATUS_STATE (chkO u) (if s.bit F.CHK_CFG_REPEAT (chkO u) then 1 else 3)

/-- The window of unit `u` ends without a result: ABORTED (4) or OVERRUN (3), and what it took is dropped.  A result that waited for an
expected value waits no more. -/
def State.chkVoid (s : State) (u outcome cause : Nat) : State :=
  let o := chkO u
  let s := { s.chkKeep u [] with chkOwed := s.chkOwed.filter (· != u) }
  (s.put F.CHK_STATUS_OUTCOME o outcome).put F.CHK_STATUS_CAUSE o cause

/-- The window of unit `u` ends ABORTED for a cause of R357. -/
def State.chkAbort (s : State) (u cause : Nat) : State :=
  ((s.chkVoid u 4 cause).chkNext u).raise Ev.CHK_ABORT u

/-- A link leaves UP (R357): the running windows on the streams it carries end.  `mine` says which (stream, `SELECT`) it
carries. -/
def State.chkLinkDown (s : State) (mine : Nat → Nat → Bool) : State :=
  (List.range 16).foldl (fun (s : State) u =>
    let o := chkO u
    if s.get F.CHK_STATUS_STATE o = 2 ∧ mine (s.get F.CHK_CFG_STREAM o) (s.get F.CHK_SEL_SELECT o) then s.chkAbort u 3
    else s) s

/-- The window of unit `u` completes over bytes (R356). -/
def State.chkComplete (s : State) (u : Nat) (l : List Byte) : State :=
  let o := chkO u
  let s := s.setLive (F.CHK_RESULT.addr + o) (s.chkCompute u l)
  let s := (s.put F.CHK_BYTES o (min l.length 0xFFFFFFFF)).incSat F.CHK_CNT_WINDOWS o
  let s := (s.put F.CHK_STATUS_OUTCOME o 0).chkNext u
  let s := { s with chkOwed := s.chkOwed.filter (· != u) }
  let s := if s.bit F.CHK_STATUS_EXPECT_VALID o then s.chkCompare u else { s with chkOwed := s.chkOwed ++ [u] }
  s.raiseIf (s.bit F.CHK_CFG_DONE_EV o) Ev.CHK_DONE u

/-- What session `k` contributes to stream 12 (R352): its image with `CRC` and `JSEQ` taken as 0, zeros for a FREE slot. -/
def State.auditImage (s : State) (k : Nat) : List Byte :=
  if s.slotUsed k then
    let i := if s.cached k then s.ctxImage k else s.homeImage k
    i.take 4 ++ [0, 0, 0, 0] ++ (i.drop 8).take 8 ++ List.replicate 8 0 ++ i.drop 24
  else List.replicate 2048 0

/-- The sessions of a window of stream 12. -/
def State.auditRange (s : State) (u : Nat) : List Nat :=
  let o := chkO u
  let n := if s.bit F.CHK_CFG_WIN_MODE o then s.get F.CHK_WINDOW_WINDOW o else (s.get F.CHK_WINDOW_WINDOW o + 2047) / 2048
  let k := s.get F.CHK_SEL_SELECT o
  (List.range (min n (65536 - k))).map (· + k)

/-- The bytes of a window of stream 12, none when a context cannot be read (R357). -/
def State.auditBytes (s : State) (u : Nat) : Option (List Byte) :=
  let ks := s.auditRange u
  if s.cacheOnly || ks.any (fun k => (s.slot k).st == 3) then none
  else
    let l := ks.flatMap s.auditImage
    some (if s.bit F.CHK_CFG_WIN_MODE (chkO u) then l else l.take (s.get F.CHK_WINDOW_WINDOW (chkO u)))

/-- Writes by the user do not reach unit `u` (R358, R359): the NVM controller or a job owns it. -/
def State.chkOwned (s : State) (u : Nat) : Bool := s.get F.CHK_STATUS_OWNER (chkO u) != 0

/-- `STOP` (R355): a window ends ABORTED, with no event; a waiting unit returns to IDLE. -/
def State.chkStop (s : State) (u : Nat) : State :=
  let o := chkO u
  match s.get F.CHK_STATUS_STATE o with
  | 2 => (s.chkVoid u 4 0).put F.CHK_STATUS_STATE o 3
  | 1 => (s.chkKeep u []).put F.CHK_STATUS_STATE o 0
  | _ => s

/-- `ARM` (R355): a running window is abandoned and a new one waits for its start. -/
def State.chkArm (s : State) (u : Nat) : State :=
  let o := chkO u
  let s := if s.get F.CHK_STATUS_STATE o = 2 then s.chkVoid u 4 0 else s
  ((s.chkKeep u []).put F.CHK_STATUS_STATE o 1).put F.CHK_BYTES o 0

/-- A write of `CHK_CMD` of unit `u` (R361): an owned unit ignores it; `CLR_EXPECT`, `STOP` and `ARM` act in this order. -/
def State.chkCmd (s : State) (i : Iface) (u : Nat) (w : Word) : State :=
  let s := s.wlogNote i (F.CHK_CMD.addr + chkO u) w
  if s.chkOwned u then s
  else
    let s := if F.CHK_CMD_CLR_EXPECT.on w then s.put F.CHK_STATUS_EXPECT_VALID (chkO u) 0 else s
    let s := if F.CHK_CMD_STOP.on w then s.chkStop u else s
    if F.CHK_CMD_ARM.on w then s.chkArm u else s

/-- CHK_ARM (R355). -/
def execChkArm (i : Iface) (u : Fin 16) (w : Word) (s : State) : Out := s.answer <|
  .next (if F.CHK_CMD_ARM.on w then s.chkCmd i u.val w else s)

/-- CHK_STOP (R355). -/
def execChkStop (i : Iface) (u : Fin 16) (w : Word) (s : State) : Out := s.answer <|
  .next (if F.CHK_CMD_STOP.on w then s.chkCmd i u.val w else s)

/-- CHK_CLR_EXPECT (R356). -/
def execChkClrExpect (i : Iface) (u : Fin 16) (w : Word) (s : State) : Out := s.answer <|
  .next (if F.CHK_CMD_CLR_EXPECT.on w then s.chkCmd i u.val w else s)

/-- `CHK_EXPECT` of unit `u` is written (R356): it becomes valid, and a result that waits is compared. -/
def State.chkExpect (s : State) (u : Nat) (w : Word) : State :=
  let s := (s.setLive (F.CHK_EXPECT.addr + chkO u) w).put F.CHK_STATUS_EXPECT_VALID (chkO u) 1
  if s.chkOwed.contains u then s.chkCompare u else s

/-- CHK_EXPECT_WRITE (R356); a unit owned by a job ignores the write of any other (R359). -/
def execChkExpectWrite (i : Iface) (u : Fin 16) (w : Word) (s : State) : Out := s.answer <|
  let s := s.wlogNote i (F.CHK_EXPECT.addr + chkO u.val) w
  .next (if 2 ≤ s.get F.CHK_STATUS_OWNER (chkO u.val) ∧ i ≠ .module then s else s.chkExpect u.val w)

/-- A unit reads the stream itself, so that its window waits for no byte (R352, R355). -/
def readsItself (stream : Nat) : Bool := stream == 4 || stream == 12

/-- The bytes of a window come with the command that ends it: those of a CXL region, and those of the Splice partner's frames, whose
commands do not name every byte (log entry 119). -/
def fromOutside (stream : Nat) : Bool := stream == 4 || stream == 7

/-- CHK_WINDOW_START (R355): an armed unit whose stream is on has seen the first byte, or the next marker unit; a stream that the unit
reads itself starts at once. -/
def execChkWindowStart (u : Fin 16) (s : State) : Out := s.answer <|
  let o := chkO u.val
  let stream := s.get F.CHK_CFG_STREAM o
  .next (if s.get F.CHK_STATUS_STATE o = 1 ∧ stream ≠ 0 ∧ !s.instPending 10 u.val ∧ (readsItself stream || fromOutside stream || !(s.chkTaken u.val).isEmpty) then
    (s.put F.CHK_STATUS_STATE o 2).chkCount u.val else s)

/-- What the window of unit `u` covers, once it is there: `WINDOW` marker units, or `WINDOW` bytes; and what is left for the next
window. -/
def State.chkCut (s : State) (u : Nat) : Option (List Byte × List (List Byte)) :=
  let n := s.get F.CHK_WINDOW_WINDOW (chkO u)
  let l := s.chkTaken u
  if s.bit F.CHK_CFG_WIN_MODE (chkO u) then (if n ≤ l.length then some ((l.take n).flatten, l.drop n) else none)
  else
    let b := l.flatten
    if n ≤ b.length then some (b.take n, if b.length = n then [] else [b.drop n]) else none

/-- The window of unit `u` is complete.  With `REPEAT` the next one begins with what is left (R355), unless a commit waits for the window's
end (R363). -/
def State.chkDone (s : State) (u : Nat) (l : List Byte) (rest : List (List Byte)) : State :=
  (s.chkKeep u (if s.bit F.CHK_CFG_REPEAT (chkO u) && !s.instPending 10 u then rest else [])).chkComplete u l

/-- CHK_WINDOW_END (R353, R356, R357): the window has taken `WINDOW` bytes or units.  `data` are the bytes of the streams of
`fromOutside`; `tooFast` says that stream 3 came faster than 3.2 GB/s; `poison` that a read of stream 4 or 12 returned poison. -/
def execChkWindowEnd (u : Fin 16) (data : List Byte) (tooFast poison : Bool) (s : State) : Out := s.answer <|
  let o := chkO u.val
  let stream := s.get F.CHK_CFG_STREAM o
  if s.get F.CHK_STATUS_STATE o ≠ 2 then .next s
  else if poison && readsItself stream then
    .next ((s.cxlPoison (if stream = 4 then s.get F.CHK_ADDR_LO o + 2 ^ 32 * s.get F.CHK_ADDR_HI_ADDR o
      else homeAddr (s.get F.CHK_SEL_SELECT o)) 0xFFFF).chkAbort u.val 1)
  else if tooFast && stream == 3 && [0, 3].contains (s.get F.CHK_SEL_SELECT o) then
    .next (((s.chkVoid u.val 3 0).chkNext u.val).raise Ev.CHK_OVERRUN u.val)
  else if stream = 12 then match s.auditBytes u.val with
    | none => .next (s.chkAbort u.val 2)
    | some l => .next (s.chkDone u.val l [])
  else if fromOutside stream then
    .next (if s.get F.CHK_CFG_WIN_MODE o = 0 ∧ data.length ≠ s.get F.CHK_WINDOW_WINDOW o then s else s.chkDone u.val data [])
  else match s.chkCut u.val with
    | none => .next s
    | some (l, rest) => .next (s.chkDone u.val l rest)

/-! ### Commits (R363) -/

/-- The streams with a marker unit (R352). -/
def markerStream (n : Nat) : Bool := n == 2 || n == 3 || (decide (5 ≤ n) && decide (n ≤ 12))

/-- `SELECT` is within its range for the stream (R352). -/
def selectOk (stream k : Nat) : Bool :=
  match stream with
  | 1 => decide (k < 144)
  | 2 => decide (k < 608) || k == 0xFFFF
  | 3 => decide (k < 4)
  | 5 | 6 | 9 | 10 => decide (k < 2)
  | _ => true

/-- The listed ranges of R221 that abut, as (first, past the last). -/
def State.devRanges (s : State) : List (Nat × Nat) :=
  [(0, 0x1000), (0x100000, 0x200000), (0x01000000, 0x14000000), (0x20000000, s.cxlMib * 2 ^ 20)]

/-- `ADDR` and `WINDOW` of a stream 4 unit (rule 0xA2). -/
def State.regionOk (s : State) (addr n : Nat) : Bool :=
  addr % 64 == 0 && n % 64 == 0 && s.devRanges.any (fun r => decide (r.1 ≤ addr) && decide (addr + n ≤ r.2))

/-- The rules of R363 for the units of the scope. -/
def chkRules (units : List Nat) (s : State) (cells : List (Nat × Word)) : Option (Nat × Nat) :=
  let view := s.after cells
  let per := fun (f : Nat → Bool) (r : Nat) => units.map (fun u => (f u, r, u))
  let stream := fun u => F.CHK_CFG_STREAM.afterOf view (chkO u)
  firstFail (
    per (fun u => decide (stream u ≤ 12) && (rwsAddrs 10 u).all (fun a => shadowLegal a (view a))) 0xA0
    ++ per (fun u => F.CHK_CFG_WIN_MODE.afterOf view (chkO u) == 0 || markerStream (stream u)) 0xA1
    ++ per (fun u => stream u != 4 || s.regionOk
        (F.CHK_ADDR_LO.afterOf view (chkO u) + 2 ^ 32 * F.CHK_ADDR_HI_ADDR.afterOf view (chkO u))
        (F.CHK_WINDOW.afterOf view (chkO u))) 0xA2
    ++ per (fun u => selectOk (stream u) (F.CHK_SEL_SELECT.afterOf view (chkO u))) 0xA3
    ++ per (fun u => !s.chkOwned u) 0xA4
    ++ per (fun _ => !s.commitPending 10) 0xA5)

/-- Every unit of a list without a running window applies its pending commit. -/
def State.chkApply (s : State) (units : List Nat) : State :=
  units.foldl (fun (s : State) u =>
    if s.instPending 10 u ∧ s.get F.CHK_STATUS_STATE (chkO u) ≠ 2 then (s.chkKeep u []).applyInst 10 u else s) s

/-- CHK_COMMIT (R363): the units whose bit is set; idle ones apply at once. -/
def execChkCommit (i : Iface) (w : Word) (s : State) : Out := s.answer <|
  let s := s.wlogNote i F.CHK_COMMIT.addr w
  let units := (List.range 16).filter (fun u => w.getLsbD u)
  .next (if units.isEmpty then s else (s.commit i 10 units (chkRules units)).chkApply units)

/-- CHK_COMMIT_APPLY (R363): the window of unit `u` has ended. -/
def execChkCommitApply (u : Fin 16) (s : State) : Out := s.answer <| .next (s.chkApply [u.val])

/-! ### Units claimed by jobs (R359) -/

/-- The unit that a job may claim: the lowest one in `CHK_JOB_UNITS` with `STREAM` 0. -/
def State.chkFree (s : State) : Option Nat :=
  (List.range 16).find? (fun u => s.bitAt F.CHK_JOB_UNITS 0 u && s.get F.CHK_CFG_STREAM (chkO u) == 0
    && s.get F.CHK_STATUS_OWNER (chkO u) == 0 && u != 0)

/-- A job takes unit `u` with a stream; the algorithm is CRC-32C. -/
def State.chkClaim (s : State) (u owner stream : Nat) : State :=
  let o := chkO u
  let s := s.setLive (F.CHK_CFG.addr + o) 0
  (((s.put F.CHK_CFG_STREAM o stream).put F.CHK_CFG_ALG o 2).put F.CHK_STATUS_OWNER o owner).put F.CHK_STATUS_STATE o 2

end Sys2Proof.Machine
end

