-- ==== Sys2Proof/Machine/Turns.lean ====
section
/-! DEFINITION. Which belay job takes the next step (R431): among the jobs that run and could take one, the one of the lowest priority
number, then of the oldest last step. -/
namespace Sys2Proof.Machine
open Sys2Proof

/-- Self-test targets that need the save area (R476). -/
def tstSaves (t : Nat) : Bool := (decide (13 ≤ t) && decide (t ≤ 22)) || t == 25

/-- The next `n` sessions of a job over a range of sessions (R434). -/
def State.jobRange (s : State) (k n : Nat) : List Nat :=
  let a := s.jobParam k 0
  let c := a % 65536 + (s.job k).cursor
  ((List.range n).map (· + c)).filter (fun x => decide (x ≤ a / 65536))

/-- The role code (R372). -/
def State.role (s : State) : Nat := s.get F.SPL_STATUS_ROLE

/-- The partner accepts the messages of Splice v2 (R369). -/
def State.splV2 (s : State) : Bool := s.bit F.SPL_STATUS_VERSION

/-- The owner may hand over: its partner is STANDBY on a v2 link (R375); the mirror audit needs the same (R380). -/
def State.switchCan (s : State) : Bool := s.role == 2 && s.get F.SPL_STATUS_LINK == 2 && s.splV2 && s.spl.peerRole == 4

/-- The time of the next audit step has come, no answer is awaited and no bulk transfer runs (R380). -/
def State.auditDue (s : State) : Bool :=
  let every := s.get F.SPL_CFG_AUDIT_STEP
  s.switchCan && every != 0 && s.spl.audit.isNone && s.bulk.isNone && decide (s.spl.auditAt + msTicks (10 * every) ≤ s.tick)

/-- The 64 sessions of an audit step. -/
def auditSessions (first : Nat) : List Nat := (List.range 64).map (· + first)

/-- The next step of the job in slot `k` is due and its resource free. -/
def State.jobDue (s : State) (k : Nat) : Bool :=
  match s.get F.BLY_SLOT_STAT_KIND (blyO k) with
  | 1 => s.journals && s.cxlUp && !s.cxlHeld 5
  | 2 => !(s.jobRange k 256).isEmpty || !s.rekeyMarks.any (fun x => x.2 == k)
  | 4 => s.journals && s.cxlUp && !s.cxlHeld 5
  | 7 => decide (s.profPhase < 2)
  | 9 => s.auditDue && (auditSessions (64 * ((s.job k).cursor % 1024))).all (fun n => n == 0 || (s.leaseOf n).isNone || s.leasedBy n 6)
  | 10 => s.cxlUp && !s.cxlHeld 5
  | 3 | 11 => match s.run k with
    | some r => !tstSaves r.target || s.cacheOnly || !s.cxlHeld 5
    | none => true
  | _ => true

/-- Job `j` comes before job `k`: a lower priority number, or the same and an older last step. -/
def State.jobBefore (s : State) (j k : Nat) : Bool :=
  let p := fun x => s.get F.BLY_SLOT_STAT_PRIORITY (blyO x)
  decide (p j < p k) || (p j == p k && decide ((s.job j).lastStep < (s.job k).lastStep))

/-- No command waits, slot `k` is not paused, and no other job that is running, not paused and due comes before it. -/
def State.jobFirst (s : State) (k : Nat) : Bool :=
  let go := fun x => !s.bit F.BLY_CTRL_PAUSE || decide (12 ≤ x)
  s.cmdQ.isEmpty && go k
    && !(List.range 16).any (fun j => s.jobBefore j k && s.jobState j == 2 && go j && s.jobDue j)

/-- Slot `k` runs a job of kind `kind` and takes the next step. -/
def State.jobTurn (s : State) (k kind : Nat) : Bool :=
  s.jobState k == 2 && s.get F.BLY_SLOT_STAT_KIND (blyO k) == kind && s.jobFirst k

end Sys2Proof.Machine
end

