-- ==== Sys2Proof/Machine/SelfOps.lean ====
section
/-! DEFINITION. What self-test does (R469 to R485): targets, verdicts, the recovery of a segment, marks, the spare engine and
the degraded ladder, and one step of a run.  One command tests one step: it saves, tests and restores a segment together. -/
namespace Sys2Proof.Machine
open Sys2Proof

/-! ### Targets (R469) -/

/-- The full pattern count of target `t`. -/
def tstFull (t : Nat) : Nat :=
  if t < 10 then 1048576 else if t < 12 then 262144 else if t = 12 then 65536 else if t = 13 then 10485760
  else if t < 23 then 327680 else if t = 23 then 20480 else if t = 24 then 40960 else if t = 25 then 327680 else 262144

/-- The steps of target `t`. -/
def tstSteps (t : Nat) : Nat :=
  if t < 10 then 128 else if t < 12 then 64 else if t = 12 then 256 else if t = 13 then 512 else if t < 23 then 16
  else if t = 23 then 1 else if t = 24 then 2 else 16

/-- Targets that are tested only at start-up. -/
def tstStartOnly : List Nat := [23, 24, 26, 27, 28, 29]

/-! ### Verdicts (R471) -/

/-- An entry of the GOLDEN section differs from ROM. -/
def State.goldenBad (s : State) (t : Nat) : Bool :=
  s.tst.golden.any (fun g => g.target == t && (g.count != tstFull t || g.sig != Config.golden t))

/-- A complete run passes. -/
def State.tstPass (s : State) (t : Nat) (sig : BitVec 64) : Bool := sig == Config.golden t && !s.goldenBad t

/-- The last compared signature and its count (R470). -/
def State.tstShow (s : State) (t : Nat) (sig : BitVec 64) : State :=
  ((s.setLive F.BST_SIG_LO.addr (sig.setWidth 32)).setLive F.BST_SIG_HI.addr ((sig >>> 32).setWidth 32)).put
    F.BST_SIG_COUNT_COUNT 0 (tstFull t)

/-! ### The spare engine and the ladder (R478, R483, R485) -/

/-- Stores `SUBST` in the Vault (R485). -/
def State.storeSubst (s : State) : State :=
  let v := if s.bit F.BST_SUBST_VALID && s.bit F.BST_SUBST_PERMANENT then 0x80 + s.get F.BST_SUBST_CORD else 0
  s.vaultWrite 0x100814 (le v 4)

/-- CE9 takes over cord `c`, or gives it back: the clock follows, and the cord's chains restart (R71). -/
def State.spareMove (s : State) (c : Nat) (toSpare permanent : Bool) : State :=
  let on := s.cordRuns c
  let s := ((s.put F.BST_SUBST_CORD 0 c).putB F.BST_SUBST_VALID 0 toSpare).putB F.BST_SUBST_PERMANENT 0 (toSpare && permanent)
  let s := if toSpare then (s.putBit F.PWR_DOMAIN_STAT 0 9 on).putBit F.PWR_DOMAIN_STAT 0 c (on && !permanent)
    else (s.putBit F.PWR_DOMAIN_STAT 0 c on).putBit F.PWR_DOMAIN_STAT 0 9 false
  s.cordRestart c

/-- The lowest cord whose engine is marked. -/
def State.markedCord (s : State) : Option Nat := (List.range 9).find? (fun c => s.marked c)

/-- A permanent substitution whose reason is gone ends; CE9 keeps or takes the lowest marked cord (R483, R494). -/
def State.spareTake (s : State) : State :=
  let c0 := s.get F.BST_SUBST_CORD
  let s := if s.bit F.BST_SUBST_VALID && (s.marked 9 || (s.bit F.BST_SUBST_PERMANENT && !s.marked c0))
    then (s.spareMove c0 false false).storeSubst else s
  if s.marked 9 then s
  else if s.bit F.BST_SUBST_VALID then
    if !s.bit F.BST_SUBST_PERMANENT && s.marked c0 then
      (((s.putB F.BST_SUBST_PERMANENT 0 true).putBit F.PWR_DOMAIN_STAT 0 c0 false).storeSubst).raise Ev.SPARE_ENGINE_IN_USE c0
    else s
  else match s.markedCord with
    | some c => ((s.spareMove c true true).storeSubst).raise Ev.SPARE_ENGINE_IN_USE c
    | none => s

/-- A mark stands that sets reason 2 (R483).  A cord that waits for CE9 to end another cord's test is not out of service for
good. -/
def State.noSpare (s : State) : Bool :=
  let waits := s.bit F.BST_SUBST_VALID && !s.bit F.BST_SUBST_PERMANENT && !s.marked 9
  (List.range 9).any (fun c => s.marked c && !(s.bit F.BST_SUBST_VALID && s.get F.BST_SUBST_CORD == c)
      && !(waits && s.markedCord == some c))
    || (List.range 17).any (fun j => s.marked (9 + j))

/-- A reason follows a condition (R484). -/
def State.reasonIs (s : State) (b : Nat) (on : Bool) : State := if on then s.setReason b else s.clearReason b

/-- The ladder of R483, evaluated on the marks: the spare engine, the reasons, and the receivers of cords out of service. -/
def State.ladder (s : State) : State :=
  let s := s.spareTake
  let s := s.reasonIs 0 ((List.range 4).any (fun c => s.marked (26 + c)))
  let s := s.reasonIs 1 (s.bit F.BST_SUBST_VALID && s.bit F.BST_SUBST_PERMANENT)
  let s := s.reasonIs 2 s.noSpare
  (List.range 576).foldl (fun (s : State) r => if s.cordOut (r / 64) && s.rxSt r != 0 then s.rxForceHold r else s) s

/-- Segment `g` joins a segment map of the Vault at address `a` (R483, R485). -/
def State.segMark (s : State) (a g : Nat) : State :=
  s.vaultWrite (a + g / 8) [s.vaultSoon (a + g / 8) ||| (1#8 <<< (g % 8))]

/-- Stores `MARKS` in the Vault. -/
def State.storeMarks (s : State) : State := s.vaultWrite 0x100810 (le (s.get F.BST_MARKED_TARGETS) 4)

/-- The mark of target `t` is set, in the Vault too (R472, R482). -/
def State.markSet (s : State) (t : Nat) : State :=
  ((s.putBit F.BST_MARKED 0 t true).putB F.BST_RESULT_MARKED (wO t) true).storeMarks

/-- Capstan core `c` leaves service and every role that it carries moves (R25, R482): the leases that the lost core held for those
roles are revoked and their exchanges are LOST (R234), EV014 is raised; with two cores lost, transmissions end. -/
def State.coreMove (s : State) (c : Nat) : State :=
  if s.up.coresOut.testBit c then s
  else
    let on := s.rolesOn c
    let held : List Nat := (s.leases.filter (fun l => on.contains l.holder)).map (·.session)
    let s := s.roleMove c
    let s := held.foldl (fun (s : State) k => (s.revoke k).exchEnd k 5) s
    let s := s.raise Ev.CORE_LOST c
    if s.twoCoresLost then (List.range 144).foldl (fun (s : State) p => s.portInhibit p) s else s

/-- Target `t` is marked (R472, R482): the Vault, the segment maps, EV246, the fence of the cipher engine, the move of a core's role, and
the ladder. -/
def State.tstMark (s : State) (t : Nat) (segs : List Nat) : State :=
  let s := s.markSet t
  let s := if t = 13 then segs.foldl (fun (s : State) g => s.segMark 0x100820 (g % 512)) s
    else if t = 25 then segs.foldl (fun (s : State) g => s.segMark 0x100818 (g % 16)) s else s
  let s := s.raise Ev.BST_FAIL t
  let s := if t = 12 then s.fence else s
  let s := if 26 ≤ t then s.coreMove (t - 26) else s
  s.ladder

/-! ### Recovery of a segment (R477) -/

/-- The sessions whose cache entries lie in segment `g`: entries are numbered by their place in the list of entries in use. -/
def State.cacheSeg (s : State) (g : Nat) : List Nat := ((s.cache.drop (8 * g)).take 8).map (·.session)

/-- A context lost from the cache: rebuilt, or, in cache-only mode, handled as a revoked context (R249). -/
def State.ctxDiscard (s : State) (k : Nat) : State :=
  if !s.cacheOnly then s.startRebuild k
  else
    let s := s.park k
    if s.get F.SPL_STATUS_LINK = 2 then s.splAsk [k] else s.ctxLost k

/-- The entries of log segment `g` are lost. -/
def State.logSegLost (s : State) (g : Nat) : State :=
  let gone := (s.log.filter (fun e => e.1 / 512 == g)).map (·.2)
  let due := (s.log.filter (fun e => e.1 / 512 == g && decide (e.1 < 7936) && !e.2.exported)).length
  let s := { s with log := s.log.filter (fun e => e.1 / 512 != g) }
  ((s.incSat F.LOG_LOST_OVERWRITTEN 0 gone.length).dec F.LOG_STAT_UNEXPORTED 0 due).logDues false

/-- The recovery after a failed restore of segment `g` of target `t`. -/
def State.segRecover (s : State) (t g : Nat) (coefs : List (BitVec 16 × BitVec 18)) : State :=
  if t = 13 then (s.cacheSeg g).foldl (fun (s : State) k => s.ctxDiscard k) s
  else if t = 25 then s.logSegLost g
  else
    let m := t - 14
    let s := coefs.foldl (fun (s : State) x =>
      { s with coefs := tset (fun _ => (0 : BitVec 18)) s.coefs (m * 65536 + x.1.toNat) x.2 }) s
    s.cordRestart m

/-! ### A step of a run -/

/-- Ticks in which a step of a cord engine's test is sure to have ended: 20 µs (R469), less the last one. -/
def engineStep : Nat := 767

/-- Service keeps the run of a slot from starting its next step (R478 to R480): CE9 is needed for a substitution, a planned wake
would come before the step's end, or the work of the target waits. -/
def State.tstHeld (s : State) (r : TstRun) : Bool :=
  let t := r.target
  if t < 9 then
    if s.bit F.BST_SUBST_VALID && s.get F.BST_SUBST_CORD == t then !s.bit F.BST_SUBST_PERMANENT && s.markedCord.any (· != t)
    else if s.bit F.BST_SUBST_VALID || s.marked 9 then
      s.cordRuns t || decide (s.tick < tget (fun _ => 0) s.cordStop t + 16384) || s.wakeNear t engineStep
    else true
  else if t = 10 ∨ t = 11 then !s.bodies.isEmpty && (tget (fun _ => none) s.viterbi (21 - t)).isSome
  else if t = 12 then
    !s.bit F.CIP_STATUS_FENCED && (!s.keyq.isEmpty || !s.macWait.isEmpty || s.linkGcmWaits || !s.cip.raw.isEmpty)
  else if t = 13 then (s.cacheSeg r.steps).any (fun k => (s.leaseOf k).isSome || !s.cached k)
  else if 14 ≤ t ∧ t ≤ 22 then s.cordRuns (t - 14)
  else false

/-- Result word `j` of the job takes target `t`, and no other word keeps it (R474). -/
def State.tstData (s : State) (k j t : Nat) : State :=
  if s.get F.BLY_SLOT_STAT_KIND (blyO k) = 11 then s
  else (List.range 4).foldl (fun (s : State) i => s.putBit F.BLY_SLOT_DATA (blyO k + 4 * i) t (i == j)) s

/-- A run of target `t` about to start. -/
def State.newRun (s : State) (t : Nat) (more : List Nat) (second : Bool) : TstRun :=
  ⟨t, 0, 0, 0, false, s.tick, more, second⟩

/-- The targets of the job in slot `k`. -/
def State.tstTargets (s : State) (k : Nat) : List Nat := (List.range 30).filter (fun t => (s.jobParam k 0).testBit t)

/-- The job has tested its targets (R474, R475): EV245 when each of them passed. -/
def State.tstFinish (s : State) (k t : Nat) : State :=
  let s := s.setRun k none
  let done := (List.range 30).filter (fun t => (s.jobData k 0 + s.jobData k 3).testBit t)
  let s := s.raiseIf (s.get F.BLY_SLOT_STAT_KIND (blyO k) == 3 && s.jobData k 0 != 0 && done == s.tstTargets k) Ev.BST_PASS t
  s.jobBoundary k (some (if (s.job k).phase = 1 then (6, 3) else (5, 1)))

/-- The run after that of target `r` starts: the next target, or one to test once more (R481). -/
def State.tstNext (s : State) (k : Nat) (r : TstRun) : State :=
  let rest := if r.second then [] else (s.tstTargets k).filter (fun t => decide (r.target < t))
  match rest, r.more with
  | t :: _, m => (s.setRun k (some (s.newRun t m false))).jobBoundary k none
  | [], t :: m => (s.setRun k (some (s.newRun t m true))).jobBoundary k none
  | [], [] => s.tstFinish k r.target

/-- The run of slot `k` ends INCOMPLETE; `retry` says that the job tests the target once more (R481). -/
def State.tstShort (s : State) (k : Nat) (r : TstRun) (retry : Bool) : State :=
  let s := (s.tstData k 2 r.target).tstResult r.target 3 r.suspends (s.runKind k) r.count 0 2 false
  s.tstNext k (if retry && !r.second then { r with more := r.more ++ [r.target] } else r)

/-- A target is skipped (R475). -/
def State.tstSkip (s : State) (k : Nat) (r : TstRun) : State :=
  let s := (s.tstData k 3 r.target).tstResult r.target 4 r.suspends (s.runKind k) 0 0 3 false
  s.tstNext k r

/-- The run is suspended (R480, R481); the eighth suspension ends it. -/
def State.tstSuspend (s : State) (k : Nat) (r : TstRun) : State :=
  let r := { r with suspends := r.suspends + 1 }
  if 8 ≤ r.suspends then (s.put F.BLY_SLOT_STAT_STATE (blyO k) 2).tstShort k r true
  else ((s.setRun k (some r)).put F.BLY_SLOT_STAT_STATE (blyO k) 4).jobBoundary k none

/-- A complete run is compared (R470 to R472). -/
def State.tstCompare (s : State) (k : Nat) (r : TstRun) (o : TestObs) : State :=
  let t := r.target
  let kind := s.runKind k
  let s := s.tstShow t o.sig
  if s.tstPass t o.sig then
    let s := (s.tstData k 0 t).tstResult t 1 r.suspends kind r.count o.sig 3 false
    (if kind = 3 then s.unfence else s).tstNext k r
  else if s.goldenBad t then (s.tstResult t 2 r.suspends kind r.count o.sig 1 true).tstNext k r
  else if !r.again then
    let s := s.tstLog t 2 r.suspends kind r.count o.sig 1
    (s.setRun k (some { r with steps := 0, count := 0, again := true })).jobBoundary k none
  else
    let s := (s.tstData k 1 t).tstResult t 2 r.suspends kind r.count o.sig 0 false
    (s.tstMark t o.segs).tstNext k r

/-- One step of the run `r` in slot `k` is taken, unless the target is skipped, service holds it, or its save and restore wait for the
CXL memory (R27). -/
def State.tstWork (s : State) (k : Nat) (r : TstRun) (o : TestObs) : State :=
  let t := r.target
  let st := s.jobState k
  if tstSaves t && s.cacheOnly then
    if r.steps = 0 ∧ !r.again then (s.onJob k (fun j => { j with phase := 1 })).tstSkip k r else s.tstShort k r false
  else if 14 ≤ t ∧ t ≤ 22 ∧ r.steps = 0 ∧ s.cordRuns (t - 14) ∧ r.since + sTicks 10 ≤ s.tick then s.tstSkip k r
  else if t = 9 ∧ s.bit F.BST_SUBST_VALID then s.tstSkip k r
  else if tstSaves t && s.cxlHeld 5 then s
  else if s.tstHeld r then
    if t = 13 ∨ (r.steps ≠ 0 ∧ st = 2) then s.tstSuspend k r
    else if st = 4 then s else s.put F.BLY_SLOT_STAT_STATE (blyO k) 3
  else
    let seg := r.steps
    let r := { r with steps := seg + 1, count := tstFull t * (seg + 1) / tstSteps t }
    let s := ((s.put F.BLY_SLOT_STAT_STATE (blyO k) 2).setRun k (some r)).jobCount k
    if tstSaves t && o.restoreBad then (s.segRecover t seg o.coefs).tstShort k r false
    else if tstSteps t ≤ r.steps then s.tstCompare k r o
    else if o.suspend then s.tstSuspend k r
    else s.jobBoundary k none

/-- One step of a self-test job of kind `kind` in slot `k`. -/
def State.tstStep (s : State) (k kind : Nat) (o : TestObs) : State :=
  let st := s.jobState k
  if (st == 2 || st == 3 || st == 4) && s.get F.BLY_SLOT_STAT_KIND (blyO k) == kind && s.jobFirst k then
    match s.run k with
    | some r => s.tstWork k r o
    | none =>
      match s.tstTargets k with
      | t :: _ => let r := s.newRun t [] false; (s.setRun k (some r)).tstWork k r o
      | [] => s.tstFinish k 0
  else s

/-! ### The quick self-test (R473) -/

/-- The quick test of target `t`. -/
def State.quickOne (s : State) (t : Nat) (o : QuickObs) : State :=
  if o.short then s.tstResult t 3 0 0 0 0 2 false
  else
    let full := tstFull t
    let pass := fun (s : State) (sig : BitVec 64) => (s.tstShow t sig).tstResult t 1 0 0 full sig 3 false
    let failed := fun (s : State) => s.putBit F.BST_QUICK_FAIL 0 t true
    if s.tstPass t o.sig then pass s o.sig
    else if s.goldenBad t then failed ((s.tstShow t o.sig).tstResult t 2 0 0 full o.sig 1 true)
    else
      let s := s.tstLog t 2 0 0 full o.sig 1
      if s.tstPass t o.again then pass s o.again
      else (failed ((s.tstShow t o.again).tstResult t 2 0 0 full o.again 0 false)).tstMark t o.segs

end Sys2Proof.Machine
end

