-- ==== Sys2Proof/Machine/Belay.lean ====
section
/-! DEFINITION. Belay jobs (R430 to R435): the request and its refusals, cancel and overrun, and the steps of each kind. -/
namespace Sys2Proof.Machine
open Sys2Proof

/-! ### The request (R430, R433, R434) -/

/-- The parameters of a requested job are acceptable. -/
def State.jobParamsOk (s : State) (kind : Nat) (p : List Nat) : Bool :=
  let a := p.getD 0 0
  let b := p.getD 1 0
  let c := p.getD 2 0
  match kind with
  | 1 | 2 => decide (a % 65536 ≤ a / 65536)
  | 3 => tstStartOnly.all (fun t => !a.testBit t)
  | 4 => decide (1 ≤ b) && decide (a + b ≤ s.cxlMib * 16)
  | 5 => decide (b < 8192)
  | 6 => decide (a % 256 ≤ a / 256 % 256) && decide (a / 256 % 256 < 144)
  | 7 => true
  | 8 => decide (1 ≤ a % 16) && decide (a % 16 ≤ 4) && decide (b < 2 ^ 24)
      && (decide (3 ≤ a % 16) || (decide (1 ≤ c) && decide (c ≤ 4096) && decide (b + c ≤ 2 ^ 24)))
  | 10 => c != 0 && s.regionOk (a + 2 ^ 32 * (b % 64)) c
  | _ => false

/-- The number of steps of a job, 0 when it is not known (R411). -/
def State.jobSteps (s : State) (kind : Nat) (p : List Nat) : Nat :=
  let a := p.getD 0 0
  let b := p.getD 1 0
  let n := a / 65536 + 1 - a % 65536
  match kind with
  | 1 => (n + 15) / 16
  | 2 => (n + 255) / 256
  | 3 => ((List.range 30).filter (fun t => a.testBit t)).foldl (fun (m : Nat) t => m + tstSteps t) 0
  | 4 => (b + 3) / 4
  | 5 => ((s.logSpan false p).2 + 31) / 32
  | 6 => a / 256 % 256 + 1 - a % 256
  | 8 => if a % 16 = 1 then 1 else 0
  | 10 => (p.getD 2 0 + 262143) / 262144
  | _ => 0

/-- A PROFILE_SWITCH is queued or running. -/
def State.switching (s : State) : Bool :=
  (List.range 16).any (fun k => s.jobLive k && s.get F.BLY_SLOT_STAT_KIND (blyO k) == 7)

/-- A request for a job from interface `origin` (R430): the slot when it starts, and the result code of R433. -/
def State.jobRequest (s : State) (kind prio origin cmdId : Nat) (p : List Nat) : State × Option Nat × Nat :=
  if !(prio == 1 || prio == 2) || !s.jobParamsOk kind p then (s, none, 2)
  else if kind = 7 ∧ s.switching then (s, none, 10)
  else if [1, 4, 10].contains kind && s.cacheOnly then (s, none, 3)
  else match s.jobStart kind (if kind = 7 then 0 else prio) origin cmdId p (s.jobSteps kind p) false with
    | (s, some k) => (s, some k, 1)
    | (s, none) => (s.raise Ev.BLY_SLOTS_FULL 0, none, 9)

/-- BLY_START (R430): with `BLY_PARAM0` to `BLY_PARAM3` as they stand. -/
def execBlyStart (i : Iface) (w : Word) (s : State) : Out := s.answer <|
  let s := s.wlogNote i F.BLY_START.addr w
  if !F.BLY_START_GO.on w then .next s
  else
    let p := (List.range 4).map (fun j => s.get F.BLY_PARAM (4 * j))
    let r := s.jobRequest (F.BLY_START_KIND.of w) (F.BLY_START_PRIORITY.of w) i.id 0 p
    .next (((r.1.put F.BLY_START_STAT_SLOT 0 (r.2.1.getD 0)).putB F.BLY_START_STAT_VALID 0 r.2.1.isSome).put
      F.BLY_START_STAT_RESULT 0 r.2.2)

/-! ### Cancel, overrun and reports (R432, R433) -/

/-- A cancel (R433): a running job ends at its next step boundary, any other at once. -/
def State.jobCancel (s : State) (k : Nat) : State :=
  if !s.jobLive k then s
  else if s.jobState k = 2 then s.onJob k (fun j => { j with cancel := true })
  else s.jobEnd k 7 7

/-- BLY_CANCEL (R433). -/
def execBlyCancel (i : Iface) (w : Word) (s : State) : Out := s.answer <|
  let s := s.wlogNote i F.BLY_CANCEL.addr w
  .next (if F.BLY_CANCEL_GO.on w then s.jobCancel (F.BLY_CANCEL_SLOT.of w) else s)

/-- BLY_OVERRUN (R432): a step of slot `k` ran over 250 µs. -/
def execBlyOverrun (k : Fin 16) (s : State) : Out := s.answer <|
  if s.jobState k.val ≠ 2 then .next s
  else
    let mine : List Nat := (s.leases.filter (fun l => l.holder == 8 + k.val)).map (·.session)
    let s := mine.foldl (fun (s : State) n => s.revoke n) s
    let s' := ((s.jobEnd k.val 8 8).incSat F.BLY_CNT_OVERRUNS).raise Ev.BLY_OVERRUN k.val
    .next (if s.get F.BLY_SLOT_STAT_KIND (blyO k.val) = 7 then s'.profOver else s')

/-- JOB_STATUS_REPORT (R433): every `STATUS_S` seconds while a job runs. -/
def execJobStatusReport (k : Fin 16) (s : State) : Out := s.answer <|
  if s.jobLive k.val && decide ((s.job k.val).statusDue ≤ s.tick) then
    .next ((s.onJob k.val (fun j => { j with statusDue := j.statusDue + sTicks (s.get F.BLY_CFG_STATUS_S) })).jobStatus k.val)
  else .next s

/-! ### Sessions: kinds 1 and 2 -/

/-- The range of a job is done once the cursor has moved on by `n`. -/
def State.rangeDone (s : State) (k n : Nat) : Bool :=
  let a := s.jobParam k 0
  decide (a / 65536 < a % 65536 + (s.job k).cursor + n)

/-- The cursor of slot `k` moves on. -/
def State.jobMove (s : State) (k n : Nat) : State := s.onJob k (fun j => { j with cursor := j.cursor + n })

/-- A count in result word `j` of slot `k`. -/
def State.jobTally (s : State) (k j n : Nat) : State := s.setJobData k j (s.jobData k j + n)

/-- The context of session `k` is rebuilt (R238): into its cache entry when `keep` says that it has one, else into its home copy.
The flag says that it is lost. -/
def State.rebuildNow (s : State) (k : Nat) (homeBad keep : Bool) : State × Bool :=
  match s.rebuildBase k homeBad with
  | none => (s.ctxLost k, true)
  | some base =>
    let img := s.rebuildImage k base
    let s := if keep then s.loadImage k img true
      else s.homePut k (sealImage img (ofLe ((img.drop 16).take 8)))
    (((s.slotOfImage k img).incSat F.SES_JRN_STAT_REBUILDS).raise Ev.CTX_REBUILT k, false)

/-- An uncached context is filled and checked (R229, R434); a bad one, or one read poisoned, is rebuilt, or lost. -/
def State.scrubOne (s : State) (slot k : Nat) (poison : Bool) : State :=
  let st := (s.slot k).st
  if !(st == 1 || st == 2) || s.fills.contains k || s.rebuilds.contains k then s
  else
    let s := s.jobTally slot 0 1
    if s.cached k then s
    else
      let a := s.allocEntry k
      let s := a.1
      let s := if poison then s.cxlPoison (homeAddr k) k else s
      let img := s.homeImage k
      if !poison && imageGood img k then if a.2 then (s.loadImage k img false).incWrap F.SES_CACHE_CNT_FILLS else s
      else
        let r := s.rebuildNow k poison a.2
        r.1.jobTally slot (if r.2 then 2 else 1) 1

/-- SESSION_SCRUB_STEP (R27, R434): the next 16 sessions; `bad` are those whose home copy is read poisoned. -/
def execSessionScrubStep (k : Fin 16) (bad : List (BitVec 16)) (s : State) : Out := s.answer <|
  if !(s.jobTurn k.val 1 && s.journals && s.cxlUp && !s.cxlHeld 5) then .next s
  else
    let fin := s.rangeDone k.val 16
    let s := (s.jobRange k.val 16).foldl (fun (s : State) n => s.scrubOne k.val n (bad.contains (BitVec.ofNat 16 n))) s
    .next ((((s.jobMove k.val 16).jobCount k.val).jobBoundary k.val (if fin then some (5, 1) else none)).serve)

/-- REKEY_SWEEP_STEP (R434): the next 256 sessions; each one to mark is marked under a lease of the job.  The job is done when no
mark is left. -/
def execRekeySweepStep (k : Fin 16) (s : State) : Out := s.answer <|
  if !s.jobTurn k.val 2 then .next s
  else
    let left := s.rekeyMarks.any (fun x => x.2 == k.val)
    let ks := s.jobRange k.val 256
    if ks.isEmpty then .next (if left then s else s.jobBoundary k.val (some (5, 1)))
    else
      let mark := ks.filter (fun n => s.sweepMarks n (s.jobParam k.val 1 % 65536))
      let fin := s.rangeDone k.val 256
      let s := { s with rekeyMarks := s.rekeyMarks ++ mark.map (fun n => (n, k.val)) }
      let s := (mark.foldl (fun (s : State) n => s.leaseAsk n (8 + k.val)) s).serve
      let s := (s.jobMove k.val 256).jobCount k.val
      let left := s.rekeyMarks.any (fun x => x.2 == k.val)
      .next (s.jobBoundary k.val (if fin && !left then some (5, 1) else none))

/-! ### CXL memory: kinds 4 and 10 -/

/-- The home copy of session `k` was read poisoned (R247): a cached context is written back again, any other is rebuilt. -/
def State.homePoison (s : State) (k : Nat) : State :=
  let s := s.cxlPoison (homeAddr k) k
  let st := (s.slot k).st
  if !(st == 1 || st == 2) then s
  else if s.cached k then (s.onCache k (fun e => { e with dirty := true })).writeBack k
  else
    let a := s.allocEntry k
    (a.1.rebuildNow k true a.2).1

/-- CXL_SCRUB_STEP (R434): the next four 64 KiB units; `ctxs` are the sessions whose home copy, `recs` the records of the spool
(class, `SPOOL_SEQ`), and `other` the other addresses read poisoned. -/
def execCxlScrubStep (k : Fin 16) (ctxs : List (BitVec 16)) (recs : List (Fin 5 × Nat)) (other : List Nat) (s : State) : Out := s.answer <|
  if !(s.jobTurn k.val 4 && s.journals && s.cxlUp) || s.cxlHeld 5 then .next s
  else
    let s := s.jobTally k.val 0 (ctxs.length + recs.length + other.length)
    let s := ctxs.foldl (fun (s : State) n => s.homePoison n.toNat) s
    let s := recs.foldl (fun (s : State) r =>
      match s.spool.find? (fun x => x.rc.cls == r.1.val && x.rc.seq == r.2 && x.rc.page != 0) with
      | some x => s.recPoison x
      | none => s) s
    let s := other.foldl (fun (s : State) a => s.cxlPoison a 0xFFFF) s
    let fin := decide (s.jobParam k.val 1 ≤ (s.job k.val).cursor + 4)
    .next ((((s.jobMove k.val 4).jobCount k.val).jobBoundary k.val (if fin then some (5, 1) else none)).serve)

/-- A CRC-32C register after more bytes. -/
def crc32cMore (reg : BitVec 32) (l : List Byte) : BitVec 32 :=
  l.foldl (fun c b => (List.range 8).foldl (fun c j => crc32cBit c (b.getLsbD j)) c) reg

/-- CXL_AUDIT_STEP (R359, R434): 256 KiB, or the rest of the range, through a claimed check unit; the job waits while no unit is
free. -/
def execCxlAuditStep (k : Fin 16) (data : List Byte) (poison : Bool) (s : State) : Out := s.answer <|
  let st := s.jobState k.val
  let waits := decide (st = 3) && s.get F.BLY_SLOT_STAT_KIND (blyO k.val) == 10 && s.jobFirst k.val
  if !(s.jobTurn k.val 10 || waits) || !s.cxlUp || s.cxlHeld 5 then .next s
  else
    let s := if (s.job k.val).deadline ≠ 0 then s
      else match s.chkFree with
        | some u => (s.chkClaim u 3 4).onJob k.val (fun j => { j with deadline := u + 1, phase := 0xFFFFFFFF })
        | none => s
    let j := s.job k.val
    if j.deadline = 0 then .next (s.put F.BLY_SLOT_STAT_STATE (blyO k.val) 3)
    else
      let s := s.put F.BLY_SLOT_STAT_STATE (blyO k.val) 2
      let u := j.deadline - 1
      let len := s.jobParam k.val 2
      let n := min 262144 (len - j.cursor)
      if poison then
        let a := s.jobParam k.val 0 + 2 ^ 32 * (s.jobParam k.val 1 % 64) + j.cursor
        .next (((s.cxlPoison a 0xFFFF).chkAbort u 1).jobBoundary k.val (some (6, 6)))
      else if data.length ≠ n then .next s
      else
        let reg := crc32cMore (BitVec.ofNat 32 j.phase) data
        let s := ((s.onJob k.val (fun j => { j with phase := reg.toNat })).jobMove k.val n).jobCount k.val
        let s := s.put F.CHK_BYTES (chkO u) (j.cursor + n)
        if len ≤ j.cursor + n then
          let crc := ~~~ reg
          let s := ((s.setLive (F.CHK_RESULT.addr + chkO u) crc).incSat F.CHK_CNT_WINDOWS (chkO u)).put
            F.CHK_STATUS_OUTCOME (chkO u) 0
          .next ((s.setJobData k.val 0 crc.toNat).jobBoundary k.val (some (5, 1)))
        else .next (s.jobBoundary k.val none)

/-! ### Records: kinds 5 and 6 -/

/-- The 32 bytes of a log entry (R490); an index never written reads 0. -/
def LogEntry.bytes (e : LogEntry) : List Byte :=
  le e.time 8 ++ le e.phase 2 ++ le e.source 2 ++ le e.code 2 ++ le e.severity 1 ++ le e.iface 1 ++ padTo 16 e.data

/-- The entries of the next LOG_EXPORT record: at most 32, not past the end of the ring or of the region, and none of a marked
segment. -/
def State.exportRun (s : State) (k n : Nat) : List Nat :=
  let top := if k < 7936 then 7936 else 8192
  ((List.range (min 32 (min n (top - k)))).map (· + k)).takeWhile (fun x => !s.logMarked x)

/-- LOG_EXPORT_STEP (R434, R493): one record of up to 32 entries; a marked segment is stepped over. -/
def execLogExportStep (k : Fin 16) (s : State) : Out := s.answer <|
  if !s.jobTurn k.val 5 then .next s
  else
    let j := s.job k.val
    let c := if 7936 ≤ j.cursor ∧ !(s.jobParam k.val 0).testBit 0 then 0 else j.cursor
    let ks := s.exportRun c j.phase
    let on := fun (s : State) (n : Nat) => s.onJob k.val (fun j => { j with cursor := c + n, phase := j.phase - n })
    if j.phase = 0 then .next (s.jobBoundary k.val (some (5, 1)))
    else if ks.isEmpty then
      let n := min j.phase (512 - c % 512)
      .next ((on s n).jobBoundary k.val (if j.phase ≤ n then some (5, 1) else none))
    else
      let n := ks.length
      let body := le k.val 1 ++ le (if 7936 ≤ c then 1 else 0) 1 ++ le n 2 ++ le c 4 ++ ks.flatMap (fun x => (s.logAt x).bytes)
      let s := (((s.emit 4 0x03 0 body ks).jobTally k.val 0 n).jobCount k.val)
      .next ((on s n).jobBoundary k.val (if j.phase ≤ n then some (5, 1) else none))

/-- Entry `b` of the map of port `p` as a word of 64 bits (R161). -/
def State.mapEntry (s : State) (p b : Nat) : Nat :=
  let m := s.mapBin p b
  if m.n = 0 then 2 ^ 48 * min 4095 m.age
  else
    let mean := toSigned 16 (dbRound m.mean 4 + 492)
    let p95 := toSigned 16 ((m.q95 + 32) / 64)
    let imp := (roundAway (m.imp * 65535)).toNat % 65536
    mean + 2 ^ 16 * p95 + 2 ^ 32 * imp + 2 ^ 48 * min 4095 m.age + 2 ^ 60 * min 15 (Nat.log2 (m.n + 1))

/-- NOISE_MAP_EXPORT_STEP (R434, R411): one port's map in one record. -/
def execNoiseMapExportStep (k : Fin 16) (s : State) : Out := s.answer <|
  if !s.jobTurn k.val 6 then .next s
  else
    let a := s.jobParam k.val 0
    let p := a % 256 + (s.job k.val).cursor
    let o := setO (s.setOf p)
    let body := le p 1 ++ le (s.get F.MNS_SET_STAT_STATE o) 1 ++ [0, 0] ++ le (s.get F.MNS_PERIOD_TICKS o) 4
      ++ (List.range 128).flatMap (fun b => le (s.mapEntry p b) 8)
    let s := ((s.emit 4 0x08 0 body).jobTally k.val 0 1).jobCount k.val
    .next ((s.jobMove k.val 1).jobBoundary k.val (if a / 256 % 256 ≤ p then some (5, 1) else none))

/-! ### CIPHER_TEST: kind 11 -/

/-- CIPHER_TEST_STEP (R334, R474): a step of a run of target 12; a pass lifts the fence. -/
def execCipherTestStep (k : Fin 16) (o : TestObs) (s : State) : Out := s.answer <| .next (s.tstStep k.val 11 o)

/-! ### NVM_PASSTHROUGH: kind 8 (R435)

The NVM itself lies outside the block: a command brings what was read from it. -/

/-- The operation of the NVM job in slot `k`. -/
def State.nvmOp (s : State) (k : Nat) : Nat := s.jobParam k 0 % 16

/-- Bytes stored in `BLY_NVM_BUF` from byte `off` on (R442). -/
def State.nvmStore (s : State) (off : Nat) : List Byte → State
  | [] => s
  | b :: t =>
    let a := 0x139000 + off / 4 * 4
    let j := 8 * (off % 4)
    State.nvmStore (s.setLive a (setBits (s.live a) (j + 7) j b.toNat)) (off + 1) t

/-- NVM_READ_STEP (R358, R435): the data read, and the value that check unit 0 is given for it, if any. -/
def execNvmReadStep (k : Fin 16) (data : List Byte) (expect : Option Word) (s : State) : Out := s.answer <|
  if !(s.jobTurn k.val 8 && s.nvmOp k.val == 1) || data.length ≠ s.jobParam k.val 2 then .next s
  else
    let s := match expect with
      | some e => s.chkExpect 0 e
      | none => s.put F.CHK_STATUS_EXPECT_VALID 0 0
    let s := (s.snoop 11 0 data).chkComplete 0 data
    let bad := expect.isSome && s.get F.CHK_STATUS_OUTCOME == 2
    let s := ((s.nvmStore 0 data).setJobData k.val 0 data.length).jobCount k.val
    .next (s.jobBoundary k.val (some (if bad then (6, 6) else (5, 1))))

/-- NVM_PROGRAM_STEP (R435): writes the next page, or, after the last one, reads back and compares (`same`). -/
def execNvmProgramStep (k : Fin 16) (same : Bool) (s : State) : Out := s.answer <|
  let j := s.job k.val
  if !(s.jobTurn k.val 8 && s.nvmOp k.val == 2) then .next s
  else if j.phase = 0 then
    let at_ := s.jobParam k.val 1 + j.cursor
    let n := min (256 - at_ % 256) (s.jobParam k.val 2 - j.cursor)
    let s := s.onJob k.val (fun j => { j with cursor := j.cursor + n, phase := 1, deadline := s.tick + msTicks 10 })
    .next ((s.jobCount k.val).jobBoundary k.val none)
  else if j.phase = 2 then
    .next ((s.jobCount k.val).jobBoundary k.val (some (if same then (5, 1) else (6, 5))))
  else .next s

/-- NVM_ERASE_STEP (R435): issues the erase. -/
def execNvmEraseStep (k : Fin 16) (s : State) : Out := s.answer <|
  let op := s.nvmOp k.val
  if !(s.jobTurn k.val 8 && (op == 3 || op == 4) && (s.job k.val).phase == 0) then .next s
  else
    let s := s.onJob k.val (fun j =>
      { j with cursor := if op = 3 then 4096 else 65536, phase := 1, deadline := s.tick + sTicks 3 })
    .next ((s.jobCount k.val).jobBoundary k.val none)

/-- NVM_STATUS_POLL (R435): one poll of the busy bit; a page or erase still busy at its deadline ends the job. -/
def execNvmStatusPoll (k : Fin 16) (busy : Bool) (s : State) : Out := s.answer <|
  let j := s.job k.val
  if !(s.jobTurn k.val 8 && j.phase == 1) then .next s
  else
    let s := s.jobCount k.val
    if busy then .next (s.jobBoundary k.val (if j.deadline ≤ s.tick then some (6, 4) else none))
    else
      let s := s.setJobData k.val 0 j.cursor
      if s.nvmOp k.val = 2 then
        let more := decide (j.cursor < s.jobParam k.val 2)
        .next ((s.onJob k.val (fun j => { j with phase := if more then 0 else 2 })).jobBoundary k.val none)
      else .next (s.jobBoundary k.val (some (5, 1)))

end Sys2Proof.Machine
end

