-- ==== Sys2Proof/Machine/CmdOps.lean ====
section
/-! DEFINITION. What Halyard takes in, whichever way a record comes (R406 to R410, R412, R415 to R418): the check of a record, VERSION,
and the acceptance of a COMMAND into the command queue. -/
namespace Sys2Proof.Machine
open Sys2Proof

/-! ### A COMMAND body (R415) -/

/-- `CMD_ID`. -/
def cmdIdOf (b : List Byte) : Nat := ofLe (b.take 4)
/-- `OP`. -/
def cmdOpOf (b : List Byte) : Nat := (b.getD 4 0).toNat
/-- `CFLAGS`. -/
def cmdFlagsOf (b : List Byte) : Nat := (b.getD 5 0).toNat
/-- `SESSION`. -/
def cmdSesOf (b : List Byte) : Nat := ofLe ((b.drop 6).take 2)
/-- The data of the operation. -/
def cmdDataOf (b : List Byte) : List Byte := b.drop 8
/-- Bytes of the data as a little-endian number. -/
def cmdNum (b : List Byte) (off n : Nat) : Nat := ofLe (((cmdDataOf b).drop off).take n)

/-- The first refusal of a command by its own content (R415, R416): 7 UNKNOWN_OP, 8 PARAM, 6 LENGTH. -/
def cmdRefusal (b : List Byte) : Option Nat :=
  let op := cmdOpOf b
  let n := (cmdDataOf b).length
  let count := cmdNum b 4 2
  if op = 0 ∨ 7 < op then some 7
  else if 2 ≤ cmdFlagsOf b ∨ (op ≠ 1 ∧ (cmdFlagsOf b ≠ 0 ∨ cmdSesOf b ≠ 0)) then some 8
  else match op with
  | 1 => if 1 ≤ n ∧ n ≤ 1016 then none else some 6
  | 2 => if n < 6 then some 6 else if count = 0 ∨ 256 < count then some 8 else if n = 6 then none else some 6
  | 3 =>
    if n < 8 then some 6
    else if count = 0 ∨ 256 < count ∨ cmdNum b 6 2 ≠ 0 then some 8
    else if n = 8 + 4 * count then none else some 6
  | 4 =>
    let len := BitVec.ofNat 32 (cmdNum b 4 4)
    if 76 ≤ n ∧ n = 76 + F.CIP_RAW_LEN_AAD_LEN.of len + F.CIP_RAW_LEN_DATA_LEN.of len then none else some 6
  | 5 => if n ≠ 20 then some 6 else if cmdNum b 2 2 ≠ 0 then some 8 else none
  | 6 => if n = 1 then none else some 6
  | _ => if n = 4 then none else some 6

/-! ### Answers (R416, R417) -/

/-- The code that stands for OK, BUSY or PARAM in the response to an operation: operations 5 and 6 carry the belay result codes. -/
def cmdCode (op r : Nat) : Nat :=
  if op = 5 ∨ op = 6 then (match r with | 0 => 1 | 2 => 9 | 8 => 2 | n => n) else r

/-- A final response to a command. -/
def State.cmdAnswer (s : State) (b : List Byte) (r : Nat) (data : List Byte) : State :=
  s.respond (cmdIdOf b) (cmdOpOf b) (cmdCode (cmdOpOf b) r) (if cmdOpOf b = 1 then cmdSesOf b else 0) data

/-- A refusal with LENGTH, UNKNOWN_OP or PARAM, which raises EV251 (R416). -/
def State.cmdRefuse (s : State) (b : List Byte) (r : Nat) : State := (s.cmdAnswer b r []).raise Ev.CMD_REJECT (cmdIdOf b % 65536)

/-- A response that leaves the command uncompleted, or repeats one (R417). -/
def State.cmdSend (s : State) (b body : List Byte) : State :=
  { s with outq := s.outq ++ [(⟨1, 0x05, if cmdOpOf b = 1 then cmdSesOf b else 0, s.tick, body, [], 0, 0, 0⟩ : Rec)] }

/-- A METER_COMMAND with this `CMD_ID` is pending in a session's context: it was answered QUEUED (R228, R417). -/
def State.cmdPending (s : State) (id : Nat) : Bool :=
  s.slots.any (fun e => (e.2.st == 1 || e.2.st == 2) && e.1 != 0 && s.ctxNum e.1 0x400 2 != 0 && s.ctxNum e.1 0x404 4 == id)

/-- The command is in the queue, waits for its lease, or runs as a raw job. -/
def State.cmdUnderWay (s : State) (id : Nat) : Bool :=
  s.cmdQ.any (fun c => cmdIdOf c.2 == id) || s.meterCmds.any (fun m => m.id == id) || s.cip.raw.any (fun j => j.cmd == some id)

/-- The negotiated version is v3. -/
def State.halV3 (s : State) : Bool := s.bit F.HAL_STATUS_NEGOTIATED && s.get F.HAL_STATUS_VERSION == 2

/-- A COMMAND arrives from interface `i` (R415 to R418): a repeated one is answered as before or dropped; a new one is refused by its
content, answered BUSY, or queued; with `FABRIC` in v3 it is also sent once over Braid. -/
def State.halCommand (s : State) (i : Iface) (flags : Nat) (b : List Byte) : State :=
  let id := cmdIdOf b
  match s.cmdDone.find? (fun e => e.1 == id) with
  | some (_, body) => s.cmdSend b body
  | none =>
    if s.cmdUnderWay id then s
    else if s.cmdPending id then s.cmdSend b (responseBody id 1 1 [])
    else
      let s := if flags.testBit 2 && i != .fabric && s.halV3 then s.brdCast 0x27 (halRecord 0x04 flags 0 0 0 0 0 b) else s
      match cmdRefusal b with
      | some r => s.cmdRefuse b r
      | none =>
        if 64 ≤ s.cmdQ.length then s.cmdSend b (responseBody id (cmdOpOf b) (cmdCode (cmdOpOf b) 2) [])
        else { s with cmdQ := s.cmdQ ++ [(i.id, b)] }

/-! ### Records to the module (R407 to R410, R412) -/

/-- A VERSION record (R409, R410): within the range it negotiates afresh, and the credits and the spools start again; outside it
is refused. -/
def State.halVersion (s : State) (v : Nat) : State :=
  if s.get F.HAL_CFG_VER_MIN + 1 ≤ v ∧ v ≤ s.get F.HAL_CFG_VER_MAX + 1 then
    let s := (s.put F.HAL_STATUS_VERSION 0 (v - 1)).putB F.HAL_STATUS_NEGOTIATED 0 true
    let s := (List.range 5).foldl (fun (s : State) c => s.rewind c) (s.put F.SES_CREDIT_BALANCE 0 0)
    (s.creditWatch).raise Ev.HAL_VERSION v
  else s.raise Ev.HAL_VERSION 0

/-- The entries of an ACK record (R412). -/
def ackEntries (b : List Byte) : List (Nat × Nat) :=
  (List.range (b.length / 12)).map (fun j => ((b.getD (12 * j) 0).toNat, ofLe ((b.drop (12 * j + 4)).take 8)))

/-- A record's type travels to the module and its body has a length of the type (R408, R412). -/
def State.halBodyOk (s : State) (rtype : Nat) (body : List Byte) : Bool :=
  let n := body.length
  match rtype with
  | 0x04 => decide (8 ≤ n)
  | 0x10 => n == 4
  | 0x11 => n % 12 == 0 && decide (12 ≤ n) && (s.get F.HAL_STATUS_VERSION != 0 || n == 12)
  | 0x21 => n == 1
  | _ => false

/-- A record arrives at the module from interface `i`, its header and its body (R407 to R412). -/
def State.halTake (s : State) (i : Iface) (h body : List Byte) : State :=
  let rtype := (h.getD 0 0).toNat
  if (crc32c (h.take 28 ++ body)).toNat ≠ ofLe ((h.drop 28).take 4) then s.incSat F.HAL_CNT_DROP_CRC
  else if !s.bit F.HAL_STATUS_NEGOTIATED ∧ rtype ≠ 0x21 then s.incSat F.HAL_CNT_DROP_NOT_NEGOTIATED
  else if !s.halBodyOk rtype body then s.incSat F.HAL_CNT_DROP_FORMAT
  else
    let s := s.incWrap F.HAL_CNT_RX_RECORDS
    match rtype with
    | 0x04 => s.halCommand i (h.getD 1 0).toNat body
    | 0x10 => s.halCredit (ofLe body)
    | 0x11 => (ackEntries body).foldl (fun (s : State) e => if e.1 < 5 then s.halAck e.1 e.2 else s) s
    | _ => s.halVersion (body.getD 0 0).toNat

/-- One command record that came over the fabric acts as though it had arrived on Halyard (R391). -/
def State.fabricRecord (s : State) (r : List Byte) : State :=
  if r.length < 32 ∨ r.length ≠ 32 + ofLe ((r.drop 4).take 2) ∨ r.headD 0 ≠ 0x04 then s.incSat F.HAL_CNT_DROP_FORMAT
  else s.halTake .fabric (r.take 32) (r.drop 32)

end Sys2Proof.Machine
end

