-- ==== Sys2Proof/Machine/Radio.lean ====
section
/-! DEFINITION. Radio heads and the slotted superframe (R258 to R292): head links, the superframe and its slots, responders, the
end of pairs and associations, the parent's beacon, and the MAC registers. -/
namespace Sys2Proof.Machine
open Sys2Proof

/-! ### Head links -/

/-- RH_LINK_UP (R260): a valid lane alignment sequence has arrived during initialisation. -/
def execRhLinkUp (head : Fin 4) (s : State) : Out := s.answer <|
  let h := head.val
  if s.bit F.RFS_HEAD_CFG_ENABLE (rhO h) && s.get F.RFS_HEAD_STAT_LINK (rhO h) == 1 then
    .next (((s.put F.RFS_HEAD_STAT_LINK (rhO h) 2).headListens h true).raise Ev.RH_LINK_UP h)
  else .next s

/-- RH_LINK_DOWN (R260, R287): the link leaves UP; its strands hold and its pairs are SKIPPED. -/
def execRhLinkDown (head : Fin 4) (s : State) : Out := s.answer <|
  let h := head.val
  if s.get F.RFS_HEAD_STAT_LINK (rhO h) != 2 then .next s
  else
    let s := (s.headDown h).incSat F.RFS_HEAD_STAT_LINK_ERRS (rhO h)
    let s := s.onMac (fun m => { m with linkRetry := tset (fun _ => 0) m.linkRetry h s.tick })
    .next (s.raise Ev.RH_LINK_DOWN h)

/-- RH_LINK_INIT_RETRY (R260): 100 ms have passed with the link down, and its script runs again. -/
def execRhLinkInitRetry (head : Fin 4) (s : State) : Out := s.answer <|
  let h := head.val
  let due := tget (fun _ => 0) s.mac.linkRetry h + msTicks 100
  if s.bit F.RFS_HEAD_CFG_ENABLE (rhO h) && s.get F.RFS_HEAD_STAT_LINK (rhO h) != 2 && decide (due ≤ s.tick) then
    .next (s.linkInit h)
  else .next s

/-! ### The superframe -/

/-- The parent beacon of a superframe that passed without one is missed (R284), at the end of its listen slot. -/
def State.parentMissed (s : State) (j : Nat) : State :=
  if !s.listenSlot j || s.get F.MAC_STATUS_MODE == 3 || s.mac.heardParent || s.mac.parentRx.isSome then s
  else s.incSat F.MAC_STATUS_PARENT_MISS

/-- SUPERFRAME_START (R266, R269, R291): at the boundary the superframe number advances, pending commits apply, a move of the grid
takes effect, and the beacons are sent in slot 0. -/
def execSuperframeStart (s : State) : Out := s.answer <|
  match s.mac.next with
  | none => .next s
  | some b =>
    let ends := match s.mac.slot with
      | some (63, _) => s.mac.phase == 3
      | some _ => false
      | none => s.mac.fresh
    if !s.own || !s.macCan || s.tick < b || !ends then .next s
    else
      let s := if s.macDue b then s.macApply else s
      let s := if s.commitPending 8 then s.applyInst 8 0 else s
      let s := match s.mac.moveTo with
        | some o => s.put F.MAC_STATUS_OFFSET 0 o
        | none => s
      let s := s.onMac (fun m => { m with sfs := m.sfs + 1, airMark := (m.dwell, m.duty, m.dutyTo) })
      let s := s.put F.MAC_SFN_SFN 0 (if s.mac.fresh then 0 else s.sfn + 1)
      let s := (s.put F.MAC_SF_START_LO_TICK 0 b).put F.MAC_SF_START_HI_TICK 0 (b / 2 ^ 32)
      let independent := s.get F.MAC_STATUS_MODE == 1
      let s := s.onMac (fun m => { m with
        fresh := false, slot := some (0, b), phase := 0, moveTo := none, heardParent := false, pairs := [], nextPairs := [],
        leasedFor := none })
      let s := s.onMac (fun m => { m with
        next := some (if independent then s.gridFrom (b + s.sfLen) else b + s.sfLen) })
      -- the hold of DRIFT_LOST counts down (R278)
      let s := s.mac.holds.foldl (fun (s : State) x =>
        let l := s.leaseTry x.1 3
        if l.2 then (l.1.ctxPut x.1 0x0C7 1 (8 - min 8 (s.mac.sfs - x.2)) 3).macRelease x.1 else s) s
      let s := s.listenStart 0
      .next (s.beaconHeads.foldl (fun (s : State) h => s.beaconSend h b) s)

/-- PAIR_LEASE (R270): before the next slot the coordinator asks for the lease of every session active in it, unless SPOOL_FULL keeps it
from starting exchanges (R243, R532). -/
def execPairLease (s : State) : Out := s.answer <|
  match s.mac.slot with
  | none => .next s
  | some (j, st) =>
    let start := st + s.slotLen
    let n := j + 1
    if 64 ≤ n || s.mac.leasedFor == some n || s.tick + msTicks 2 < start || start ≤ s.tick || s.noDecoder then .next s
    else
      let lease := fun (a : State × List PairNow) (p : PairNow) =>
        let h := if a.1.leasedBy p.session 7 then 7 else 3
        (if s.bit F.SES_STATUS_SPOOL_FULL then a.1 else a.1.leaseAsk p.session h, a.2 ++ [p])
      let r := (s.pairsIn n s.sfn).foldl lease (s, [])
      .next (r.1.onMac (fun m => { m with leasedFor := some n, nextPairs := r.2 }))

/-- The coordinator gives up its waiting request for the lease of session `k` (R233), unless an accepted frame waits for it. -/
def State.macWithdraw (s : State) (k : Nat) : State :=
  if s.accWait.any (fun w => w.session == k && w.what == 4) then s
  else { s with leaseQ := s.leaseQ.filter (fun q => !(q.session == k && q.holder == 3)) }

/-- SLOT_START (R267, R270, R275, R284): phase 1 of the next slot begins with the windows of its pairs; a pair whose lease is not granted
by then, or on a head that cannot receive, is SKIPPED.  The listen strand is tuned for the slot. -/
def execSlotStart (s : State) : Out := s.answer <|
  match s.mac.slot with
  | none => .next s
  | some (j, st0) =>
    let st := st0 + s.slotLen
    let n := j + 1
    if 64 ≤ n || s.mac.phase != 3 || s.tick < st then .next s
    else
      let ps := if s.mac.leasedFor = some n then s.mac.nextPairs
        else (s.pairsIn n s.sfn).map (fun p => { p with outcome := 5 })
      let ps := ps.map (fun (p : PairNow) =>
        let h := headOf p.rx
        let dead := !s.headUp h || s.mac.headFail.contains (h, true) || !s.leasedBy p.session (s.radioHolder p.session)
        s.pairWindow (if dead then { p with outcome := 5 } else p) st)
      let s := ps.foldl (fun (s : State) p => s.macWithdraw p.session) s
      let s := s.onMac (fun m => { m with slot := some (n, st), phase := 0, pairs := ps, nextPairs := [], leasedFor := none })
      .next (s.listenStart n)

/-- The transmit script of head `h` runs (R262); a malformed one fails the direction. -/
def State.sendScript (s : State) (h : Nat) : State :=
  let s := s.scriptRun h (324 + h)
  if s.scriptBad (324 + h) then s.headFails h false else s

/-- PHASE2_PREP (R262, R267, R268, R272): at P2 − 0.5 ms frames that still arrive are preempted, the responders are built, JOINs are
answered, and the transmit scripts run. -/
def execPhase2Prep (s : State) : Out := s.answer <|
  match s.mac.slot with
  | none => .next s
  | some (j, st) =>
    if j == 0 || s.mac.phase != 0 || s.tick + halfMs < st + s.p2Ticks then .next s
    else
      let listen := beaconRx (s.get F.MAC_SUB_LISTEN_HEAD)
      let late := (List.range 32).map (· + 576)
      let s := late.foldl (fun (s : State) r =>
        -- the sync word is found, and the frame still arrives (R268)
        if decide (4 ≤ s.rxSt r) && !(s.listenSlot j && r == listen) then
          let k := ((s.pairOf r).map (·.session)).getD 0
          (s.rxForceHold r).raise Ev.SLOT_OVERRUN k
        else s) s
      let s := s.onMac (fun m => { m with phase := 1 })
      let s := s.mac.pairs.foldl (fun (s : State) p => s.respBuild p) s
      let s := if s.contSlot j then
          let s := s.joinsAnswer
          (s.radioSessions.filter s.relayed).foldl (fun (s : State) k => s.meshStart k) s
        else s
      let sends := fun (s : State) h => s.mac.pairs.any (fun p => headOf p.rx == h && p.tx != [])
        || (s.contSlot j && s.mac.downQ.any (fun d => d.heads.contains h))
      .next ((List.range 4).foldl (fun (s : State) h => if sends s h then s.sendScript h else s) s)

/-- The first frame of a list in sending order (R300): by rank, SOURCE frames by class, then oldest first. -/
def nextDown : List DownTx → Option DownTx
  | [] => none
  | d :: t => match nextDown t with
    | none => some d
    | some x =>
      let key := fun (y : DownTx) => if y.rank = 1 then y.cls else 0
      let before := decide (x.rank < d.rank) || (x.rank == d.rank && (decide (key x < key d)
        || (key x == key d && decide (x.at_ < d.at_))))
      if before then some x else some d

/-- A downstream frame has been sent on head `h`; it leaves the queue when no head still owes it. -/
def State.downSent (s : State) (d : DownTx) (h : Nat) : State :=
  let d' := { d with heads := d.heads.filter (· != h) }
  let s := s.onMac (fun m => { m with
    downQ := if d'.heads.isEmpty then m.downQ.erase d else m.downQ.map (fun x => if x = d then d' else x) })
  if d.rank = 0 then
    s.onMac (fun m => { m with assocs := m.assocs.map (fun (a : RadioAssoc) =>
      if a.session = d.session then { a with sent := a.sent + 1, lastSf := s.mac.sfs } else a) })
  else s

/-- The contention slot's frame of head `h` is sent (R280, R300): a refused ASSIGN is no try and waits; another refused frame is not
sent on this head. -/
def State.downSend (s : State) (h st : Nat) : State :=
  match nextDown (s.mac.downQ.filter (fun d => d.heads.contains h && d.wait == 0 && s.strandSends (beaconRx h))) with
  | none => s
  | some d =>
    let r := beaconRx h
    let lo := st + s.p2Ticks
    let dest := (macOf d.mpdu).dest
    let ask := s.airAsk r lo (lo + s.airTicks r (s.chanMode r 0) d.mpdu.length) dest
    if !ask.2 then (if d.rank = 0 then ask.1 else ask.1.downSent d h)
    else
      let s := (ask.1.airStart r lo (s.chanMode r 0) (s.airVer dest d.session) d.mpdu)
      let s := if s.leasedBy d.session 3 then s.ctxInc d.session 0x304 3 else s
      s.downSent d h

/-- The responder of a pair is sent, or refused by the air-time tests (R272, R280). -/
def State.respSend (s : State) (p : PairNow) (st : Nat) : State :=
  if p.outcome = 5 ∨ p.tx = [] ∨ p.wait ≠ 0 ∨ !s.strandSends p.rx then s
  else
    let k := p.session
    let g := s.radioHolder k
    let lo := st + s.p2Ticks
    let mode := s.chanMode p.rx (s.ctxNum k 0x0C5 1 % 4)
    let ask := s.airAsk p.rx lo (lo + s.airTicks p.rx mode p.tx.length) k
    let set := fun (s : State) (q : PairNow) => s.onMac (fun m => { m with pairs := m.pairs.map (fun x => if x = p then q else x) })
    if !ask.2 then (set ask.1 { p with outcome := 4, tx := [] }).incSat F.RFS_DOWN_CNT_REFUSED (rfO p.rx)
    else
      let s := (ask.1.airStart p.rx lo mode (s.airVer k k) p.tx).incSat F.RFS_DOWN_CNT_SENT (rfO p.rx)
      let s := s.ctxInc k 0x304 g
      if p.txType = 2 ∧ !s.mac.cmdOut.contains k then
        let s := (set s { p with first := true }).onMac (fun m => { m with cmdOut := m.cmdOut ++ [k] })
        s.ctxPut k 0x0D6 2 0 g
      else if p.txType = 7 then
        let s := { s with hoOut := s.hoOut.map (fun (x : HoOut) => if x.session = k then { x with sent := true } else x) }
        s.onMac (fun m => { m with assocs := m.assocs.map (fun (a : RadioAssoc) =>
          if a.session = k then { a with sent := a.sent + 1 } else a) })
      else s

/-- RESPONDER_SEND (R272, R280, R300): at P2 responder frames, and in a contention slot one downstream frame a head, pass the air-time
tests and are sent. -/
def execResponderSend (s : State) : Out := s.answer <|
  match s.mac.slot with
  | none => .next s
  | some (j, st) =>
    if j == 0 || s.mac.phase != 1 || s.tick < st + s.p2Ticks then .next s
    else
      let s := s.onMac (fun m => { m with phase := 2 })
      let s := s.mac.pairs.foldl (fun (s : State) p => s.respSend p st) s
      .next (if s.contSlot j then
          ((List.range 4).filter s.headSends).foldl (fun (s : State) h => s.downSend h st) s
        else s)

/-- Transmissions of head `h` in the slot end by the tail, which begins at `t` (R267): its limiter statistics follow (R120, R264,
R289), and frames sent whole are counted (R144). -/
def State.airEnd (s : State) (h t : Nat) : State :=
  let mine := s.mac.air.filter (fun a => headOf a.1 == h)
  if mine.isEmpty then s
  else
    let n := s.headSamples h
    let l := limStats (fun i => s.headGain h i) n
    let s := mine.foldl (fun (s : State) a =>
      let s := s.onRx a.1 (fun x => { x with txOn := false })
      if a.2.whole && decide (a.2.over ≤ t) then s.incSat F.STR_FRM_CNT_B_TX_FRAMES (rxO a.1) else s) s
    let o := rhO h
    let s := s.put F.RFS_HEAD_TX_STAT_LIMITED o (if n = 0 then 0 else l.1 * 10000 / n)
    let s := (s.put F.RFS_HEAD_TX_STAT_MAX_CUT o (min l.2 255)).putB F.RFS_HEAD_STAT_TX o false
    s.raiseIf (s.bit F.RFS_HEAD_TX_EN o && decide (n < 100 * l.1)) Ev.CREST_LIMIT (beaconRx h)

/-- The tune script of head `h` for superframe `sf` runs (R262); a malformed one fails the direction. -/
def State.tuneScript (s : State) (h sf : Nat) : State :=
  let i := 64 * h + sf % max 1 (s.get F.MAC_HOP_LEN)
  if !s.bit F.RFS_HEAD_CFG_ENABLE (rhO h) then s
  else
    let s := s.scriptRun h i
    if s.scriptBad i then s.headFails h true else s

/-- SLOT_TAIL (R262, R263, R267, R274): in the last 0.5 ms of slot `slot` nothing is sent or heard; the outcomes are recorded, the leases released,
and the heads set up for the next slot. -/
def execSlotTail (slot : Nat) (s : State) : Out := s.answer <|
  match s.mac.slot with
  | none => .next s
  | some (j, st) =>
    let ready := (j == 0 && s.mac.phase == 0) || s.mac.phase == 2
    if !ready || slot != j || s.tick + halfMs < st + s.slotLen then .next s
    else
      let s := (List.range 4).foldl (fun (s : State) h => s.airEnd h (st + s.slotLen - halfMs)) s
      let s := s.onMac (fun m => { m with air := [] })
      let ps := s.mac.pairs
      let s := ps.foldl (fun (s : State) p => (s.pairOutcome p st).pairShow p j) s
      let held := fun (s : State) (k : Nat) => s.accWait.any (fun w => w.session == k)
        || (s.mac.leasedFor.isSome && s.mac.nextPairs.any (fun p => p.session == k))
      let s := ps.foldl (fun (s : State) p => if held s p.session then s else s.macRelease p.session) s
      let s := (List.range 4).foldl (fun (s : State) h =>
        if s.headUp h then (s.headListens h false).headListens h true else s) s
      let s := s.parentMissed j
      let s := s.onMac (fun m => { m with pairs := [], headFail := [], phase := 3 })
      let n := (j + 1) % 64
      let sf := if n = 0 then s.sfn + 1 else s.sfn
      let s := if n = 0 then (List.range 4).foldl (fun (s : State) h => s.tuneScript h sf) s else s
      .next (s.gainsSet n sf).serve

/-- RH_SCRIPT_LATE (R262): a script of head `h` has missed its deadline; `rx` says which direction fails. -/
def execRhScriptLate (head : Fin 4) (rx : Bool) (s : State) : Out := s.answer <|
  if s.bit F.RFS_HEAD_CFG_ENABLE (rhO head.val) then .next (s.headFails head.val rx) else .next s

/-! ### Pairs, associations and commands that end -/

/-- PAIR_RELEASE (R278): the eighth superframe of the hold has passed; the pair is released. -/
def execPairRelease (sess : BitVec 16) (s : State) : Out := s.answer <|
  let k := sess.toNat
  match s.mac.holds.find? (fun x => x.1 == k) with
  | none => .next s
  | some (_, sf) =>
    let l := s.leaseTry k 3
    if s.mac.sfs < sf + 9 || !l.2 then .next s
    else .next (((l.1.pairFree k 3).raise Ev.PAIR_RELEASED k).macRelease k).serve

/-- RADIO_ASSIGN_EXPIRE (R282, R302): the tries of an association have passed without its ACK: a slot opened for it is freed, a
reassignment returns to the old pair. -/
def execRadioAssignExpire (sess : BitVec 16) (s : State) : Out := s.answer <|
  let k := sess.toNat
  match s.rassoc k with
  | none => .next s
  | some a =>
    let n := s.get F.PLN_ASSOC_ASSIGN_TRIES
    let past := if a.mesh then decide (n ≤ a.sent) && decide (a.lastSf + s.get F.MSH_TIMING_RESEND_SF ≤ s.mac.sfs)
      else decide (n ≤ a.active)
    let l := s.leaseTry k 3
    if a.ho.isSome || !past || !l.2 then .next s
    else
      let s := l.1.onMac (fun m => { m with
        assocs := m.assocs.filter (fun x => x.session != k), downQ := m.downQ.filter (fun d => !(d.session == k && d.rank == 0)) })
      let s := if a.opened then s.slotFree k 3
        else if a.again then match l.1.roldPair k with
          | some (sl, ch, f) => (s.setPair k sl ch (s.rper k) f 3).ctxPut k 0x0E8 2 0 3
          | none => s
        else s.pairFree k 3
      .next (s.macRelease k).serve

/-- RADIO_CMD_FAILED (R273): the tries of a command have passed without a matching CMD_RESPONSE. -/
def execRadioCmdFailed (sess : BitVec 16) (s : State) : Out := s.answer <|
  let k := sess.toNat
  let l := s.leaseTry k 3
  if !s.mac.cmdOut.contains k || s.ctxNum k 0x0D6 2 < s.get F.MAC_ASSOC_CMD_TRIES || !l.2 then .next s
  else
    let s := (l.1.onMac (fun m => { m with cmdOut := m.cmdOut.filter (· != k) })).raise Ev.RADIO_CMD_FAILED k
    .next ((s.cmdFail k 3).macRelease k).serve

/-! ### The parent -/

/-- PARENT_BEACON (R283, R284): a parent's beacon is taken up: the next boundary moves towards its grid by at most `SLEW`. -/
def execParentBeacon (s : State) : Out := s.answer <|
  match s.mac.parentRx, s.mac.next with
  | some (tb, payload), some nx =>
    if !s.bit F.MAC_CTRL_SUBORD || s.get F.MAC_STATUS_MODE == 1 then .next (s.onMac (fun m => { m with parentRx := none }))
    else
      let r := s.mac.parentHead
      let m := s.chanMode r 0
      let g : Int := 3840 * (payload.getD 6 0).toNat
      let b : Int := (tb : Int) - m.ticks false (s.syncLen r) - m.ticks false (s.preBits r) - symTicks false m.rate / 2 - g
      let lf : Int := max 1 s.sfLen
      let raw : Int := (b + s.get F.MAC_SUB_OFFSET_SLOTS * s.slotLen - nx) % lf
      let err := if lf < 2 * raw then raw - lf else raw
      let slew : Int := usTicks (s.get F.MAC_SUB_SLEW)
      let step := max (-slew) (min slew err)
      let lost := s.get F.MAC_STATUS_MODE == 3
      let s := (s.put F.MAC_STATUS_MODE 0 2).put F.MAC_STATUS_PARENT_MISS 0 0
      let s := s.onMac (fun x => { x with next := some ((nx : Int) + step).toNat, parentRx := none, heardParent := true })
      .next (s.raiseIf lost Ev.PARENT_FOUND (s.get F.MAC_SUB_PARENT_ID))
  | _, _ => .next s

/-- PARENT_LOST (R284): three consecutive parent beacons have been missed. -/
def execParentLost (s : State) : Out := s.answer <|
  if s.get F.MAC_STATUS_MODE == 2 && decide (3 ≤ s.get F.MAC_STATUS_PARENT_MISS) then
    let s := (s.put F.MAC_STATUS_MODE 0 3).onMac (fun m => { m with lostSf := s.mac.sfs })
    .next (s.raise Ev.PARENT_LOST (s.get F.MAC_SUB_PARENT_ID))
  else .next s

/-- The grid offset nearest to `own` that lies more than one slot from every observed slot 0 (R284); the later one in a tie.
`obs` are distances from the module's own slot 0. -/
def clearOffset (own : Nat) (obs : List Nat) : Nat :=
  let far := fun (d : Nat) => obs.all (fun o => decide (1 < (d + 64 - o % 64) % 64) && decide ((d + 64 - o % 64) % 64 < 63))
  let d := ((List.range 33).flatMap (fun k => [k, (64 - k) % 64])).find? far
  match d with
  | some d => (own + d) % 64
  | none => own

/-- The slots 0 of the observed beacons, in whole slots from the slot 0 of the grid that `OFFSET_SLOTS` gives (R266, R285). -/
def State.gridObs (s : State) : List Nat :=
  let ls := max 1 s.slotLen
  (s.mac.obs.filter (fun o => decide (s.mac.sfs ≤ o.sf + 64))).map (fun o =>
    (s.sfStart + (o.offset + 64 - s.get F.MAC_SUB_OFFSET_SLOTS % 64) * ls) % (64 * ls) / ls)

/-- COORD_INDEPENDENT (R284): 64 superframes in PARENT_LOST have passed.  Its boundaries lie on the grid of `OFFSET_SLOTS` (R266), or on
the clear grid it moves to at the next one. -/
def execCoordIndependent (s : State) : Out := s.answer <|
  if s.get F.MAC_STATUS_MODE == 3 && decide (s.mac.lostSf + 64 ≤ s.mac.sfs) then
    let obs := s.gridObs
    let near := obs.any (fun o => o % 64 ≤ 1 || o % 64 == 63)
    let here := s.get F.MAC_SUB_OFFSET_SLOTS
    let goal := if near then clearOffset here obs else here
    let s := (s.put F.MAC_STATUS_MODE 0 1).put F.MAC_STATUS_OFFSET 0 here
    let t := s.put F.MAC_STATUS_OFFSET 0 goal
    let s := s.onMac (fun m => { m with
      next := m.next.map t.gridFrom, moveTo := if near then some goal else none, parentRx := none })
    .next (s.raise Ev.COORD_INDEPENDENT (s.get F.MAC_SUB_PARENT_ID))
  else .next s

/-! ### The MAC registers -/

/-- The rules of R291. -/
def macRules (s : State) (cells : List (Nat × Word)) : Option (Nat × Nat) :=
  let v := s.after cells
  let f := fun (x : Fld) => x.afterOf v 0
  let g := f F.MAC_SF_CFG_GUARD
  let p2 := f F.MAC_SF_CFG_P2_MS
  let slot := f F.MAC_SF_CFG_SLOT_MS
  let on := (List.range 4).filter (fun h => F.RFS_HEAD_CFG_ENABLE.afterOf v (rhO h) == 1)
  let heads := (List.range 4).filter (fun h => (f F.MAC_CONT_BEACON_HEADS).testBit h)
  let first := f F.MAC_CONT_CONT_FIRST
  let count := f F.MAC_CONT_CONT_COUNT
  let off := f F.MAC_SUB_OFFSET_SLOTS
  let sub := s.bit F.MAC_CTRL_SUBORD
  let len := f F.MAC_HOP_LEN
  let listen := 64 - off
  let centre := fun h e => f F.MAC_RASTER_BASE_KHZ * 1000
    + 12500 * f F.MAC_RASTER_STEP * bitsOf (v (F.MAC_HOP_TBL.addr + 4 * e)) (8 * h + 7) (8 * h)
  let inBand := fun h e =>
    decide (f F.MAC_BAND_LOW_MHZ * 1000000 + 1600000 ≤ centre h e) && decide (centre h e + 1600000 ≤ f F.MAC_BAND_HIGH_MHZ * 1000000)
  let air := fun h n => s.airTicks (beaconRx h) (s.chanMode (beaconRx h) 0) n
  firstFail [
    (decide (2 * g + f F.MAC_SF_CFG_RTA < 10 * p2) && decide (10 * p2 + 5 < 10 * slot), 0x70, 0),
    (decide (1 ≤ first) && decide (first + count ≤ 64)
      && (!sub || (decide (1 ≤ off) && !(decide (first ≤ listen) && decide (listen < first + count)))), 0x71, 0),
    (on.all (fun h => (List.range len).all (fun e => inBand h e)), 0x72, 0),
    (heads.all (fun h => decide (3840 * g + air h 39 + halfMs ≤ 38400 * slot)
      && decide (air h (41 + len) + halfMs + 38400 * p2 ≤ 38400 * slot)), 0x73, 0),
    (on.all (fun h => (List.range len).all (fun e => s.scriptOk (64 * h + e)) && s.scriptOk (320 + h)
      && (F.RFS_HEAD_CFG_TX_EN.afterOf v (rhO h) == 0 || s.scriptOk (324 + h))
      && (List.range 16).all (fun k => !s.gainValid h k || s.scriptOk (256 + 16 * h + k))), 0x74, 0),
    (cells.all (fun c => shadowLegal c.1 c.2), 0x75, 0),
    (!s.commitPending 7, 0x76, 0),
    (on.all (fun h => (List.range 16).any (s.gainValid h))
      && heads.all (fun h => s.gainValid h (s.get F.MAC_RX_CONT_ENTRY)), 0x77, 0)]

/-- MAC_COMMIT (R291). -/
def execMacCommit (i : Iface) (w : Word) (s : State) : Out := s.answer <|
  let s := s.wlogNote i F.MAC_COMMIT.addr w
  if !F.MAC_COMMIT_GO.on w then .next s
  else
    let was := s.commitPending 7
    let s := s.commit i 7 [0] macRules
    .next (if !was && s.commitPending 7 then s.onMac (fun m => { m with commitAt := s.tick }) else s)

/-- MAC_COMMIT_APPLY (R291): at a superframe boundary at least one slot after the write, or while the superframe is stopped, the
MAC and head shadows apply. -/
def execMacCommitApply (s : State) : Out := s.answer <|
  match s.mac.next with
  | none => .next (if s.commitPending 7 then s.macApply else s)
  | some b => .next (if s.macDue b && decide (b ≤ s.tick) then s.macApply else s)

/-- An access of `MAC_SCRIPT_DATA` moves `MAC_SCRIPT_ADDR` on when `AUTO_INC` is 1 (R290). -/
def State.scriptNext (s : State) : State :=
  if s.bit F.MAC_SCRIPT_ADDR_AUTO_INC then s.put F.MAC_SCRIPT_ADDR_BYTE 0 (s.get F.MAC_SCRIPT_ADDR_BYTE + 4) else s

/-- MAC_SCRIPT_DATA_ACCESS (R262, R290): interface `i` writes a word of the script memory, or reads one. -/
def execMacScriptDataAccess (i : Iface) (wr : Option Word) (s : State) : Out := s.answer <|
  let a := s.get F.MAC_SCRIPT_ADDR_BYTE / 4 * 4
  match wr with
  | some w =>
    let s := s.wlogNote i F.MAC_SCRIPT_DATA.addr w
    .next (s.onMac (fun m => { m with scripts := vaultStore m.scripts a (le w.toNat 4) })).scriptNext
  | none =>
    let w := BitVec.ofNat 32 (ofLe ((List.range 4).map (fun j => tget (fun _ => (0 : Byte)) s.mac.scripts (a + j))))
    .next { s with reply := tset (fun _ => 0) s.reply i.id w }.scriptNext

/-- A write of `MAC_CTRL` (R266, R283): `RUN` starts or stops the superframe, `SUBORD` starts or ends the alignment. -/
def State.macCtrlWrite (s : State) (i : Iface) (w : Word) : State :=
  let s := s.wlogNote i F.MAC_CTRL.addr w
  let sub := s.bit F.MAC_CTRL_SUBORD
  let s := s.fieldWrite F.MAC_CTRL.addr w
  let s := if s.bit F.MAC_CTRL_RUN then s.macStart else s.macStop
  let running := s.mac.next.isSome
  if s.bit F.MAC_CTRL_SUBORD && F.MAC_CTRL_SUBORD.on w && running then
    if sub && s.get F.MAC_STATUS_MODE != 1 then s
    else (s.put F.MAC_STATUS_MODE 0 2).put F.MAC_STATUS_PARENT_MISS 0 0
  else if sub && running && !s.bit F.MAC_CTRL_SUBORD then
    -- an independent module's boundaries lie on its grid again
    let s := s.put F.MAC_STATUS_MODE 0 1
    s.onMac (fun m => { m with parentRx := none, next := m.next.map (fun b => s.gridFrom b) })
  else s

/-- MAC_CTRL_RUN (R266). -/
def execMacCtrlRun (i : Iface) (w : Word) (s : State) : Out := s.answer <| .next (s.macCtrlWrite i w)

/-- MAC_CTRL_SUBORD (R283). -/
def execMacCtrlSubord (i : Iface) (w : Word) (s : State) : Out := s.answer <|
  if F.MAC_CTRL_SUBORD.on w then .next (s.macCtrlWrite i w) else .next s

end Sys2Proof.Machine
end

