-- ==== Sys2Proof/Machine/Mesh.lean ====
section
/-! DEFINITION. Mesh relaying's own commands (R293 to R314): ageing, resends, and the MSH registers. -/
namespace Sys2Proof.Machine
open Sys2Proof

/-- ROUTE_AGE_OUT (R298): entries whose age has reached `ROUTE_MAX_AGE` become free. -/
def execRouteAgeOut (s : State) : Out := s.answer <|
  .next ((s.mac.routes.filter (fun e => !s.routeValid e)).foldl (fun (s : State) e => s.routeDrop e) s)

/-- SEEN_EXPIRE (R304): keys of 60 s leave the seen cache. -/
def execSeenExpire (s : State) : Out := s.answer <|
  .next (s.onMac (fun m => { m with seen := m.seen.filter (fun e => decide (s.tick < e.at_ + sTicks 60)) }))

/-- A relayed association's ASSIGN is sent again, as a further try (R302). -/
def State.assignResend (s : State) (k : Nat) : State :=
  match s.rassoc k with
  | some a =>
    let due := a.mesh && decide (1 ≤ a.sent) && decide (a.sent < s.get F.PLN_ASSOC_ASSIGN_TRIES)
      && decide (a.lastSf + s.get F.MSH_TIMING_RESEND_SF ≤ s.mac.sfs) && !s.mac.downQ.any (fun d => d.session == k && d.rank == 0)
    if due then s.assignQueue a else s
  | none => s

/-- MESH_RESEND (R301, R302): a command or REKEY that drew no answer is sent again, as FLOOD with the repair flag set when it was
source-routed; after `CMD_TRIES` sends it fails.  It waits for the other role of a core that carries two (R25). -/
def execMeshResend (sess : BitVec 16) (s : State) : Out := s.answer <|
  let k := sess.toNat
  let s := s.assignResend k
  match s.mac.sends.find? (fun m => m.session == k) with
  | none => .next s
  | some m =>
    let l := s.leaseTry k 3
    if s.mac.sfs < m.lastSf + s.get F.MSH_TIMING_RESEND_SF || !l.2 || s.roleWaits 3 then .next s
    else if m.sends < s.get F.MAC_ASSOC_CMD_TRIES then
      let s := if m.source then l.1.ctxPut k 0x201 1 (l.1.ctxNum k 0x201 1 / 4 * 4 + 1) 3 else l.1
      .next ((s.meshSendOne m m.source).macRelease k).serve
    else
      let s := (l.1.onMac (fun x => { x with sends := x.sends.filter (fun y => y.session != k) })).raise Ev.RADIO_CMD_FAILED k
      .next ((if m.ftype = 2 then s.cmdFail k 3 else s.rekeySpent k 3).macRelease k).serve

/-- MSH_ROUTE_CLEAR_ONE (R311): the entry of `DEST` is freed. -/
def execMshRouteClearOne (i : Iface) (w : Word) (s : State) : Out := s.answer <|
  if !F.MSH_ROUTE_CMD_CLEAR_ONE.on w then .next s
  else
    let s := s.wlogNote i F.MSH_ROUTE_CMD.addr w
    .next (s.routeForget (F.MSH_ROUTE_CMD_DEST.of w))

/-- MSH_ROUTE_CLEAR_ALL (R311): every entry is freed. -/
def execMshRouteClearAll (i : Iface) (w : Word) (s : State) : Out := s.answer <|
  if !F.MSH_ROUTE_CMD_CLEAR_ALL.on w then .next s
  else
    let s := s.wlogNote i F.MSH_ROUTE_CMD.addr w
    .next (s.mac.routes.foldl (fun (s : State) e => s.routeDrop e) s)

/-- The rules of R313. -/
def mshRules (s : State) (cells : List (Nat × Word)) : Option (Nat × Nat) :=
  let v := s.after cells
  let heads := F.MSH_CFG_ASSIST_HEADS.afterOf v 0
  firstFail [
    (cells.all (fun c => shadowLegal c.1 c.2), 0x80, 0),
    ((List.range 4).any (fun h => heads.testBit h && (F.MAC_CONT_BEACON_HEADS.afterOf v 0).testBit h), 0x81, 0),
    (!s.commitPending 8, 0x82, 0)]

/-- MSH_COMMIT (R313). -/
def execMshCommit (i : Iface) (w : Word) (s : State) : Out := s.answer <|
  let s := s.wlogNote i F.MSH_COMMIT.addr w
  .next (if F.MSH_COMMIT_GO.on w then s.commit i 8 [0] mshRules else s)

/-- MSH_COMMIT_APPLY (R313): at the next superframe boundary, or while the superframe is stopped. -/
def execMshCommitApply (s : State) : Out := s.answer <|
  match s.mac.next with
  | none => .next (s.applyInst 8 0)
  | some b => .next (if b ≤ s.tick then s.applyInst 8 0 else s)

end Sys2Proof.Machine
end

