-- ==== Sys2Proof/Machine/SpliceOps.lean ====
section
/-! DEFINITION. What Splice's commands share: the acceptance of a frame (R367), claims (R373), becoming
OWNER (R374), the bulk transfer (R378), the images of the mirror, and the switchover (R375). -/
namespace Sys2Proof.Machine
open Sys2Proof

/-! ### Acceptance of a frame (R367) -/

/-- The state with what Splice holds beside its registers changed by `f`. -/
def State.onSpl (s : State) (f : SplS → SplS) : State := { s with spl := f s.spl }

/-- A frame arrives on link `l`, which is UP, with a sequence number above the last accepted one: it is accepted (R367).  Otherwise it
is discarded, and nothing else is done with it; so it is while the engine does not compute (R332, R334; DESIGN CHOICE, log entry 135). -/
def State.linkTake (s : State) (l seq : Nat) : Option State :=
  let fresh : Bool := match (s.link l).rxSeq with | none => true | some q => decide (q < seq)
  if s.linkSt l = 2 ∧ fresh ∧ s.engineUp then
    let s := s.onLink l (fun x => { x with rxSeq := some seq, lastRx := s.tick })
    some (if l = 0 then s.onSpl (fun x => { x with rxSeq := seq, heardAt := s.tick }) else s)
  else none

/-! ### The pair (R370 to R373) -/

/-- `OWN_IN` is high. -/
def State.ownIn (s : State) : Bool := s.bit F.SPL_STATUS_OWN_IN && s.bit F.GLB_GPIO_FUNC_OWN_IN_EN

/-- The partner's serial as `SPL_PARTNER` shows it; 0: none known. -/
def State.partner (s : State) : Nat := s.get F.SPL_PARTNER_LO_SERIAL + 2 ^ 32 * s.get F.SPL_PARTNER_HI_SERIAL

/-- A claim begins: `OWN_OUT` is driven high (R373). -/
def State.claim (s : State) : State :=
  let was := if s.role = 1 then s.spl.was else s.role
  let s := s.onSpl (fun x => { x with claimAt := some s.tick, split := false, was := was, retryAt := none, start := none })
  (s.put F.SPL_STATUS_ROLE 0 1).driveOwnOut true

/-- The module withdraws from a claim; it waits 5 ms to 36 ms before it may claim again, a fresh draw each time (R373). -/
def State.withdraw (s : State) : State :=
  let r := s.draw 5
  let s := r.2.onSpl (fun x => { x with claimAt := none, split := false, retryAt := some (s.tick + msTicks (5 + r.1.toNat)) })
  (s.put F.SPL_STATUS_ROLE 0 s.spl.was).driveOwnOut false

/-- The module claims first of the two: by `OWN_TERM`, then by serial (R373). -/
def State.claimsFirst (s : State) : Bool :=
  let mine := s.get F.SPL_OWN_TERM_TERM
  decide (s.spl.term < mine) || (mine == s.spl.term && decide (s.partner < s.serialNum))

/-- A standby or isolated module may take over (R373). -/
def State.takesOver (s : State) : Bool :=
  (s.role == 4 || s.role == 5) && s.splFlags.testBit 2 && decide (s.spl.heardAt + msTicks 8 ≤ s.tick) && !s.ownIn
    && s.bit F.SPL_CTRL_TAKEOVER_EN && s.bit F.SPL_CTRL_EN

/-! ### Images of the mirror -/

/-- A CTX message for session `k` (R376): its image, or, for a slot without an accessible context, an empty one that shows the slot
state (DESIGN CHOICE, log entry 42). -/
def State.ctxMsg (s : State) (k : Nat) : List Byte :=
  le k 2 ++ (if s.hasCtx k then s.sealedImage k else padTo 2048 (le (s.slot k).st 1))

/-- Bytes of session `k`'s context change where it lies: in the cache, or in the home copy, sealed again with `jseq`. -/
def State.imageEdit (s : State) (k jseq : Nat) (ps : List (Nat × List Byte)) : State :=
  if s.cached k then ps.foldl (fun (s : State) p => s.ctxStore k p.1 p.2) s
  else
    let img := ps.foldl (fun l p => patch l p.1 p.2) (s.homeImage k)
    (s.homePut k (sealImage img jseq)).slotOfImage k img

/-- An image becomes session `k`'s context: in its home copy, or, where no store is in use, in a cache entry.  The flag says that there
was a place for it.  Slot 0x0000 keeps the module's own context (R215). -/
def State.imagePut (s : State) (k : Nat) (img : List Byte) : State × Bool :=
  let st := imageState img
  let gone := fun (s : State) => { s with
    cache := s.cache.filter (fun e => e.session != k), ctx := tsplice (2048 * k) (2048 * k + 2048) [] s.ctx }
  if k = 0 then (s, false)
  else if st = 0 ∨ st = 3 then
    (((gone s).homeDrop k).onSlot k (fun x => { x with st := st, newest := none }), true)
  else if s.storeOpen && !s.cacheOnly then
    (((gone s).homePut k img).slotOfImage k img, true)
  else
    let a := s.allocEntry k
    if a.2 then ((a.1.loadImage k img true).slotOfImage k img, true) else (a.1, false)

/-- The standby holds session `k`'s image, or holds it no more. -/
def State.gotSet (s : State) (k : Nat) (on : Bool) : State :=
  s.onSpl (fun x => { x with got := if on then (if x.got.contains k then x.got else x.got ++ [k]) else x.got.filter (· != k) })

/-! ### The bulk transfer (R378) -/

/-- A bulk transfer begins: every session's Vault entry, the route table and the plan; the images follow. -/
def State.bulkStart (s : State) : State :=
  let s := (s.put F.SPL_SYNC_STAT_CONTEXTS 0 0).putB F.SPL_SYNC_STAT_VAULT_DONE 0 false
  let s := { s with splOut := s.splOut.filter (fun m => m.kind == 0x10 || m.kind == 0x16 || decide (m.kind < 0x10)) }
  let s := (List.range 65536).foldl (fun (s : State) k => s.splVault k) s
  let s := s.onSpl (fun x => { x with bulkTo := some (s.splSeq - 1, 0) })
  let s := s.mac.routes.foldl (fun (s : State) e => s.splSend 0x14 (s.routeBytes e)) s
  let s := s.rounds.foldl (fun (s : State) r =>
    s.splSend 0x13 (planBody r.cord r ((s.exchs.filter (fun e => e.round == r.num)).map (·.session)))) s
  { s with bulk := some 0 }

/-- Session `k` may be read for the mirror: it has no context, or Splice has its lease. -/
def State.mirrorLease (s : State) (k : Nat) : State × Bool :=
  if k = 0 ∨ !s.hasCtx k then (s, true)
  else
    let l := s.leaseTry k 6
    if l.2 then l
    else if s.leaseQ.any (fun q => q.session == k && q.holder == 6) then (s, false)
    else
      let s := s.leaseAsk k 6
      (s, s.leasedBy k 6)

/-- Up to `n` more images of a bulk transfer (R378), as far as their contexts can be leased. -/
def State.bulkImages (s : State) : Nat → State
  | 0 => s
  | n + 1 =>
    match s.bulk with
    | none => s
    | some k =>
      if 65536 ≤ k then s
      else
        let l := s.mirrorLease k
        if !l.2 then l.1
        else
          let s := l.1.splSend 0x15 (l.1.ctxMsg k)
          let s := if s.leasedBy k 6 then s.leaseEnd k else s
          let s := { s with bulk := some (k + 1) }.put F.SPL_SYNC_STAT_CONTEXTS 0 (k + 1)
          let s := if k = 65535 then s.onSpl (fun x => { x with bulkTo := x.bulkTo.map (fun b => (b.1, s.splSeq - 1)) }) else s
          s.bulkImages n

/-- The contexts that the partner asked for go out, each under a lease, as far as these are granted (R381); one that this module does not
hold is not answered. -/
def State.oweSend (s : State) : List Nat → State
  | [] => s
  | k :: t =>
    let done := fun (s : State) => s.onSpl (fun x => { x with owe := x.owe.filter (· != k) })
    if !s.hasCtx k || (s.standsBy && !s.spl.got.contains k) then (done s).oweSend t
    else
      let l := s.mirrorLease k
      if !l.2 then l.1.oweSend t
      else
        let s := done (l.1.splSend 0x15 (l.1.ctxMsg k))
        (if s.leasedBy k 6 then s.leaseEnd k else s).oweSend t

/-- The partner's acknowledgement up to `n` moves the bulk transfer on (R377, R378). -/
def State.bulkAcked (s : State) (n : Nat) : State :=
  match s.spl.bulkTo with
  | none => s
  | some (q, z) =>
    let s := if n < q ∨ s.bit F.SPL_SYNC_STAT_VAULT_DONE then s
      else ((s.putB F.SPL_SYNC_STAT_VAULT_DONE 0 true).putB F.SPL_STATUS_PAIRED 0 true).setSplFlag 1 true
    if z ≠ 0 ∧ z ≤ n then { s with bulk := none, spl := { s.spl with bulkTo := none } } else s

/-! ### Becoming OWNER (R374) -/

/-- The counters of a session whose Vault values came from the mirror (R345, R374): `REKEY_SENT` counts one more, and after a
takeover the block beyond the mirrored ceiling is taken; the change is journalled (R235). -/
def State.ownSession (s : State) (takeover : Bool) (k : Nat) : State :=
  let ks := 0x080000 + 8 * k
  if !(s.vaultSoonNum (ks + 6) 1).testBit 0 then s
  else
    let epoch := s.vaultSoonNum ks 2
    let prov := s.vaultSoonNum (ks + 2) 2
    let n := s.rekeySent k
    let b := s.ctxNum k 0x180 1
    let tx := min (s.txcSoon k + 4096) 0xFFFFFFFF
    let rxm := s.vaultSoonNum (8 * k + 4) 4
    let ctr : List (Nat × List Byte) := if takeover then
        [(8, le tx 4), (16, le (max (s.ctxNum k 0x190 4) (rxm - 4096)) 4), (12, le (s.txcSoon k) 4), (20, le rxm 4), (28, le rxm 4)]
      else [(8, le tx 4)]
    let st := if n = 4095 then 5 else b % 8
    let flag := if takeover then 8 else b / 8 % 2 * 8
    let ps : List (Nat × List Byte) := ctr ++ [(0, le (b / 16 * 16 + flag + st) 1), (6, le (min 4095 (n + 1)) 2)]
    let area := ps.foldl (fun l p => patch l p.1 p.2) (s.ctxBytes k 0x180 32)
    let s := s.ctxOwn k 0x180 area
    let s := s.vaultWrite ks (keyStateBytes epoch prov (min 4095 (n + 1)) (if takeover then 0 else 1)) (.keyState k)
    s.raiseIf (n == 4095) Ev.REPROVISION_NEEDED k

/-- Sessions that the mirror did not bring over: a slot in use without its image, or a FREE slot whose Vault entry has been used
(R374). -/
def State.notMirrored (s : State) : List Nat :=
  (List.range 65534).filter (fun k => k != 0 && !s.spl.got.contains k && ((s.slot k).st != 0 || s.vaultSoonNum (8 * k) 4 != 0))

/-- A member of a mirrored round in flight ends LOST and is retried (R210, R374). -/
def State.mirLost (s : State) (m : MirPlan) : State :=
  let c := s.cordOf m.session
  let h := plannerOf c
  let e : Exch := ⟨m.session, c, m.ports, 0, m.cls, m.attempt, m.request, 0, ⟨0, 0, 0⟩, false, 0, 0, 0, 0, 0, false, s.tick, false, [],
    ⟨0, 0, 0⟩, 0, [], 0, false, []⟩
  let l := s.leaseTry m.session h
  let s := l.1.exchRetry e false h
  if l.2 then s.leaseLater m.session else s

/-- The mirrored plan is loaded: what was in flight is retried (R374). -/
def State.mirTake (s : State) : State :=
  let ms := s.mirPlans
  ms.foldl (fun (s : State) m => s.mirLost m) { s with mirPlans := [] }

/-- The superframe starts at the first boundary of the mirrored grid that is at least 2 ms away (R374). -/
def State.gridTake (s : State) : State :=
  match s.spl.grid, s.mac.next with
  | some (b, n), some _ =>
    let lf := max 1 s.sfLen
    let t := s.tick + msTicks 2
    let j := if t ≤ b then 0 else (t - b + lf - 1) / lf
    (s.put F.MAC_SFN_SFN 0 (n + j + 0xFFFF)).onMac (fun m => { m with next := some (b + j * lf), fresh := false })
  | _, _ => s

/-- The module becomes OWNER (R374). -/
def State.becomeOwner (s : State) : State :=
  let was := s.spl.was
  let takes := decide (was = 3 ∨ was = 4 ∨ was = 5)
  let term := (max (s.get F.SPL_OWN_TERM_TERM) s.spl.term + 1) % 2 ^ 32
  let s := (s.put F.SPL_OWN_TERM_TERM 0 term).vaultWrite 0x100108 (le term 4) .ownTerm
  let s := (s.setSplFlag 0 true).setSplFlag 2 false
  let s := (s.raise Ev.SPLICE_TAKEOVER 0).incSat F.SPL_CNT_A_TAKEOVERS
  let s := s.onSpl (fun x => { x with claimAt := none, split := false, retryAt := none, start := none, switchTo := false, bulkTo := none })
  let s := s.put F.SPL_STATUS_ROLE 0 2
  let s := s.ownGain
  let s := if takes then s.gridTake else s
  let lost := if takes then s.notMirrored else []
  let s := lost.foldl (fun (s : State) k => s.park k) s
  let s := ((s.slots.filter (fun e => (e.2.st == 1 || e.2.st == 2) && e.1 != 0)).map (·.1)).foldl
    (fun (s : State) k => s.ownSession takes k) s
  let s := s.mirTake
  let s := if lost.isEmpty || s.cacheOnly then s else s.headendRestore lost
  let s := s.onSpl (fun x => { x with got := [] })
  (if s.get F.SPL_STATUS_LINK = 2 ∧ s.spl.peerRole ≠ 4 then s.bulkStart else s).serve

/-! ### The link comes up and goes down -/

/-- The Splice link has reached UP (R373, R378): the start-up claim is decided, an owner starts the bulk transfer, which brings every Vault
entry again, and an isolated module whose partner owns synchronises. -/
def State.splUp (s : State) (term peer : Nat) : State :=
  let s := s.onSpl (fun x => { x with term := term, peerRole := peer, heardAt := s.tick, rxSeq := 0, bulkTo := none, txTo := 0 })
  let s := { s with splOut := s.splOut.filter (fun m => decide (m.kind < 0x10)), splSeq := 1 }
  match s.role with
  | 1 =>
    if s.spl.start.isSome then
      if s.claimsFirst then s.claim else (s.onSpl (fun x => { x with start := none })).put F.SPL_STATUS_ROLE 0 3
    else s
  | 2 => s.bulkStart
  | 5 => if peer = 2 then s.put F.SPL_STATUS_ROLE 0 3 else s
  | _ => s

/-- The Splice link has left UP (R377, R397, R402): leases of holder 6 are revoked, the transfer and the audit step are given up, and
only VAULT messages of a member stay unacknowledged.  What was asked of the partner is asked of the head-end. -/
def State.splDown (s : State) : State :=
  let s := s.raise Ev.SPL_LINK_DOWN 0
  let s := s.raiseIf (decide (2 ≤ s.role)) Ev.SPL_ISOLATED 0
  let s := if 3 ≤ s.role then s.put F.SPL_STATUS_ROLE 0 5 else s
  let s := s.chkLinkDown (fun stream _ => stream == 7 || stream == 8)
  let held : List Nat := (s.leases.filter (fun l => l.holder == 6)).map (·.session)
  let s := { s with leaseQ := s.leaseQ.filter (fun q => q.holder != 6) }
  let s := held.foldl (fun (s : State) k => s.revoke k) s
  let keep := s.bit F.SPL_STATUS_PAIRED
  let s := { s with bulk := none, splOut := s.splOut.filter (fun m => keep && m.kind == 0x12) }
  let want := s.spl.want
  let refused := s.spl.switchTo && s.role == 2
  let s := s.onSpl (fun x => { x with audit := none, want := [], switchTo := false, bulkTo := none, owe := [] })
  let s := if refused then s.putB F.SPL_STATUS_CMD_REFUSED 0 true else s
  let s := if want.isEmpty then s
    else if s.cacheOnly then want.foldl (fun (s : State) k => s.ctxLost k) s
    else (s.put F.SES_STATUS_RESTORE_SRC 0 3).headendRestore want
  s.serve

/-! ### The switchover (R375) -/

/-- A message of the mirror waits for its acknowledgement (R376). -/
def State.mirrorOwed (s : State) : Bool := s.splOut.any (fun m => decide (0x11 ≤ m.kind) && decide (m.kind ≤ 0x15))

/-- A switchover whose rounds have ended and whose mirror is acknowledged is carried out: SWITCH is sent, and the module is STANDBY. -/
def State.switchGo (s : State) : State :=
  if !s.spl.switchTo ∨ s.role ≠ 2 then s
  else if !s.switchCan then (s.onSpl (fun x => { x with switchTo := false })).putB F.SPL_STATUS_CMD_REFUSED 0 true
  else if !s.rounds.isEmpty || !s.sweeps.isEmpty || s.mirrorOwed || !s.jq.isEmpty then s
  else
    let s := (s.splSend 0x18 []).ownLose.driveOwnOut false
    let s := (s.put F.SPL_STATUS_ROLE 0 4).setSplFlag 2 true
    s.onSpl (fun x => { x with
      switchTo := false, got := (s.slots.filter (fun e => e.2.st == 1 || e.2.st == 2)).map (·.1), bulkTo := none })

end Sys2Proof.Machine
end

