-- ==== Sys2Proof/Machine/BraidOps.lean ====
section
/-! DEFINITION. What the Braid commands share: the handling of a received message (R385), WALK and TOPOLOGY (R386, R387), TIME (R388),
handovers (R389, R390), the coming and going of a ring port, and the Bight's counts (R395).  Where the spec gives a message a content
but no layout, the layout is the model's (DESIGN CHOICE, log entry 45). -/
namespace Sys2Proof.Machine
open Sys2Proof

/-- The state with what Braid holds beside its registers changed by `f`. -/
def State.onBrd (s : State) (f : BrdS → BrdS) : State := { s with brd := f s.brd }

/-- The id of a node that is alone in the ring, or not in one (R382). -/
def State.aloneId (s : State) : Nat :=
  if s.bit F.BRD_CFG_FIXED_EN then s.get F.BRD_CFG_FIXED_ID
  else
    let v := s.vaultSoonNum 0x100118 2
    if v.testBit 8 then v % 64 else 0

/-! ### A received message (R385) -/

/-- Flags of a forwarded message. -/
def brdFlags (h : BHdr) (wrapped : Bool) : Nat := (if h.bcast then 1 else 0) + (if wrapped || h.wrapped then 2 else 0)

/-- A message received on a port goes on: the other port, or back where that one cannot take it (R385). -/
def State.brdForward (s : State) (h : BHdr) (kind : Nat) (content : List Byte) : State :=
  let n := h.hops.toNat - 1
  if n = 0 then s
  else
    let p := h.port.val
    let wrap := !s.brdTakes (1 - p) kind
    let q := if wrap then p else 1 - p
    s.brdQueue q (brdHdr kind (brdFlags h wrap) h.dst.toNat h.src.toNat n h.bseq.toNat ++ content)

/-- A broadcast of a source is among the last 16 received from it. -/
def State.brdSeenHas (s : State) (src seq : Nat) : Bool := s.brdSeen.contains (src, seq)

/-- A broadcast is remembered among the last 16 of its source. -/
def State.brdSeenAdd (s : State) (src seq : Nat) : State :=
  { s with brdSeen := (src, seq) :: (s.brdSeen.filter (fun e => e.1 == src)).take 15 ++ s.brdSeen.filter (fun e => e.1 != src) }

/-- A frame with a Braid message arrives; the check units see it when it is accepted (R352, R367). -/
def State.brdTake (s : State) (h : BHdr) (kind : Nat) (content : List Byte) : Option State :=
  (s.linkTake (1 + h.port.val) h.seq).map (fun (s : State) =>
    s.snoop 9 h.port.val (brdHdr kind (brdFlags h false) h.dst.toNat h.src.toNat h.hops.toNat h.bseq.toNat ++ content))

/-- A unicast or broadcast is received (R367, R385): nothing where the link discards it, else the state after forwarding, and whether
the message is delivered here. -/
def State.brdIn (s : State) (h : BHdr) (kind : Nat) (content : List Byte) : Option (State × Bool) :=
  match s.brdTake h kind content with
  | none => none
  | some s =>
    if h.src.toNat = s.nodeId then some (s, false)
    else if h.bcast then
      if s.brdSeenHas h.src.toNat h.bseq.toNat then some (s, false)
      else some ((s.brdSeenAdd h.src.toNat h.bseq.toNat).brdForward h kind content, true)
    else if h.dst.toNat = s.nodeId then some (s, true)
    else some (s.brdForward h kind content, false)

/-! ### Commits of the BRD shadows (R401) -/

/-- Part `k` of a pending BRD commit applies: 0 the versions, at a port's bring-up; 1 the fixed id, at a WALK. -/
def State.brdApply (s : State) (k : Nat) : State :=
  let m := if k = 0 then bitsMask 3 0 else bitsMask 14 8
  let cells := (s.commits.filter (fun c => c.block == 12 && c.insts.contains k)).flatMap (·.cells)
  let s := cells.foldl (fun (s : State) c => s.setLive c.1 ((s.live c.1 &&& ~~~ m) ||| (c.2 &&& m))) s
  let strip := fun (c : Commit) => if c.block == 12 then { c with insts := c.insts.filter (· != k) } else c
  { s with commits := (s.commits.map strip).filter (fun c => !c.insts.isEmpty) }

/-! ### WALK (R386) -/

/-- The module's own entry of a WALK. -/
def State.walkEntry (s : State) : WalkE :=
  let v := s.vaultSoonNum 0x100118 2
  ⟨s.serialNum, if v.testBit 8 then some (v % 64) else none,
    if s.bit F.BRD_CFG_FIXED_EN then some (s.get F.BRD_CFG_FIXED_ID) else none,
    s.get F.BRD_PORT_STAT_VERSION (bpO 0), s.get F.BRD_PORT_STAT_VERSION (bpO 1),
    s.bit F.BRD_TIME_CFG_MASTER_EN, s.bit F.CLK_STATUS_PPS_LOCK⟩

/-- An entry as bytes. -/
def walkEntryBytes (e : WalkE) : List Byte :=
  let id := fun (x : Option Nat) => match x with | some n => n + 0x80 | none => 0
  le e.serial 8 ++ le (id e.pref) 1 ++ le (id e.fixed) 1 ++ le (e.verE + 4 * e.verW) 1
    ++ le ((if e.eligible then 1 else 0) + (if e.pps then 2 else 0)) 1

/-- A WALK's content: where it first wrapped, and the entries. -/
def walkBytes (entries : List WalkE) (split : Option Nat) : List Byte :=
  le (match split with | some n => n | none => 0) 1 ++ le entries.length 1 ++ entries.flatMap walkEntryBytes

/-- `RING` while no WALK is under way: 0 alone, 1 closed, 2 wrapped. -/
def State.ringShow (s : State) : State :=
  let n := s.get F.BRD_STATUS_NODES
  let open' := !s.brdUp 0 || !s.brdUp 1 || s.brd.broken.isSome
  s.put F.BRD_STATUS_RING 0 (if !s.brdUp 0 && !s.brdUp 1 then 0 else if n ≤ 1 then 0 else if open' then 2 else 1)

/-- No ring port is UP: the node is alone (R382). -/
def State.brdAlone (s : State) : State :=
  let s := ((s.put F.BRD_STATUS_NODE_ID 0 s.aloneId).putB F.BRD_STATUS_ID_VALID 0 false).put F.BRD_STATUS_RING 0 0
  let s := ((s.put F.BRD_STATUS_NODES 0 0).putB F.BRD_STATUS_KNOT 0 false).put F.BRD_STATUS_KNOT_ID 0 0
  let s := (List.range 64).foldl (fun (s : State) n =>
    (s.setLive (F.BRD_NODE_TBL_LO_POS.addr + 8 * n) 0).setLive (F.BRD_NODE_TBL_HI_SERIAL.addr + 8 * n) 0) s
  let s := s.put F.BRD_TIME_STAT_MASTER_ID 0 0 |>.putB F.BRD_TIME_STAT_IS_MASTER 0 false
  s.onBrd (fun b => { b with nodes := [], broken := none, walking := false, walkOwed := none })

/-- A node starts a WALK (R386): eastward, or westward when the east port is down; a pending fixed id applies. -/
def State.walkStart (s : State) : State :=
  let s := s.brdApply 1
  if !s.brdUp 0 && !s.brdUp 1 then s.brdAlone
  else
    let p := if s.brdUp 0 then 0 else 1
    let s := (s.put F.BRD_STATUS_RING 0 3).onBrd (fun b => { b with walking := true, walkOwed := none, walkAt := s.tick })
    s.brdQueue p (brdHdr 0x21 0 0 s.nodeId 127 0 ++ walkBytes [s.walkEntry] (if p = 0 then none else some 1))

/-! ### TOPOLOGY (R386, R387) -/

/-- The entry of lowest serial that a test lets through. -/
def lowestSerial (ok : WalkE → Bool) : List WalkE → Option WalkE
  | [] => none
  | e :: t => match lowestSerial ok t with
    | none => if ok e then some e else none
    | some x => if ok e && decide (e.serial < x.serial) then some e else some x

/-- Entries in ascending serial order. -/
def bySerial (l : List WalkE) : List WalkE :=
  l.foldl (fun (a : List WalkE) e => a.filter (fun x => decide (x.serial ≤ e.serial)) ++ [e] ++ a.filter (fun x => decide (e.serial < x.serial))) []

/-- One pass of R387 over wishes: in ascending serial order, where still free. -/
def idPass (wish : WalkE → Option Nat) (l : List WalkE) (taken : List (Nat × Nat)) : List (Nat × Nat) :=
  (bySerial l).foldl (fun (a : List (Nat × Nat)) e =>
    match wish e with
    | some n => if a.any (fun x => x.1 == e.serial || x.2 == n) then a else a ++ [(e.serial, n)]
    | none => a) taken

/-- The node ids that the knot master assigns, by serial (R387); `l` is in ring order eastward from it. -/
def assignIds (l : List WalkE) : List (Nat × Nat) :=
  let a := idPass (·.pref) l (idPass (·.fixed) l [])
  l.foldl (fun (a : List (Nat × Nat)) e =>
    if a.any (fun x => x.1 == e.serial) then a
    else match (List.range 64).find? (fun n => !a.any (fun x => x.2 == n)) with
      | some n => a ++ [(e.serial, n)]
      | none => a) a

/-- The time master (R388): PPS lock and the lowest serial, or, when none has lock, the lowest serial. -/
def chooseMaster (l : List WalkE) : Option Nat :=
  match lowestSerial (fun e => e.eligible && e.pps) l with
  | some e => some e.serial
  | none => (lowestSerial (·.eligible) l).map (·.serial)

/-- The nodes in ring order eastward from the originator of a complete WALK, and the position after which the ring is broken: what lies
beyond the first wrap was visited westward. -/
def ringOrder (entries : List WalkE) (split : Option Nat) : List WalkE × Option Nat :=
  match split with
  | none => (entries, none)
  | some n => (entries.take n ++ (entries.drop n).reverse, some (n - 1))

/-- Hops eastward from position `a` to position `b` in a ring of `n` with a break behind position `q`; 0 where they cross it. -/
def hopsEast (n a b : Nat) (q : Option Nat) : Nat :=
  let d := (b + n - a) % n
  match q with
  | some q => if (q + n - a) % n < d then 0 else d
  | none => d

/-- A TOPOLOGY is applied (R386 to R388): ids, table, knot master and time master; `NODE_ID_LAST` goes to the Vault. -/
def State.topoApply (s : State) (nodes : List NodeE) (broken : Option Nat) (knot : Nat) (master : Option Nat) : State :=
  let late := !s.brd.nodes.isEmpty && decide (s.brd.knotSerial < knot) && decide (s.tick < s.brd.topoAt + sTicks 1)
  match nodes.find? (fun e => e.serial == s.serialNum) with
  | none => s
  | some me =>
    if late then s
    else
      let n := nodes.length
      let s := s.onBrd (fun b => { b with nodes := nodes, broken := broken, knotSerial := knot, topoAt := s.tick, walking := false })
      let s := ((s.put F.BRD_STATUS_NODE_ID 0 me.id).putB F.BRD_STATUS_ID_VALID 0 true).put F.BRD_STATUS_NODES 0 n
      let s := s.vaultWrite 0x100118 (le (me.id + 0x100) 4)
      let s := (List.range 64).foldl (fun (s : State) k =>
        let o := 8 * k
        let s := (s.setLive (F.BRD_NODE_TBL_LO_POS.addr + o) 0).setLive (F.BRD_NODE_TBL_HI_SERIAL.addr + o) 0
        match nodes.find? (fun e => e.id == k) with
        | none => s
        | some e =>
          let s := (s.put F.BRD_NODE_TBL_LO_POS o e.pos).put F.BRD_NODE_TBL_LO_HOPS_E o (hopsEast n me.pos e.pos broken)
          let s := s.put F.BRD_NODE_TBL_LO_HOPS_W o (hopsEast n e.pos me.pos broken)
          (s.putB F.BRD_NODE_TBL_LO_VALID o true).put F.BRD_NODE_TBL_HI_SERIAL o e.serial) s
      let knotId := ((nodes.find? (fun e => e.serial == knot)).map (·.id)).getD 0
      let s := ((s.putB F.BRD_STATUS_KNOT 0 (knot == s.serialNum)).put F.BRD_STATUS_KNOT_ID 0 knotId).ringShow
      let s := s.raiseIf (s.bit F.BRD_CFG_FIXED_EN && s.get F.BRD_CFG_FIXED_ID != me.id) Ev.BRD_ID_CONFLICT me.id
      let s := s.raise Ev.BRD_TOPOLOGY 0
      let mid := match master with
        | some x => ((nodes.find? (fun e => e.serial == x)).map (·.id)).getD 0
        | none => 0
      let own := master == some s.serialNum
      let changed := s.get F.BRD_TIME_STAT_MASTER_ID != mid || s.bit F.BRD_TIME_STAT_IS_MASTER != own
      let s := (s.put F.BRD_TIME_STAT_MASTER_ID 0 mid).putB F.BRD_TIME_STAT_IS_MASTER 0 own
      (s.raiseIf changed Ev.TIME_MASTER_CHANGE mid).sourceShow

/-- A TOPOLOGY's content. -/
def topoBytes (nodes : List NodeE) (broken : Option Nat) (knot : Nat) (master : Option Nat) : List Byte :=
  le knot 8 ++ le (master.getD 0) 8 ++ le (match broken with | some q => q + 0x80 | none => 0) 1 ++ le nodes.length 1
    ++ nodes.flatMap (fun e => le e.serial 8 ++ le e.id 1 ++ le e.pos 1)

/-- The originator's WALK is complete (R386): the node of lowest serial is the knot master and sends TOPOLOGY. -/
def State.walkDone (s : State) (entries : List WalkE) (split : Option Nat) : State :=
  let s := s.onBrd (fun b => { b with walking := false })
  if entries.any (fun e => decide (e.serial < s.serialNum)) then s.ringShow
  else
    let r := ringOrder entries split
    let ids := assignIds r.1
    let nodes := (List.range r.1.length).map (fun j =>
      let e := r.1.getD j s.walkEntry
      (⟨e.serial, ((ids.find? (fun x => x.1 == e.serial)).map (·.2)).getD 0, j⟩ : NodeE))
    let broken := match r.2 with | some q => some q | none => none
    let master := chooseMaster r.1
    let s := s.put F.BRD_STATUS_NODES 0 nodes.length
    let s := s.brdCast 0x22 (topoBytes nodes broken s.serialNum master)
    s.topoApply nodes broken s.serialNum master

/-- A WALK is received (R386): complete at its originator once the whole ring is visited; elsewhere it is appended to and forwarded. -/
def State.walkTake (s : State) (h : BHdr) (entries : List WalkE) (split : Option Nat) : State :=
  match entries with
  | [] => s
  | first :: _ =>
    let p := h.port.val
    let mine := first.serial == s.serialNum
    if mine && (p == 1 || !s.brdUp 1) then s.walkDone entries split
    else
      let known := entries.any (fun e => e.serial == s.serialNum)
      let entries := if known then entries else entries ++ [s.walkEntry]
      let wrap := !s.brdUp (1 - p)
      let split := if wrap then (match split with | some n => some n | none => some entries.length) else split
      let s := s.brdForward h 0x21 (walkBytes entries split)
      if decide (s.serialNum < first.serial) && decide (s.brd.walkAt + msTicks 10 ≤ s.tick) && s.brd.walkOwed.isNone
      then s.onBrd (fun b => { b with walkOwed := some s.tick }) else s

/-! ### TIME (R388) -/

/-- `INTERVAL` in ticks. -/
def State.brdInterval (s : State) : Nat := msTicks (s.get F.BRD_TIME_CFG_INTERVAL)

/-- A TIME message's content: the master's time base, the correction, and the master's PPS lock. -/
def timeBytes (value : Nat) (corr : Int) (pps : Bool) : List Byte := le value 8 ++ le (toSigned 64 corr) 8 ++ le (if pps then 1 else 0) 1

/-- The copy of a TIME message that arrives on port `p` is the one used (R388): of fewer hops in the present topology, the east one on a
tie; any copy when none was used for two intervals. -/
def State.timeUses (s : State) (p : Nat) (wrapped : Bool) : Bool :=
  let m := s.get F.BRD_TIME_STAT_MASTER_ID
  let e := s.brdHops 0 m
  let w := s.brdHops 1 m
  let best := if e != 0 && (w == 0 || decide (e ≤ w)) then 0 else 1
  (p == best && !wrapped) || decide (s.brd.timeAt + 2 * s.brdInterval ≤ s.tick)

/-- The offset from a TIME message is stored and gives a discipline sample (R388, R458, R459). -/
def State.timeUse (s : State) (ofs : Int) (hops : Nat) (pps : Bool) : State :=
  let s := ((s.putI F.BRD_TIME_OFS_OFFSET 0 ofs).putB F.BRD_TIME_STAT_VALID 0 true).put F.BRD_TIME_STAT_HOPS 0 hops
  let s := (s.putB F.BRD_TIME_STAT_MASTER_PPS 0 pps).onBrd (fun b => { b with timeAt := s.tick, timeHops := hops })
  let old := s.get F.CLK_STATUS_SOURCE
  let s := s.sourceShow
  if s.timeSource = 2 then
    s.discipline (s.getI F.BRD_TIME_OFS_OFFSET) ((s.get F.BRD_TIME_CFG_INTERVAL : Rat) / 1000) (old != 2)
  else s

/-! ### Handovers (R389, R390) -/

/-- A handover message's content: 0 OFFER, 1 ACCEPT, 2 REFUSE, 3 DONE, 4 FAIL, the address at site A, and what follows. -/
def hoBytes (kind addr : Nat) (l : List Byte) : List Byte := le kind 1 ++ le addr 2 ++ l

/-- `BRD_HO_STAT` shows a handover. -/
def State.hoShow (s : State) (k node result : Nat) : State :=
  ((s.put F.BRD_HO_STAT_SESSION 0 k).put F.BRD_HO_STAT_NODE 0 node).put F.BRD_HO_STAT_RESULT 0 result

/-- A handover that this site offered ends with a result; the session is served again unless it was deleted. -/
def State.hoEnd (s : State) (x : HoOut) (result : Nat) : State :=
  let s := { s with hoOut := s.hoOut.filter (fun y => y.session != x.session) }
  let s := { s with leaseQ := s.leaseQ.filter (fun q => !(q.session == x.session && q.holder == 7)) }
  let s := if s.leasedBy x.session 7 then s.leaseLater x.session else s
  (s.hoShow x.session x.node result).raise Ev.HANDOVER_END x.session

/-- The Vault entry of session `k`: TXC, RXM and the key state (R335). -/
def State.vaultEntry (s : State) (k : Nat) : List Byte :=
  (List.range 8).map (fun j => s.vaultSoon (8 * k + j)) ++ (List.range 8).map (fun j => s.vaultSoon (0x080000 + 8 * k + j))

/-- Sends the offer of session `x` under its lease; where no path takes it, the handover ends: 3 is the version of the path. -/
def State.hoOffer (s : State) (x : HoOut) : State :=
  let k := x.session
  let r := s.brdSend 0x25 x.node (hoBytes 0 k (le (s.euiOf k) 8 ++ s.vaultEntry k ++ s.sealedImage k))
  if r.2 then { r.1 with hoOut := r.1.hoOut.map (fun (y : HoOut) => if y.session = k then { y with offered := true } else y) }
  else if s.brdHops 0 x.node != 0 || s.brdHops 1 x.node != 0 then (s.put F.BRD_HO_STAT_REFUSE_CAUSE 0 3).hoEnd x 2
  else s.hoEnd x 4

/-- Serves the handovers (R390): offers go out once their lease is granted; a lost lease ends the handover; leases of holder 7 are
renewed while they are needed, and end when they are not. -/
def State.hoServe (s : State) : State :=
  let outs := s.hoOut
  let s := outs.foldl (fun (s : State) x =>
    if s.leasedBy x.session 7 then (if x.offered then s else s.hoOffer x)
    else if x.offered || !s.leaseQ.any (fun q => q.session == x.session && q.holder == 7) then s.hoEnd x 4
    else s) s
  let held : List Nat := (s.leases.filter (fun l => l.holder == 7)).map (·.session)
  held.foldl (fun (s : State) k =>
    if s.hoOut.any (fun x => x.session == k) || s.mac.assocs.any (fun a => a.session == k && a.ho.isSome) then s.leaseTouch k
    else s.leaseLater k) s

/-- Session `k` may be offered to another site (R389). -/
def State.hoCan (s : State) (k : Nat) : Bool :=
  s.bit F.BRD_CTRL_HO_EN && (s.slot k).st == 2 && k != 0 && s.isRadio k && s.cstate k == 0 && s.ctxNum k 0x400 2 == 0
    && !s.hoOut.any (fun x => x.session == k)

/-- The handover of session `k` to a site begins (R390, step 1). -/
def State.hoAsk (s : State) (k node : Nat) : State :=
  if !s.hoCan k then s
  else
    let s := { s with hoOut := s.hoOut ++ [(⟨k, node, [], false, false⟩ : HoOut)] }.hoShow k node 5
    ((s.leaseAsk k 7).hoServe).serve

/-- A relayed message of session `k` from a site is compared with what this site hears (R389). -/
def State.hoWatch (s : State) (k node : Nat) (rssi : Int) : State :=
  if !s.hoCan k then s
  else
    let old := tget (fun _ => (0, 0)) s.brd.hoSeen k
    let good := decide (s.ctxInt k 0x310 2 + 2 * (s.get F.BRD_HO_CFG_HO_MARGIN : Int) ≤ rssi)
    let run := if !good then 0 else if old.1 = node then old.2 + 1 else 1
    let due := good && decide (s.get F.BRD_HO_CFG_HO_COUNT ≤ run)
    let s := s.onBrd (fun b => { b with hoSeen := tset (fun _ => (0, 0)) b.hoSeen k (if due then (0, 0) else (node, run)) })
    if due then s.hoAsk k node else s

/-- Site B cannot take the session: HO_REFUSE with a cause. -/
def State.hoRefuse (s : State) (node addr cause : Nat) : State :=
  let s := (s.brdSend 0x25 node (hoBytes 2 addr (le cause 1))).1
  ((s.hoShow addr node 2).put F.BRD_HO_STAT_REFUSE_CAUSE 0 cause).raise Ev.HANDOVER_END addr

/-- The image of a session taken over from another site: PROVISIONAL, at its address here, with the pair (R282, R390). -/
def hoImage (img : List Byte) (k slot n per phase : Nat) : List Byte :=
  let ps : List (Nat × List Byte) := [(0x000, [1]), (0x028, le k 2),
    (0x0C0, [0] ++ le slot 1 ++ le n 1 ++ le per 1 ++ le phase 1 ++ [0, 0, 0]), (0x0E8, [0, 0])]
  ps.foldl (fun l p => patch l p.1 p.2) (padTo 2048 img)

/-- Site B judges an offer (R390, steps 2 and 3). -/
def State.hoJudge (s : State) (node addr eui : Nat) (image entry : List Byte) : State :=
  let e := s.foreignOf node addr
  let k? := if addr ≠ 0 ∧ addr < 0xFFFE ∧ !s.slotUsed addr then some addr else s.freeAddr
  if e.sight < s.get F.BRD_HO_CFG_HO_MIN_SIGHT ∨ 60 ≤ e.minutes then s.hoRefuse node addr 0
  else match k? with
  | none => s.hoRefuse node addr 1
  | some k =>
    let ver := (image.getD 2 0).toNat % 4
    if s.cacheOnly then s.hoRefuse node addr 1
    else match s.freePair (e.rfs / 8) 7 (ver != 0) with
    | none => s.hoRefuse node addr 2
    | some (n, slot, phase) =>
      let per := s.get F.MAC_ASSOC_PERIOD
      let r := s.openSlot k 7 (hoImage image k slot n per phase)
      if !r.2 then s.hoRefuse node addr 1
      else
        let s := (r.1.vaultWrite (8 * k) (padTo 8 entry)).vaultWrite (0x080000 + 8 * k) (padTo 8 (entry.drop 8))
        let a : RadioAssoc := ⟨k, eui, ver, 0, 0, true, false, false, [], n / 8, s.mac.sfs, some (node, addr), 0⟩
        let s := s.onMac (fun m => { m with assocs := m.assocs.filter (fun x => x.session != k) ++ [a] })
        let s := (s.brdSend 0x25 node (hoBytes 1 addr (s.radioAssign k eui ver slot n per phase 0))).1
        s.hoShow k node 5

/-- Site A sends the meter the secured ASSIGN of a session without a pair (R299, R300, R390). -/
def State.hoAssign (s : State) (x : HoOut) : State :=
  let k := x.session
  let r := s.routeTo k 7 false
  let b := r.1.buildTraffic (beaconRx (r.2.2.2.headD 0)) k 7 7 r.2.1.bytes (x.payload ++ le x.node 1)
  match b.2 with
  | none => b.1
  | some (mpdu, waits) =>
    let s := { b.1 with hoOut := b.1.hoOut.map (fun (y : HoOut) => if y.session = k then { y with sent := true } else y) }
    let p := s.downPut ⟨0, 4, r.2.2.2, s.tick, k, 7, mpdu, if waits then 1 else 0⟩
    if p.2 then p.1.floodCount r.2.2.1 else p.1

/-- The handover of address `addr` here to a site, if one is under way and offered. -/
def State.hoOf (s : State) (addr node : Nat) : Option HoOut :=
  s.hoOut.find? (fun x => x.session == addr && x.node == node && x.offered)

/-! ### A port comes and goes (R368, R385, R386) -/

/-- A ring port has reached UP. -/
def State.brdPortUp (s : State) (p : Nat) : State :=
  let s := (s.putB F.BRD_PORT_STAT_WRAP (bpO p) false).raise Ev.BRD_LINK_UP p
  s.onBrd (fun b => { b with walkOwed := some s.tick, reqs := tset (fun _ => none) b.reqs p none })

/-- A ring port has left UP: the node wraps, what is queued for the port is dropped, and a WALK is owed; alone, the node has its own
id.  A handover whose other site is out of reach loses its lease (R397). -/
def State.brdPortDown (s : State) (p : Nat) : State :=
  let s := (s.raise Ev.BRD_LINK_DOWN p).chkLinkDown (fun stream sel => (stream == 9 || stream == 10) && sel == p)
  let lost := (s.brdOut.filter (fun m => m.1 == p)).length
  let s := { s with brdOut := s.brdOut.filter (fun m => m.1 != p) }.incSat F.BRD_CNT_A_DROPS 0 lost
  let s := ((s.putB F.BRD_PORT_STAT_WRAP (bpO p) true).incSat F.BRD_CNT_B_WRAPS).raise Ev.BRAID_WRAP p
  let s := s.onBrd (fun b => { b with
    walkOwed := some s.tick, reqs := tset (fun _ => none) b.reqs p none, delays := tset (fun _ => []) b.delays p [],
    held := b.held.filter (· != p) })
  let s := if !s.brdUp 0 && !s.brdUp 1 then s.brdAlone else s.put F.BRD_STATUS_RING 0 2
  let gone : List Nat := (s.hoOut.filter (fun x => x.offered && (s.brdRoute 0x25 x.node).isNone)).map (·.session)
  (gone.foldl (fun (s : State) k => if s.leasedBy k 7 then s.revoke k else s) s).hoServe

/-! ### The Bight (R392, R395) -/

/-- `BIGHT_OPS` as the Vault will hold it. -/
def State.bightOps (s : State) : Nat := s.vaultSoonNum 0x100110 8

/-- The Bight's registers show a count of operations: per mille of 10^9. -/
def State.bightShow (s : State) (n : Nat) : State :=
  let s := (s.put F.BRD_BIGHT_OPS_LO_OPS 0 n).put F.BRD_BIGHT_OPS_HI_OPS 0 (n / 2 ^ 32)
  s.put F.BRD_BIGHT_STAT_WEAR 0 (min 1023 (n / 1000000))

/-- `k` changes of position of a group (R395). -/
def State.bightOp (s : State) (k : Nat) : State :=
  let n := s.bightOps + k
  let s := (s.vaultWrite 0x100110 (le n 8)).bightShow n
  if 900 ≤ n / 1000000 then s.setReason 5 else s

end Sys2Proof.Machine
end

