-- ==== Sys2Proof/Machine/LinkOps.lean ====
section
/-! DEFINITION. What the link layer's commands share (R365 to R369): the lanes a link may use, its bring-up and its end; with it the
insertion into and the leaving of the ring (R394, R395), and `SPL_CTRL.EN` (R372, R377). -/
namespace Sys2Proof.Machine
open Sys2Proof

/-! ### Lanes (R365, R392) -/

/-- An insertion beside this node goes on at ring port `p` (R394). -/
def State.insertionAt (s : State) (p : Nat) : Option (Nat × Nat × Bool) := s.brd.ins.find? (fun e => e.1 == p)

/-- The lanes that are UP and that the link has for itself: all of Splice's; of a ring port's, those whose Bight group is open, without
lane 1 while a module inserts itself on it beside a MEMBER. -/
def State.linkLanes (s : State) (l : Nat) : Nat :=
  let m := (s.link l).lanes
  if l = 0 then m
  else match s.get F.BRD_BIGHT_STAT_STATE with
    | 0 => 0
    | 1 => if s.brd.lane0 then m else m &&& 2
    | _ => if (s.insertionAt (l - 1)).isSome then m &&& 1 else m

/-- How many lanes a mask of two holds. -/
def laneCount (m : Nat) : Nat := (if m.testBit 0 then 1 else 0) + (if m.testBit 1 then 1 else 0)

/-- The link may run: it is enabled, the module has started, and it has its clock (R371, R394, R456). -/
def State.linkEnabled (s : State) (l : Nat) : Bool :=
  s.bit F.GLB_STATUS_READY && !s.up.clockLost && (if l = 0 then s.bit F.SPL_CTRL_EN else s.bit F.BRD_CTRL_EN)

/-- The lanes in use of a link. -/
def State.lanesShow (s : State) (l : Nat) : State :=
  let n := if s.linkEnabled l then laneCount (s.linkLanes l) else 0
  if l = 0 then s.put F.SPL_STATUS_LANES 0 n else s.put F.BRD_PORT_STAT_LANES (bpO (l - 1)) n

/-- The taps hold both lanes of every side that has any lane UP, and of one side at least, in BYPASS with `EN` = 1 (R394, step 1). -/
def State.tapsRefresh (s : State) : State :=
  let e := (s.link 1).lanes
  let w := (s.link 2).lanes
  let good := s.bit F.BRD_CTRL_EN && s.bit F.GLB_STATUS_READY && !s.up.clockLost && s.get F.BRD_BIGHT_STAT_STATE == 0
    && (e == 3 || w == 3) && (e == 3 || e == 0) && (w == 3 || w == 0)
  s.onBrd (fun b => { b with taps := if good then (match b.taps with | some t => some t | none => some s.tick) else none })

/-! ### HELLO and CONFIRM (R368) -/

/-- The Vault address of a link's key index (R335). -/
def linkKeyAt (l : Nat) : Nat := 0x100004 + 4 * l

/-- The HELLO that the module sends on link `l`. -/
def State.helloBytes (s : State) (l : Nat) : List Byte :=
  let v := if l = 0 then s.get F.SPL_CFG_VER_MIN + 4 * s.get F.SPL_CFG_VER_MAX else s.get F.BRD_CFG_VER_MIN + 4 * s.get F.BRD_CFG_VER_MAX
  le s.serialNum 8 ++ le (l + 1) 1 ++ le v 1 ++ le (s.vaultSoonNum (linkKeyAt l) 4) 4 ++ s.fingerprint
    ++ (if l = 0 then le (s.get F.SPL_OWN_TERM_TERM) 4 ++ le s.role 1 else [])

/-- Queues a bring-up frame of link `l`: 1 HELLO, 2 CONFIRM; `flags` is its `LF_FLAGS`. -/
def State.linkFrame (s : State) (l kind flags : Nat) (body : List Byte) : State :=
  let m : Msg := ⟨kind, 0, s.tick, le flags 1 ++ body⟩
  if l = 0 then { s with splOut := s.splOut ++ [m] } else { s with brdOut := s.brdOut ++ [(l - 1, m)] }

/-- The insertion flag of the frames of link `l` (R366, R394). -/
def State.insertFlag (s : State) (l : Nat) : Nat :=
  if l ≠ 0 ∧ (s.get F.BRD_BIGHT_STAT_STATE = 1 ∨ (s.insertionAt (l - 1)).isSome) then 2 else 0

/-- The check of a HELLO (R368, step 2): nothing, or which of ROLE, ANCHOR and VERSION fails first. -/
def State.helloCause (s : State) (l : Nat) (h : HelloS) : Option Nat :=
  let want := if l = 0 then 1 else if l = 1 then 3 else 2
  let min' := if l = 0 then s.get F.SPL_CFG_VER_MIN else s.get F.BRD_CFG_VER_MIN
  let max' := if l = 0 then s.get F.SPL_CFG_VER_MAX else s.get F.BRD_CFG_VER_MAX
  let v := min max' (h.vers / 4 % 4)
  if h.role ≠ want then some 2
  else if !s.bit F.CIP_STATUS_ANCHOR || h.fp != ofLe s.fingerprint then some 1
  else if v < min' ∨ v < h.vers % 4 then some 0 else none

/-- The version agreed with a peer whose HELLO passed (R369). -/
def State.helloVersion (s : State) (l : Nat) (h : HelloS) : Nat :=
  min (if l = 0 then s.get F.SPL_CFG_VER_MAX else s.get F.BRD_CFG_VER_MAX) (h.vers / 4 % 4)

/-- `CAUSE` of a link: `k` is 0 VERSION, 1 ANCHOR, 2 ROLE. -/
def State.causeShow (s : State) (l k : Nat) : State :=
  if l = 0 then s.put F.SPL_STATUS_CAUSE 0 (if k = 2 then 5 else k + 2) else s.put F.BRD_PORT_STAT_CAUSE (bpO (l - 1)) (k + 1)

/-! ### Bring-up begins and ends -/

/-- Bring-up starts at step 1 (R368): pending commits of the link apply (R399, R401). -/
def State.linkStart (s : State) (l : Nat) : State :=
  let s := if l = 0 then s.applyInst 11 0 else s.brdApply 0
  let s := s.onLink l (fun x => { x with
    firstAt := s.tick, hello := none, refused := false, confirmed := false, txSeq := 0, rxSeq := none, lastTx := 0, tagFails := [] })
  s.setLinkSt l (if l ≠ 0 ∧ s.get F.BRD_BIGHT_STAT_STATE = 1 then 3 else 1)

/-- A link that is not UP is started, or is shown as DOWN where it has no lane or may not run. -/
def State.linkRest (s : State) (l : Nat) : State :=
  let s := s.lanesShow l
  if s.linkEnabled l && s.linkLanes l != 0 then s.linkStart l
  else
    (s.onLink l (fun x => { x with hello := none, refused := false, confirmed := false, txSeq := 0, rxSeq := none, tagFails := [] })).setLinkSt l 0

/-- The link leaves UP and is brought up again (R368).  A ring port around a cutover does not count as down yet (R394, R395). -/
def State.linkLeave (s : State) (l : Nat) : State :=
  let was := s.linkSt l
  let s := s.linkRest l
  if was ≠ 2 then s
  else if l = 0 then s.splDown
  else if s.tick < (s.link l).noDownTo then s
  else s.brdPortDown (l - 1)

/-! ### The insertion fails (R394) -/

/-- The insertion fails: its groups close, EV237 is raised, and it is tried again after a backoff that doubles up to 64 s. -/
def State.insertFail (s : State) : State :=
  let n := if s.brd.lane0 then 3 else 1
  let s := (s.put F.BRD_BIGHT_STAT_STATE 0 0).bightOp n
  let b := s.brd.backoff
  let s := s.onBrd (fun x => { x with
    cut := none, agreed := [], lane0 := false, taps := none, retryAt := some (s.tick + sTicks b), backoff := min 64 (2 * b) })
  let s := (s.raise Ev.BIGHT_INSERT_FAIL 0).incSat F.BRD_CNT_B_INSERT_FAILS
  (s.linkRest 1).linkRest 2

/-- The lanes of link `l` have changed: `LANES` follows; without a lane the link goes down, and with its first one bring-up starts. -/
def State.linkRefresh (s : State) (l : Nat) : State :=
  let s := s.lanesShow l
  let st := s.linkSt l
  let on := s.linkEnabled l && s.linkLanes l != 0
  if on then (if st = 0 then s.linkStart l else s)
  else if st = 0 then s
  else
    let s := if l = 0 then s.put F.SPL_STATUS_CAUSE 0 1 else s
    if st = 3 then s.insertFail else s.linkLeave l

/-! ### UP (R368, step 5) -/

/-- The neighbours with which the module inserts itself: the sides that have a lane (R394). -/
def State.insertSides (s : State) : List Nat := [0, 1].filter (fun p => s.linkSt (p + 1) == 3)

/-- A cutover message of the Bight: 0 a proposal or announcement, 1 an acceptance, 2 a refusal; its tick, and whether the sender leaves
the ring (R394, R395).  The spec gives it no message type (DESIGN CHOICE, log entry 46). -/
def State.cutSend (s : State) (p kind cut : Nat) (leaving : Bool) : State :=
  s.brdQueue p (brdHdr 0x2F 0 0 s.nodeId 1 0 ++ le kind 1 ++ le cut 8 ++ le (if leaving then 1 else 0) 1)

/-- Every side of the insertion is brought up: the cutover tick is proposed, 10 ms ahead (R394, step 4). -/
def State.insertPropose (s : State) : State :=
  let sides := s.insertSides
  if s.get F.BRD_BIGHT_STAT_STATE ≠ 1 ∨ s.brd.cut.isSome ∨ sides.isEmpty then s
  else if !sides.all (fun p => (s.link (p + 1)).confirmed) then s
  else
    let c := s.tick + msTicks 10
    let s := s.onBrd (fun b => { b with cut := some c, agreed := [] })
    sides.foldl (fun (s : State) p => s.cutSend p 0 c false) s

/-- The link reaches UP. -/
def State.linkUp (s : State) (l : Nat) (h : HelloS) : State :=
  let v := s.helloVersion l h
  let s := s.onLink l (fun x => { x with rxSeq := some 0, lastRx := s.tick, lastTx := s.tick, noDownTo := 0 })
  if l = 0 then
    let s := (s.setLinkSt 0 2).put F.SPL_STATUS_VERSION 0 v
    let changed := s.vaultSoonNum 0x100100 8 != h.serial
    let s := if changed then (s.vaultWrite 0x100100 (le h.serial 8)).setSplFlag 2 false else s
    ((s.raise Ev.SPL_LINK_UP 0).splUp h.term h.state).serve
  else
    let s := s.put F.BRD_PORT_STAT_VERSION (bpO (l - 1)) v
    if s.get F.BRD_BIGHT_STAT_STATE = 1 then s.insertPropose
    else (s.setLinkSt l 2).brdPortUp (l - 1)

/-- The new key index is in the Vault: CONFIRM is sent, once, and with the peer's CONFIRM accepted the link is UP (R368, steps 3 to 5). -/
def State.linkGo (s : State) (l : Nat) : State :=
  let x := s.link l
  match x.hello with
  | none => s
  | some h =>
    if x.refused ∨ s.vaultNum (linkKeyAt l) 4 ≠ x.keyIdx ∨ (s.linkSt l ≠ 1 ∧ s.linkSt l ≠ 3) then s
    else
      let s := if x.txSeq = 0 then
          (s.linkFrame l 2 (1 + s.insertFlag l) []).onLink l (fun x => { x with txSeq := 1 })
        else s
      if x.confirmed ∧ x.rxSeq.isNone then s.linkUp l h else s

/-- The new key index of an insertion beside this node is in the Vault: CONFIRM goes back under it (R394, step 3). -/
def State.insertGo (s : State) (p : Nat) : State :=
  match s.insertionAt p with
  | none => s
  | some (_, k, _) =>
    if s.vaultNum (linkKeyAt (p + 1)) 4 = k ∧ !s.brdOut.any (fun m => m.1 == p && m.2.kind == 2) then s.linkFrame (p + 1) 2 3 [] else s

/-! ### `SPL_CTRL.EN` (R371, R372, R377) -/

/-- `SPL_CTRL` is written. -/
def State.splEnable (s : State) (i : Iface) (w : Word) : State :=
  let was := s.bit F.SPL_CTRL_EN
  let s := (s.wlogNote i F.SPL_CTRL.addr w).fieldWrite F.SPL_CTRL.addr w
  let on := s.bit F.SPL_CTRL_EN
  if was = on ∨ !s.bit F.GLB_STATUS_READY then s
  else if on then
    let s := (s.ownLose.put F.SPL_STATUS_ROLE 0 1).onSpl (fun x => { x with start := some s.tick, was := 1, claimAt := none, retryAt := none })
    s.linkRefresh 0
  else
    let s := s.linkRefresh 0
    let s := s.onSpl (fun x => { x with claimAt := none, split := false, retryAt := none, start := none, switchTo := false })
    let s := ((s.put F.SPL_STATUS_ROLE 0 0).putB F.SPL_STATUS_PAIRED 0 false).setSplFlag 1 false
    let s := { s with splOut := s.splOut.filter (fun m => m.kind != 0x12) }
    ((if s.spl.expired then s else s.ownGain).driveOwnOut false).serve

/-! ### `BRD_CTRL` (R394, R395) -/

/-- A MEMBER announces the cutover tick at which it leaves (R395). -/
def State.leaveRing (s : State) : State :=
  if s.get F.BRD_BIGHT_STAT_STATE ≠ 2 ∨ s.brd.leaving then s
  else
    let c := s.tick + msTicks 10
    let s := s.onBrd (fun b => { b with leaving := true, cut := some c, agreed := [] })
    [0, 1].foldl (fun (s : State) p => if s.brdUp p then s.cutSend p 0 c true else s) s

/-- `BRD_CTRL.EN` = 1 is applied (R393, R394). -/
def State.joinRing (s : State) : State :=
  ((s.putB F.BRD_BIGHT_STAT_HOLD 0 true).onBrd (fun b => { b with backoff := 1, retryAt := none, taps := none })).tapsRefresh

/-- The module has left the ring: both groups are closed, and it is alone (R392, R395). -/
def State.ringLeft (s : State) : State :=
  let s := (s.put F.BRD_BIGHT_STAT_STATE 0 0).bightOp 2
  let s := s.putB F.BRD_BIGHT_STAT_HOLD 0 false
  let s := s.onBrd (fun b => { b with cut := none, agreed := [], leaving := false, lane0 := false, taps := none, ins := [], cuts := [], held := [] })
  let s := s.onLink 1 (fun x => { x with noDownTo := 0 })
  let s := s.onLink 2 (fun x => { x with noDownTo := 0 })
  let s := if s.linkSt 1 = 0 then s else s.linkLeave 1
  let s := if s.linkSt 2 = 0 then s else s.linkLeave 2
  (s.lanesShow 1).lanesShow 2 |>.brdAlone

/-- `BRD_CTRL` is written: `EN` joins the ring; `LEAVE`, or `EN` = 0 of a MEMBER, leaves it (DESIGN CHOICE, log entry 51: the spec says nothing of
`EN` = 0 in a ring); an insertion under way is given up. -/
def State.brdCtrl (s : State) (i : Iface) (w : Word) : State :=
  let was := s.bit F.BRD_CTRL_EN
  let left := s.bit F.BRD_CTRL_LEAVE
  let s := (s.wlogNote i F.BRD_CTRL.addr w).fieldWrite F.BRD_CTRL.addr w
  let on := s.bit F.BRD_CTRL_EN
  if !s.bit F.GLB_STATUS_READY then s
  else
    let s := if on && !was then s.joinRing else s
    let s := if s.bit F.BRD_CTRL_LEAVE && !left then s.leaveRing else s
    if on || !was then s
    else match s.get F.BRD_BIGHT_STAT_STATE with
      | 2 => s.leaveRing
      | 1 => ((s.put F.BRD_BIGHT_STAT_STATE 0 0).bightOp (if s.brd.lane0 then 3 else 1)).onBrd
          (fun b => { b with cut := none, agreed := [], lane0 := false, taps := none, retryAt := none })
          |>.putB F.BRD_BIGHT_STAT_HOLD 0 false |>.linkRest 1 |>.linkRest 2
      | _ => (s.onBrd (fun b => { b with taps := none, retryAt := none })).putB F.BRD_BIGHT_STAT_HOLD 0 false

/-! ### The loss of a clock (R456) -/

/-- Every link goes down; it may not run until the clock is back. -/
def State.linksHalt (s : State) : State :=
  [0, 1, 2].foldl (fun (s : State) l =>
    let s := if l = 0 then s else s.onLink l (fun x => { x with noDownTo := 0 })
    if s.linkSt l = 3 then s.insertFail else if s.linkSt l = 0 then s.lanesShow l else s.linkLeave l) s

/-- Every link with a lane is brought up again. -/
def State.linksBack (s : State) : State := ([0, 1, 2].foldl (fun (s : State) l => s.linkRefresh l) s).tapsRefresh

end Sys2Proof.Machine
end

