-- ==== Sys2Proof/Machine/Braid.lean ====
section
/-! DEFINITION. The Braid fabric (R382 to R391), the Bight (R392 to R395) and the commit of its shadows (R401). -/
namespace Sys2Proof.Machine
open Sys2Proof

/-! ### Keeping a hop up, WALK and TOPOLOGY -/

/-- BRD_KEEPALIVE_SEND (R368, R384): a port has sent nothing for 250 µs. -/
def execBrdKeepaliveSend (p : Fin 2) (s : State) : Out := s.answer <|
  let x := s.link (p.val + 1)
  .next (if s.linkSt (p.val + 1) = 2 ∧ x.lastTx + usTicks 250 ≤ s.tick ∧ !s.brdOut.any (fun m => m.1 == p.val && m.2.kind == 0x20)
    then s.brdQueue p.val (brdHdr 0x20 0 0 s.nodeId 1 0) else s)

/-- BRD_KEEPALIVE (R384): the frame is accepted, which keeps the port up, and names the neighbour. -/
def execBrdKeepalive (h : BHdr) (s : State) : Out := s.answer <|
  match s.brdTake h 0x20 [] with
  | none => .next s
  | some s => .next (s.put F.BRD_PORT_STAT_NEIGHBOUR (bpO h.port.val) h.src.toNat)

/-- WALK_START (R386): a port change, or a WALK of a higher serial, calls for an own WALK. -/
def execWalkStart (s : State) : Out := s.answer <| .next (if s.brd.walkOwed.isSome then s.walkStart else s)

/-- KNOT_WALK_TIMER (R386): the knot master walks every 10 s. -/
def execKnotWalkTimer (s : State) : Out := s.answer <|
  .next (if s.bit F.BRD_STATUS_KNOT ∧ s.brd.walkAt + sTicks 10 ≤ s.tick then s.walkStart else s)

/-- BRD_WALK (R386). -/
def execBrdWalk (h : BHdr) (entries : List WalkE) (split : Option Nat) (s : State) : Out := s.answer <|
  match s.brdTake h 0x21 (walkBytes entries split) with
  | none => .next s
  | some s => .next (s.walkTake h entries split)

/-- BRD_TOPOLOGY (R386 to R388). -/
def execBrdTopology (h : BHdr) (nodes : List NodeE) (broken : Option Nat) (knot : Nat) (master : Option Nat) (s : State) : Out := s.answer <|
  match s.brdIn h 0x22 (topoBytes nodes broken knot master) with
  | none => .next s
  | some (s, here) => .next (if here then s.topoApply nodes broken knot master else s)

/-! ### Time (R388) -/

/-- DELAY_EXCHANGE_TIMER (R388): every `INTERVAL`, a DELAY_REQ goes out on a v3 hop; it is stamped as it leaves. -/
def execDelayExchangeTimer (p : Fin 2) (s : State) : Out := s.answer <|
  let n := p.val
  if !s.brdTakes n 0x23 || decide (s.tick < tget (fun _ => 0) s.brd.delayAt n + s.brdInterval) then .next s
  else
    let s := s.onBrd (fun b => { b with delayAt := tset (fun _ => 0) b.delayAt n s.tick, reqs := tset (fun _ => none) b.reqs n none })
    .next (s.brdQueue n (brdHdr 0x23 0 0 s.nodeId 1 0 ++ le 0 1))

/-- BRD_DELAY_REQ (R388): answered with t2, its arrival; t3 is stamped as the response leaves. -/
def execBrdDelayReq (h : BHdr) (s : State) : Out := s.answer <|
  match s.brdTake h 0x23 (le 0 1) with
  | none => .next s
  | some s => .next (s.brdQueue h.port.val (brdHdr 0x23 0 h.src.toNat s.nodeId 1 0 ++ le 1 1 ++ le s.tick 8))

/-- BRD_DELAY_RESP (R388): the hop delay is the mean of ((t4 − t1) − (t3 − t2))/2 over the last 8 exchanges. -/
def execBrdDelayResp (h : BHdr) (t2 t3 : BitVec 64) (s : State) : Out := s.answer <|
  let p := h.port.val
  match s.brdTake h 0x23 (le 1 1 ++ le t2.toNat 8 ++ le t3.toNat 8) with
  | none => .next s
  | some s =>
    match tget (fun _ => none) s.brd.reqs p with
    | none => .next s
    | some t1 =>
      let d : Int := ((s.tick : Int) - t1) - ((t3.toNat : Int) - t2.toNat)
      let l := (tget (fun _ => []) s.brd.delays p ++ [d])
      let l := l.drop (l.length - 8)
      let mean := roundAway (((l.foldl (· + ·) 0 : Int) : Rat) / (2 * (l.length : Rat)))
      let s := s.onBrd (fun b => { b with delays := tset (fun _ => []) b.delays p l, reqs := tset (fun _ => none) b.reqs p none })
      .next (s.put F.BRD_PORT_STAT_DELAY (bpO p) (min 65535 mean.toNat))

/-- TIME_SEND_TIMER (R388): the time master sends TIME in both directions; its time base is stamped as it leaves. -/
def execTimeSendTimer (s : State) : Out := s.answer <|
  if !s.bit F.BRD_TIME_STAT_IS_MASTER || !s.bit F.BRD_CTRL_TIME_EN || decide (s.tick < s.brd.timeAt + s.brdInterval) then .next s
  else
    let s := s.onBrd (fun b => { b with timeAt := s.tick })
    .next ([0, 1].foldl (fun (s : State) p =>
      if s.brdTakes p 0x24 then
        s.brdQueue p (brdHdr 0x24 0 0 s.nodeId 64 0 ++ timeBytes 0 0 (s.bit F.CLK_STATUS_PPS_LOCK))
      else s) s)

/-- BRD_TIME (R388): the copy of fewer hops gives `BRD_TIME_OFS` and a discipline sample; the message goes on with its correction
increased. -/
def execBrdTime (h : BHdr) (value corr : BitVec 64) (pps : Bool) (s : State) : Out := s.answer <|
  let p := h.port.val
  match s.brdTake h 0x24 (timeBytes value.toNat corr.toInt pps) with
  | none => .next s
  | some s =>
    if h.src.toNat = s.nodeId then .next s
    else
      let delay := s.get F.BRD_PORT_STAT_DELAY (bpO p)
      let ofs : Int := s.tick - ((value.toNat : Int) + corr.toInt + delay)
      let fwd := s.bit F.BRD_CTRL_TIME_EN
      let s := if fwd then s.brdForward h 0x24 (timeBytes value.toNat (corr.toInt + delay) pps) else s
      .next (if !s.bit F.BRD_TIME_STAT_IS_MASTER && s.timeUses p h.wrapped then s.timeUse ofs (65 - h.hops.toNat) pps else s)

/-! ### Messages between sites -/

/-- BRD_MESH_RELAY (R306, R307, R389): forwarded, or judged at the coordinating site; the relay counts towards a handover. -/
def execBrdMeshRelay (h : BHdr) (site : BitVec 6) (rfs : Fin 32) (rssi snr : BitVec 16) (time : BitVec 64) (mpdu : List Byte) (s : State) :
    Out := s.answer <|
  let body := le site.toNat 1 ++ le rfs.val 1 ++ le rssi.toNat 2 ++ le snr.toNat 2 ++ le time.toNat 8 ++ le mpdu.length 2 ++ mpdu
  match s.brdIn h 0x26 body with
  | none => .next s
  | some (s, here) =>
    if !here then .next s
    else
      let m := macOf mpdu
      let s := s.incSat F.MSH_CNT_OUT_HANDOFF_RCVD
      let s := if fcsGood mpdu && m.secured then s.hoWatch m.src site.toNat rssi.toInt else s
      let b : Body := {
        rx := 576 + rfs.val, group := [], hdr := ⟨mpdu.length, 0, 0, 0, s.verOf m.src, false, 0⟩, prio := (s.slot m.src).prio, tick := s.tick
        blockNo := none, vals := [], collided := [], snr := snr.toInt, sync := time.toNat, syncs := [], erasedPct := 0, rssi := rssi.toInt
        via := some site.toNat }
      .next (s.judge b mpdu).serve

/-- BRD_BROADCAST (R391): the record acts as though it had arrived on the node's own Halyard. -/
def execBrdBroadcast (h : BHdr) (record : List Byte) (s : State) : Out := s.answer <|
  match s.brdIn h 0x27 record with
  | none => .next s
  | some (s, here) => .next (if here then s.fabricRecord record else s)

/-- BRD_BCAST_CMD (R391): the record in `CIP_RAW_BUF` goes out, and acts here too. -/
def execBrdBcastCmd (i : Iface) (w : Word) (s : State) : Out := s.answer <|
  let s := s.wlogNote i F.BRD_BCAST_CMD.addr w
  if !F.BRD_BCAST_CMD_GO.on w then .next s
  else
    let n := F.BRD_BCAST_CMD_LENGTH.of w
    let r := s.rawBytes 0 n
    .next ((s.brdCast 0x27 r).fabricRecord r)

/-! ### Handovers (R389, R390) -/

/-- BRD_HO_CMD (R389): nothing happens where the session cannot be offered. -/
def execBrdHoCmd (i : Iface) (w : Word) (s : State) : Out := s.answer <|
  let s := s.wlogNote i F.BRD_HO_CMD.addr w
  let node := F.BRD_HO_CMD_TARGET.of w
  .next (if F.BRD_HO_CMD_GO.on w ∧ node ≠ s.nodeId then s.hoAsk (F.BRD_HO_CMD_SESSION.of w) node else s)

/-- A handover message is taken: forwarded, or handed to `f` with the site that sent it. -/
def State.hoIn (s : State) (h : BHdr) (content : List Byte) (f : State → Nat → State) : State :=
  match s.brdIn h 0x25 content with
  | none => s
  | some (s, here) => if here then ((f s h.src.toNat).hoServe).serve else s

/-- BRD_HO_OFFER (R390, steps 2 and 3). -/
def execBrdHoOffer (h : BHdr) (eui : BitVec 64) (addr : BitVec 16) (image entry : List Byte) (s : State) : Out := s.answer <|
  .next (s.hoIn h (hoBytes 0 addr.toNat (le eui.toNat 8 ++ entry ++ image)) (fun (s : State) n =>
    s.hoJudge n addr.toNat eui.toNat image entry))

/-- BRD_HO_ACCEPT (R390, step 4): the payload is kept, and sent in an ASSIGN: by the responder of the session's next active superframe,
or at once where it holds no pair. -/
def execBrdHoAccept (h : BHdr) (addr : BitVec 16) (payload : List Byte) (s : State) : Out := s.answer <|
  .next (s.hoIn h (hoBytes 1 addr.toNat payload) (fun (s : State) n =>
    match s.hoOf addr.toNat n with
    | none => s
    | some x =>
      let x := { x with payload := payload }
      let s := { s with hoOut := s.hoOut.map (fun (y : HoOut) => if y.session = x.session then x else y) }
      if s.holdsPair x.session then s else s.hoAssign x))

/-- BRD_HO_REFUSE (R390). -/
def execBrdHoRefuse (h : BHdr) (addr : BitVec 16) (cause : Fin 4) (s : State) : Out := s.answer <|
  .next (s.hoIn h (hoBytes 2 addr.toNat (le cause.val 1)) (fun (s : State) n =>
    match s.hoOf addr.toNat n with
    | none => s
    | some x => (s.put F.BRD_HO_STAT_REFUSE_CAUSE 0 cause.val).hoEnd x 2))

/-- Site A deletes a session that has been handed over (R390, step 6). -/
def State.hoDelete (s : State) (k : Nat) : State :=
  let s := (s.ctxUpdate k 0 (List.replicate 2048 0) 7 [] 2).sesForget k
  s.routeForget k

/-- BRD_HO_DONE (R390, step 6). -/
def execBrdHoDone (h : BHdr) (addr : BitVec 16) (s : State) : Out := s.answer <|
  .next (s.hoIn h (hoBytes 3 addr.toNat []) (fun (s : State) n =>
    match s.hoOf addr.toNat n with
    | none => s
    | some x => ((s.hoDelete x.session).incSat F.BRD_CNT_B_HANDOVERS).hoEnd x 1))

/-- BRD_HO_FAIL (R390): the meter has not answered. -/
def execBrdHoFail (h : BHdr) (addr : BitVec 16) (s : State) : Out := s.answer <|
  .next (s.hoIn h (hoBytes 4 addr.toNat []) (fun (s : State) n =>
    match s.hoOf addr.toNat n with
    | none => s
    | some x => s.hoEnd x 3))

/-- HO_ACK_TIMEOUT (R390): at B, the tries have passed without the meter's ACK: the slot and the pair are released. -/
def execHoAckTimeout (sess : BitVec 16) (s : State) : Out := s.answer <|
  let k := sess.toNat
  match s.rassoc k with
  | none => .next s
  | some a =>
    match a.ho with
    | none => .next s
    | some (node, addr) =>
      if a.active < s.get F.PLN_ASSOC_ASSIGN_TRIES then .next s
      else
        let s := s.onMac (fun m => { m with assocs := m.assocs.filter (fun x => x.session != k) })
        let s := ((s.slotFree k 7).brdSend 0x25 node (hoBytes 4 addr [])).1
        .next (((s.hoShow k node 3).raise Ev.HANDOVER_END k).hoServe).serve

/-! ### The Bight (R392 to R395) -/

/-- BRD_JOIN_RING (R393, R394): a write of `BRD_CTRL` that sets `EN`. -/
def execBrdJoinRing (i : Iface) (w : Word) (s : State) : Out := s.answer <| .next (s.brdCtrl i w)

/-- BRD_LEAVE (R395): a write of `BRD_CTRL` that sets `LEAVE`. -/
def execBrdLeave (i : Iface) (w : Word) (s : State) : Out := s.answer <| .next (s.brdCtrl i w)

/-- BIGHT_LANE1_OPEN (R394, steps 1 and 2). -/
def execBightLane1Open (s : State) : Out := s.answer <|
  match s.brd.taps with
  | none => .next s
  | some t =>
    if s.get F.BRD_BIGHT_STAT_STATE ≠ 0 ∨ !s.bit F.BRD_CTRL_EN ∨ s.bit F.BRD_CTRL_LEAVE ∨ s.brd.retryAt.isSome
        ∨ s.tick < t + msTicks 100 ∨ s.up.clockLost ∨ s.up.tap = 1 then .next s
    else
      let s := (s.put F.BRD_BIGHT_STAT_STATE 0 1).bightOp 1
      let s := s.onBrd (fun b => { b with taps := none, openAt := s.tick, cut := none, agreed := [], lane0 := false })
      .next ((s.linkRest 1).linkRest 2)

/-- BIGHT_CUTOVER_PROPOSAL (R394, step 4, R395): a neighbour answers a proposed or announced cutover tick; or the proposer has the
answer: 0 a proposal, 1 an acceptance, 2 a refusal. -/
def execBightCutoverProposal (p : Fin 2) (cut : BitVec 64) (kind : Fin 3) (leaving : Bool) (s : State) : Out := s.answer <|
  let n := p.val
  let c := cut.toNat
  let st := s.get F.BRD_BIGHT_STAT_STATE
  match kind.val with
  | 0 =>
    let ready : Bool := match s.insertionAt n with | some e => e.2.2 | none => false
    let ok := s.linkSt (n + 1) == 2 && st == 2 && decide (s.tick < c) && (leaving || ready) && !s.brd.cuts.any (fun x => x.1 == n)
    let s := if ok then s.onBrd (fun b => { b with cuts := b.cuts ++ [(n, c, leaving)] }) else s
    .next (s.cutSend n (if ok then 1 else 2) c leaving)
  | 1 => .next (if s.brd.cut = some c then s.onBrd (fun b => { b with agreed := if b.agreed.contains n then b.agreed else b.agreed ++ [n] }) else s)
  | _ => .next (if st = 1 ∧ s.brd.cut = some c ∧ !s.brd.lane0 then s.insertFail else s)

/-- Every side of the insertion has accepted the cutover tick. -/
def State.cutAgreed (s : State) : Bool := !s.insertSides.isEmpty && s.insertSides.all (fun p => s.brd.agreed.contains p)

/-- BIGHT_CUTOVER_QUEUE (R394, step 5): from C − 1 ms the neighbours of an insertion queue; an insertion that is not agreed by then
fails. -/
def execBightCutoverQueue (s : State) : Out := s.answer <|
  let due := fun (c : Nat) => decide (c ≤ s.tick + msTicks 1)
  let ps := (s.brd.cuts.filter (fun x => !x.2.2 && due x.2.1)).map (·.1)
  let s := s.onBrd (fun b => { b with held := b.held ++ ps.filter (fun p => !b.held.contains p) })
  match s.brd.cut with
  | some c => .next (if s.get F.BRD_BIGHT_STAT_STATE = 1 ∧ !s.brd.lane0 ∧ due c ∧ !s.cutAgreed then s.insertFail else s)
  | none => .next s

/-- A neighbour's cutover (R394, step 6, R395): towards an inserted module the port goes on under the new key index; where the neighbour
has left, it trains with the module beyond.  It does not count as down for 5 ms.  A WALK under way is abandoned (R397). -/
def State.cutHere (s : State) (x : Nat × Nat × Bool) : State :=
  let p := x.1
  let l := p + 1
  let key := s.insertionAt p
  let s := s.onBrd (fun b => { b with
    cuts := b.cuts.filter (fun y => y.1 != p), held := b.held.filter (· != p), ins := b.ins.filter (fun e => e.1 != p)
    delays := tset (fun _ => []) b.delays p [], reqs := tset (fun _ => none) b.reqs p none, walking := false })
  let walk := fun (m : Nat × Msg) => m.1 == p && m.2.kind == 0x21
  let s := { s with brdOut := s.brdOut.filter (fun m => !walk m) }.incSat F.BRD_CNT_A_DROPS 0 (s.brdOut.countP walk)
  let s := if s.get F.BRD_STATUS_RING = 3 then s.ringShow else s
  if s.linkSt l ≠ 2 then s.lanesShow l
  else
    let s := s.onLink l (fun y => { y with noDownTo := x.2.1 + msTicks 5 })
    if x.2.2 then s.linkRest l
    else match key, (s.link l).hello with
      | some (_, k, _), some h =>
        let s := s.onLink l (fun y => { y with keyIdx := k, rxSeq := some 0, txSeq := 1, lastRx := s.tick, lastTx := s.tick })
        (s.put F.BRD_PORT_STAT_VERSION (bpO p) (s.helloVersion l h)).lanesShow l
      | _, _ => s.lanesShow l

/-- BIGHT_CUTOVER (R394, step 6, R395): what falls due at its tick C. -/
def execBightCutover (s : State) : Out := s.answer <|
  let s := (s.brd.cuts.filter (fun x => decide (x.2.1 ≤ s.tick))).foldl (fun (s : State) x => s.cutHere x) s
  match s.brd.cut with
  | none => .next s
  | some c =>
    if s.tick < c then .next s
    else if s.brd.leaving then .next s.ringLeft.serve
    else if s.get F.BRD_BIGHT_STAT_STATE ≠ 1 ∨ s.brd.lane0 then .next s
    else if !s.cutAgreed then .next s.insertFail
    else
      let s := s.onBrd (fun b => { b with lane0 := true })
      .next ((s.lanesShow 1).lanesShow 2)

/-- BIGHT_MEMBER (R394, step 7): lane 0 is up on every side, by C + 5 ms, or the insertion fails. -/
def execBightMember (s : State) : Out := s.answer <|
  match s.brd.cut with
  | none => .next s
  | some c =>
    if s.get F.BRD_BIGHT_STAT_STATE ≠ 1 ∨ !s.brd.lane0 then .next s
    else if c + msTicks 5 < s.tick then .next s.insertFail
    else
      let sides := s.insertSides
      if !sides.all (fun p => ((s.link (p + 1)).lanes).testBit 0) then .next s
      else
        let s := (s.put F.BRD_BIGHT_STAT_STATE 0 2).bightOp 1
        let s := s.onBrd (fun b => { b with cut := none, agreed := [], lane0 := false, backoff := 1 })
        let s := sides.foldl (fun (s : State) p =>
          let s := s.onLink (p + 1) (fun x => { x with lastRx := s.tick, lastTx := s.tick })
          (s.setLinkSt (p + 1) 2).brdPortUp p) s
        .next (((s.lanesShow 1).lanesShow 2).onBrd (fun b => { b with walkOwed := some s.tick }))

/-- BIGHT_INSERT_RETRY (R394): the backoff has ended. -/
def execBightInsertRetry (s : State) : Out := s.answer <|
  match s.brd.retryAt with
  | none => .next s
  | some t => .next (if t ≤ s.tick then (s.onBrd (fun b => { b with retryAt := none })).tapsRefresh else s)

/-! ### The commit (R401) -/

/-- The rules of R401. -/
def brdRules (s : State) (cells : List (Nat × Word)) : Option (Nat × Nat) :=
  let view := s.after cells
  firstFail [(decide (F.BRD_CFG_VER_MIN.afterOf view 0 ≤ F.BRD_CFG_VER_MAX.afterOf view 0), 0xB8, 0),
    (shadowLegal F.BRD_CFG.addr (view F.BRD_CFG.addr), 0xB9, 0), (!s.commitPending 12, 0xBA, 0)]

/-- BRD_COMMIT (R401): the versions apply at the next bring-up of a port, the fixed id at the next WALK. -/
def execBrdCommit (i : Iface) (w : Word) (s : State) : Out := s.answer <|
  let s := s.wlogNote i F.BRD_COMMIT.addr w
  .next (if F.BRD_COMMIT_GO.on w then s.commit i 12 [0, 1] brdRules else s)

end Sys2Proof.Machine
end

