-- ==== Sys2Proof/Machine/Cxl.lean ====
section
/-! DEFINITION. The CXL link and its faults (R219, R220, R247), cache-only mode and the return from it (R248 to R250), and taking
the store into use (R223, R251, R532). -/
namespace Sys2Proof.Machine
open Sys2Proof

/-! ### The link -/

/-- The link leaves UP (R247). -/
def State.cxlFall (s : State) : State :=
  let s := ((s.put F.CXL_LINK_STAT_STATE 0 1).incSat F.CXL_LINK_CNT_DOWNS).incSat F.CXL_LINK_CNT_RETRAINS
  let drops := s.tick :: s.cxlDrops.filter (fun t => decide (s.tick < t + sTicks 10))
  { s with cxlDown := some s.tick, cxlDrops := drops }.raise Ev.CXL_LINK_DOWN 0

/-- CXL_LINK_DOWN (R247). -/
def execCxlLinkDown (s : State) : Out := s.answer <| .next (if s.cxlUp then s.cxlFall else s)

/-- CXL_REQUEST_TIMEOUT (R220, R247): counted as a link-down. -/
def execCxlRequestTimeout (s : State) : Out := s.answer <| .next (if s.cxlUp then s.cxlFall else s)

/-- The device in use is usable: at least 4 GiB (R220). -/
def State.cxlUsable (s : State) : Bool := s.cxlUp && decide (4096 ≤ s.cxlMib)

/-! ### The store -/

/-- The generation word of the Vault, with waiting writes (R223). -/
def State.vaultGen (s : State) : Nat := s.vaultSoonNum 0x100000 4

/-- The store in the device is retained (R223). -/
def State.storeKept (s : State) (kept : Bool) : Bool :=
  match s.store with
  | none => false
  | some h => kept && h.serial == s.serialNum && h.gen == s.vaultGen && h.capacity == s.cxlMib

/-- The store is taken into use as new (R223): the next generation, a new header, an empty journal, and no context. -/
def State.storeNew (s : State) : State :=
  let g := (s.vaultGen + 1) % 2 ^ 32
  let s := s.vaultWrite 0x100000 (le g 4) (.generation g)
  let s := (s.put F.CXL_GENERATION_GEN 0 g).putB F.CXL_LINK_STAT_RETAINED 0 false
  { (s.onMac (fun m => { m with foreign := [] })).hdrWrite ⟨s.serialNum, g, s.cxlMib, 0⟩ with
    storeOpen := true, home := [], jrn := [],
    jrnSeq := 0, jrnPos := 0, spool := s.spool.filter (fun r => r.rc.page == 0), pages := [],
    slots := (s.slots.map (fun e => (e.1, { e.2 with newest := none }))).filter (fun e => e.2 != Slot.init e.1) }

/-- The counter bytes of a context restored from a retained store (R345, row 1), with the key state as the Vault holds it: where the
Vault is ahead of the context, the epoch was committed and the state is NORMAL (R343). -/
def State.ctrKept (s : State) (k : Nat) (img : List Byte) : List Byte :=
  let mirror := Nat.testBit (s.vaultSoonNum (0x080000 + 8 * k + 6) 1) 0
  let txc := s.txcSoon k
  let tx := if mirror && s.own then txc + 4096 else txc
  let ks := 0x080000 + 8 * k
  let f := fun (o : Nat) => ofLe ((img.drop o).take 2)
  let e := s.vaultSoonNum ks 2
  let p := s.vaultSoonNum (ks + 2) 2
  let c := (img.getD 0x180 0).toNat
  let ps : List (Nat × List Byte) := [(0x180, le (if f 0x182 = e ∧ f 0x184 = p then c else c / 8 * 8) 1), (0x182, le e 2), (0x184, le p 2),
    (0x186, le (s.vaultSoonNum (ks + 4) 2 % 4096) 2), (0x188, le (min tx 0xFFFFFFFF) 4), (0x18C, le txc 4),
    (0x194, le (s.vaultSoonNum (8 * k + 4) 4) 4)]
  ps.foldl (fun l p => patch l p.1 p.2) img

/-- The journal as it is replayed: up to the first entry whose `SEQ` does not increase (R251). -/
def replayed : List JEntry → List JEntry
  | a :: b :: t => if a.seq < b.seq then a :: replayed (b :: t) else [a]
  | l => l

/-- The image of session `k` that a replay of the journal leaves (R251): every entry above the `JSEQ` of its home copy is applied to
that; a home copy with a bad `CRC` is passed over for the newest CHECKPOINT, as a rebuild does (R238; DEDUCED, log entry 143). -/
def State.keptImage (s : State) (k : Nat) : Option (List Byte) :=
  let home := s.homeImage k
  let es := (replayed s.jrn).filter (fun e => e.session == k && e.kind != 3)
  if crcGood home && (imageOf home k || imageState home == 0) then
    some (applyEntries (es.filter (fun e => decide (imageJseq home < e.seq))) home)
  else (es.reverse.find? (fun e => e.kind == 1)).map (fun c => applyEntries (es.filter (fun e => decide (c.seq ≤ e.seq))) home)

/-- Session `k` comes back from a retained store (R216, R251); one that cannot is lost, and is restored with those still PARKED. -/
def State.keptSession (s : State) (k : Nat) : State :=
  match s.keptImage k with
  | none => if k = 0 then s else (s.park k).raise Ev.CTX_LOST k
  | some img =>
    if k = 0 then s.loadImage 0 img true
    else ((if imageState img = 0 then s.homeDrop k else s.homePut k (sealImage (s.ctrKept k img) (imageJseq img))).slotOfImage k img).ctxPlan k

/-- A retained store is taken into use (R251): the journal is replayed, and its entries are then releasable. -/
def State.storeKeep (s : State) : State :=
  let s : State := { s with storeOpen := true, hdrTail := ((s.store).map (·.jrnTail)).getD 0, hdrAt := s.tick }
  let s : State := (s.put F.CXL_GENERATION_GEN 0 s.vaultGen).putB F.CXL_LINK_STAT_RETAINED 0 true
  let ks := ((s.home.map (fun (e : Nat × Byte) => e.1 / 2048)) ++ (s.jrn.filter (fun (e : JEntry) => e.kind != 3)).map (fun (e : JEntry) => e.session)).eraseDups
  let s := ks.foldl (fun (s : State) k => s.keptSession k) s
  let s := { s with jrn := [], jrnPos := 0, restoring := true }.put F.SES_STATUS_RESTORE_SRC 0 1
  s.queueToSpool.creditWatch.restoreEnd

/-- A store that is not retained, at start-up (R223, R251): every context is not present; with the generation word at 0 every slot
starts FREE, else every slot is PARKED and asked of the Splice partner, or of the head-end at the end of start-up. -/
def State.storeFresh (s : State) : State :=
  let first := s.vaultGen == 0
  let s := s.storeNew.queueToSpool
  if first then s
  else
    let s : State := { s with restoring := true, slots := (List.range 65533).map (fun k => (k + 1, (⟨3, false, false, none⟩ : Slot))) }
    if s.partnerThere then s.parkedRestore else s

/-- The CXL link trains for the first time: in start-up step 6, once `CX_PERST_N` is released (R256, R446, R447). -/
def State.cxlTrain (s : State) : State :=
  if s.get F.PWR_START_STAT_STEP = 4 && s.up.perst && s.get F.CXL_LINK_STAT_STATE = 0 then s.put F.CXL_LINK_STAT_STATE 0 1 else s

/-- The next start-up step begins (R447). -/
def State.startStep (s : State) (n : Nat) : State :=
  ({ s with up := { s.up with stepAt := s.tick } }.put F.PWR_START_STAT_STEP 0 n).cxlTrain

/-- The link is UP (R219, R247): its width, speed and capacity. -/
def State.cxlRise (s : State) (lanes speed mib : Nat) : State :=
  let s := ((s.put F.CXL_LINK_STAT_STATE 0 2).put F.CXL_LINK_STAT_WIDTH 0 lanes).put F.CXL_LINK_STAT_SPEED 0 speed
  let s := (s.put F.CXL_DEV_SIZE_UNITS 0 (min 65535 (mib / 256))).putB F.CXL_CTRL_RETRAIN 0 false
  let s := { s with cxlDown := none }.raise Ev.CXL_LINK_UP 0
  s.raiseIf (lanes != 4 || speed != 2) Ev.CXL_LINK_DEGRADED 0

/-- CXL_LINK_UP (R219, R223, R247, R250, R251): `kept` says that the device still holds what was written to it. -/
def execCxlLinkUp (lanes : Fin 5) (speed : Fin 3) (mib : Nat) (kept : Bool) (s : State) : Out := s.answer <|
  let step := s.get F.PWR_START_STAT_STEP
  if s.up.run ≠ 2 ∨ !s.up.perst ∨ s.cxlUp ∨ step < 4 ∨ step = 7 ∨ lanes.val = 0 ∨ lanes.val = 3 then .next s
  else
    let s := s.cxlRise lanes.val speed.val mib
    let cap := min mib 262144
    if cap < 4096 then .next { s with cxlMib := cap }
    else if s.cacheOnly then
      -- the return from cache-only mode (R250)
      let s := ({ s with cxlMib := cap }.raise Ev.CXL_RETURNED 0).storeNew
      let s := s.put F.SES_STATUS_MODE 0 2
      let s := (s.cache.filter (·.filled)).foldl (fun (s : State) e => (s.onCache e.session (fun x => { x with dirty := true })).writeBack e.session) s
      .next (s.returnGo).serve
    else if !s.storeOpen then
      let s := { s with cxlMib := cap }
      let s := if s.storeKept kept then s.storeKeep else s.storeFresh
      .next ((if step = 4 then s.startStep 5 else s)).serve
    else .next s.fillsGo.serve

/-! ### Cache-only mode (R248, R249) -/

/-- A reason to enter cache-only mode holds (R248). -/
def State.cacheOnlyDue (s : State) : Bool :=
  let lost := match s.cxlDown with | some t => !s.cxlUp && decide (t + msTicks 100 ≤ s.tick) | none => false
  let drops := (s.cxlDrops.filter (fun t => decide (s.tick < t + sTicks 10))).length
  let ues := (s.ueHour.filter (fun t => decide (s.tick < t + sTicks 3600))).length
  let none4 := s.get F.PWR_START_STAT_STEP == 4 && !s.cxlUsable && decide (s.up.stepAt + msTicks 100 ≤ s.tick)
  lost || decide (3 ≤ drops) || decide (s.get F.CXL_ERR_CFG_UE_LIMIT < ues) || none4

/-- A queued update is applied directly and mirrored (R249). -/
def State.applyQueued (s : State) (u : JUpd) : State :=
  let s := if s.cached u.session then s.ctxStore u.session u.offset u.bytes else s
  let e : JEntry := ⟨s.jrnSeq, u.session, u.kind, u.holder, u.offset, u.bytes, none, 0, entryUnits u.bytes.length, true⟩
  let s := { s with jrnSeq := s.jrnSeq + 1 }.splJrn u.session e.bytesOf
  { s with outq := s.outq ++ u.follow }

/-- Cache-only mode begins (R248, R249). -/
def State.enterCacheOnly (s : State) : State :=
  let s := if s.cxlUp then s else (s.put F.CXL_LINK_STAT_STATE 0 3).putB F.CXL_CTRL_RETRAIN 0 false
  let s := ((s.put F.SES_STATUS_MODE 0 1).raise Ev.CXL_CACHE_ONLY 0).setReason 7
  let queue := s.jq
  let s : State := queue.foldl (fun (s : State) u => s.applyQueued u) { s with jq := [] }
  -- a write-back in flight is abandoned, and no slot is opened
  let s := match s.sesCmd with
    | some c => if c.op = 6 then s.sesResult 1
      else if c.op = 7 ∧ !c.run then
        { s with leaseQ := s.leaseQ.filter (fun q => !(q.session == c.session && q.holder == 24)) }.sesResult 4
      else s
    | none => s
  let s := s.onMac (fun m => { m with foreign := [] })
  let s : State := { s with
    fills := [], wbq := [], jrn := [], spool := s.spool.filter (fun r => r.rc.page == 0), pages := [], restoreQ := [],
    waitEnd := none, classHeld := false, restoring := false, spl := { s.spl with want := [] }, retrainAt := s.tick, cxlDrops := [], cxlDown := none }
  let lost := (s.slots.filter (fun e => (e.2.st == 1 || e.2.st == 2) && !s.cached e.1)).map (·.1)
  let s := lost.foldl (fun (s : State) k => s.park k) s
  let s := ({ s with rebuilds := [] }.putB F.SES_STATUS_JOURNAL_HIGH 0 false).restoreShow
  let s := (s.spoolHigh (((s.spool.getLast?).map (·.rc.cls)).getD 0)).creditWatch
  s.jobsFail [1, 4, 10] 3

/-- CXL_CACHE_ONLY (R248, R249). -/
def execCxlCacheOnly (s : State) : Out := s.answer <|
  if s.cacheOnly || !s.cacheOnlyDue then .next s
  else
    let s := if s.get F.PWR_START_STAT_STEP = 4 then s.enterCacheOnly.startStep 5 else s.enterCacheOnly
    .next s.serve

/-- The root port trains again (R247, R249); `cxlDown` is the tick at which it began. -/
def State.cxlRetrain (s : State) : State :=
  if s.cxlUp then s.cxlFall
  else { s with cxlDown := some (if s.cacheOnly then s.tick else s.cxlDown.getD s.tick) }.put F.CXL_LINK_STAT_STATE 0 1 |>.incSat
    F.CXL_LINK_CNT_RETRAINS

/-- CXL_RETRAIN_TIMER (R249). -/
def execCxlRetrainTimer (s : State) : Out := s.answer <|
  .next (if s.cacheOnly && s.bit F.SES_CTRL_AUTO_RETURN && decide (s.retrainAt + sTicks 10 ≤ s.tick)
    then { s with retrainAt := s.tick }.cxlRetrain else s)

/-- CXL_RETRAIN (R249, R256): `RETRAIN` reads 1 until training ends. -/
def execCxlRetrain (i : Iface) (w : Word) (s : State) : Out := s.answer <|
  let s := s.wlogNote i F.CXL_CTRL.addr w
  .next (if F.CXL_CTRL_RETRAIN.on w ∧ !s.bit F.CXL_CTRL_RETRAIN then (s.putB F.CXL_CTRL_RETRAIN 0 true).cxlRetrain else s)

/-- CXL_MEDIA_POLL (R220, R247, R484): `ce` corrected errors were reported since the last reading. -/
def execCxlMediaPoll (ce : Nat) (s : State) : Out := s.answer <|
  if !s.cxlUp then .next s
  else
    let old := s.get F.CXL_ERR_CNT_CE
    let l := (s.tick, ce) :: s.ceHour.filter (fun e => decide (s.tick < e.1 + sTicks 3600))
    let n := l.foldl (fun (n : Nat) e => n + e.2) 0
    let s := { s with ceHour := l.filter (fun e => e.2 != 0) }.put F.CXL_ERR_CNT_CE 0 (min 65535 n)
    let max := s.get F.CXL_ERR_CFG_CE_THRESH
    if max < n then
      let s := { s with ceAbove := s.tick }
      .next (if max < old then s else (s.raise Ev.CXL_CE_RATE 0).setReason 6)
    else .next (if s.ceAbove + sTicks 86400 ≤ s.tick then s.clearReason 6 else s)

end Sys2Proof.Machine
end

