-- ==== Sys2Proof/Machine/FilterChains.lean ====
section
/-! DEFINITION. Filter chains and coefficient sets (R53 to R79): outputs, swaps, commits, coefficient memories and sync
groups. -/
namespace Sys2Proof.Machine
open Sys2Proof

/-- CHAIN_OUTPUT (R53, R55, R62, R65, R66, R68): input samples of chain `c`, which gives the outputs that they complete; a strand
chain takes what its port chain has delivered. -/
def execChainOutput (c : Fin 758) (ins : List ChainIn) (s : State) : Out := s.answer <| .next (s.chainStep c.val ins)

/-- CHAIN_SETTLED (R68): D zero outputs have been delivered since the restart, and the next is the first computed one. -/
def execChainSettled (c : Fin 758) (ins : List ChainIn) (s : State) : Out := s.answer <|
  let x := s.chain c.val
  if !s.bit F.FC_STATUS_SETTLED (fcO c.val) && !x.held && decide (x.settleN ≤ x.outs) then
    .next (s.chainStep c.val ins)
  else .next s

/-- FADE_END (R62): N outputs of the fade are out, so only the new set runs. -/
def execFadeEnd (c : Fin 758) (s : State) : Out := s.answer <| .next (s.fadeEnd c.val)

/-! ### Swaps -/

/-- FC_SWAP (R63, R64): a request with `GO` = 1 captures the standby set.  It is refused, replaces the pending swap, or is judged at
the chain's next output boundary. -/
def execFcSwap (i : Iface) (c : Fin 758) (w : Word) (s : State) : Out := s.answer <|
  let o := fcO c.val
  let s := s.wlogNote i (F.FC_SWAP.addr + o) w
  if !F.FC_SWAP_GO.on w then .next s
  else
    let k := s.get F.FC_BANK_STANDBY_SET o
    let fade := F.FC_SWAP_MODE.on w
    let len := F.FC_SWAP_FADE_LEN.of w
    if !s.setValid c.val k || (fade && (decide (len < 16) || decide (4096 < len)))
        || decide ((loadLimit (engineOfChain c.val) : Rat) < s.loadWith c.val k) then
      let s := (s.putB F.FC_FLAGS_SWAP_REFUSED o true).put F.FC_LAST_SWAP_REFUSED 0 c.val
      .next (s.raise Ev.FC_SWAP_REFUSED c.val)
    else if s.bit F.FC_BANK_PENDING o then .next (s.swapDefer c.val ⟨k, fade, len⟩)
    else .next (s.onChain c.val (fun x => { x with swapReq := some ⟨k, fade, len⟩ }))

/-- SWAP_START (R64): the pending swap of chain `c` is judged while the chain stands at an output boundary; a request that has not yet
met one waits for it. -/
def execSwapStart (c : Fin 758) (s : State) : Out := s.answer <|
  if s.atBoundary c.val && (s.chain c.val).swapReq.isNone then .next (s.swapJudge c.val) else .next s

/-! ### Commits -/

/-- Whether the strand chains of equal number agree in the triple that strand chain `c` belongs to (rule 0x36). -/
def tripleChainsEq (s : State) (view : Nat → Word) (c : Nat) : Bool :=
  if c < 144 ∨ 720 ≤ c then true
  else match s.tripleOf ((c - 144) / 4) with
    | none => true
    | some lead =>
      let ch := fun n a => view (a + fcO (144 + 4 * (lead + n) + (c - 144) % 4))
      [F.FC_CFG.addr, F.FC_NCO.addr].all (fun a => ch 0 a == ch 1 a && ch 1 a == ch 2 a)

/-- The rules of an FC commit (R76) for the chains of its scope. -/
def fcRules (chains : List Nat) (s : State) (cells : List (Nat × Word)) : Option (Nat × Nat) :=
  let view := s.after cells
  let per := fun (f : Nat → Bool) (r : Nat) => chains.map (fun c => (f c, r, c))
  let thr := fun c =>
    let o := fcO c
    let u := F.FC_THR_UPPER_UPPER.afterI view o
    let l := F.FC_THR_LOWER_LOWER.afterI view o
    let h : Int := F.FC_THR_HYST_HYST.afterOf view o
    F.FC_THR_CFG_UPPER_EN.afterOf view o == 0 || F.FC_THR_CFG_LOWER_EN.afterOf view o == 0 || decide (l + h < u - h)
  let pos := fun c =>
    let o := fcO c
    F.FC_THR_CFG_METRIC.afterOf view o == 0
      || ((F.FC_THR_CFG_UPPER_EN.afterOf view o == 0 || decide (0 ≤ F.FC_THR_UPPER_UPPER.afterI view o))
        && (F.FC_THR_CFG_LOWER_EN.afterOf view o == 0 || decide (0 ≤ F.FC_THR_LOWER_LOWER.afterI view o)))
  firstFail (
    per (fun c => decide (ratioOf view c ≤ 4096)) 0x30
    ++ (chains.map engineOfChain).eraseDups.map (fun e =>
        (decide (s.engineLoad view e ≤ loadLimit e), 0x31, (chains.find? (fun c => engineOfChain c == e)).getD 0))
    ++ per thr 0x32 ++ per pos 0x33
    ++ per (fun c => (rwsAddrs 3 c).all (fun a => rsvInstance a || shadowLegal a (view a))) 0x34
    ++ per (fun _ => !s.commitPending 3) 0x35
    ++ per (tripleChainsEq s view) 0x36)

/-- FC_COMMIT (R75, R76): one chain, or every chain of its engine; a reserved chain number commits nothing. -/
def execFcCommit (i : Iface) (w : Word) (s : State) : Out := s.answer <|
  let s := s.wlogNote i F.FC_COMMIT.addr w
  let c := F.FC_COMMIT_CHAIN.of w
  if 758 ≤ c then .next s
  else
    let chains := if F.FC_COMMIT_SCOPE.on w then chainsOf (engineOfChain c) else [c]
    .next (s.commit i 3 chains (fcRules chains))

/-- FC_COMMIT_APPLY (R75): an output boundary of chain `c` with no fade in progress; a changed ratio restarts it. -/
def execFcCommitApply (c : Fin 758) (s : State) : Out := s.answer <|
  if s.atBoundary c.val then .next ((s.fadeEnd c.val).fcApply c.val) else .next s

/-! ### Coefficient memories -/

/-- The chains whose coefficients lie in memory `m` (R58). -/
def memChains (m : Nat) : List Nat :=
  if m < 9 then chainsOf m else if m = 9 then chainsOf 9 else (List.range 32).map (· + 726)

/-- Whether set `k` of memory `m` is in use (R60), or shapes a transmission in progress (R121). -/
def State.setInUse (s : State) (m k : Nat) : Bool :=
  !s.loaderWrites && ((memChains m).any (fun c =>
    let o := fcO c
    s.activeSet c == k || (s.bit F.FC_BANK_FADING o && (s.chain c).fadeOld == k)
      || (s.bit F.FC_BANK_PENDING o && s.get F.FC_BANK_PENDING_SET o == k)
      || ((s.chain c).swapReq.map (·.set)) == some k)
    || (decide (m < 9) && (List.range 16).any (fun j =>
        let p := 16 * m + j
        s.portSt p == 3 && s.bit F.LP_SHAPE_EN (lpO p) && s.get F.LP_SHAPE_SET (lpO p) == k)))

/-- Whether word `n` of memory `m` lies in a set in use (R60). -/
def State.wordInUse (s : State) (m n : Nat) : Bool :=
  (List.range 64).any (fun k =>
    let o := dirO m k
    let b := s.get F.FC_SET_DIR_BASE o
    decide (b ≤ n) && decide (n ≤ b + s.get F.FC_SET_DIR_TAPS_M1 o) && s.setInUse m k)

/-- A refused write (R60): counted, its memory recorded, EV043. -/
def State.coefBusy (s : State) (m : Nat) : State :=
  ((s.incSat F.FC_COEF_STAT_BLOCKED).put F.FC_COEF_STAT_MEM 0 m).raise Ev.FC_COEF_BUSY m

/-- A write of one coefficient word (R58, R60). -/
def State.coefStore (s : State) (m n : Nat) (v : BitVec 18) : State :=
  if s.wordInUse m n then s.coefBusy m
  else { s with coefs := tset (fun _ => (0 : BitVec 18)) s.coefs (m * 65536 + n) v }

/-- COEF_WRITE (R58, R60): a write to word `k` of the window of cord `m`. -/
def execCoefWrite (i : Iface) (m : Fin 9) (k : BitVec 16) (w : Word) (s : State) : Out := s.answer <|
  let s := s.wlogNote i (0x400000 + 0x40000 * m.val + 4 * k.toNat) w
  .next (s.coefStore m.val k.toNat (w.setWidth 18))

/-- FC_AUX_DATA_ACCESS (R60, R78): a read or a write of the word that `FC_AUX_ADDR` names, which then steps on with
`AUTO_INC`. -/
def execFcAuxDataAccess (i : Iface) (wr : Option Word) (s : State) : Out := s.answer <|
  let m := if s.bit F.FC_AUX_ADDR_MEM then 10 else 9
  let n := s.get F.FC_AUX_ADDR_WORD
  let s := match wr with
    | some w => (s.wlogNote i F.FC_AUX_DATA.addr w).coefStore m n (w.setWidth 18)
    | none =>
      let v := tget (fun _ => (0 : BitVec 18)) s.coefs (m * 65536 + n)
      { s with reply := tset (fun _ => 0) s.reply i.id (v.setWidth 32) }
  if s.bit F.FC_AUX_ADDR_AUTO_INC then
    .next (s.put F.FC_AUX_ADDR_WORD 0 (if n + 1 = (if m = 9 then 4096 else 8192) then 0 else n + 1))
  else .next s

/-- FC_SET_DIR_WRITE (R59, R60): a descriptor of a set in use is not written, nor is one that runs past its memory. -/
def execFcSetDirWrite (i : Iface) (m : Fin 11) (k : Fin 64) (w : Word) (s : State) : Out := s.answer <|
  let a := F.FC_SET_DIR.addr + dirO m.val k.val
  let s := s.wlogNote i a w
  if s.setInUse m.val k.val then .next (s.coefBusy m.val) else .next (s.fieldWrite a w)

/-! ### Sync groups -/

/-- FC_SYNC_CMD (R73): triggers the named groups, whatever `ARMED` holds, stamped at the tick of the write. -/
def execFcSyncCmd (i : Iface) (w : Word) (s : State) : Out := s.answer <|
  let s := s.wlogNote i F.FC_SYNC_CMD.addr w
  .next ((List.range 16).foldl (fun s g => if 1 ≤ g && w.getLsbD g then s.syncTrigger g s.tick else s) s)

/-- SYNC_RESTART (R74): the earliest restart instant of group `g`'s trigger has come, at the sample stamped `t`: the group's registers
show it, but the time of a group that holds no chain stays.  Each chain restarts as its own first sample enters it. -/
def execSyncRestart (g : Fin 16) (t : Nat) (s : State) : Out := s.answer <|
  match s.syncDue.find? (fun d => d.group == g.val && decide (d.due ≤ t)) with
  | none => .next s
  | some d =>
    if s.tick < t ∨ d.done then .next s
    else if (s.syncMembers g.val).isEmpty then
      let s := { s with syncDue := s.syncDue.erase d }
      .next (s.syncShow g.val (s.getTime F.FC_SYNC_TIME_LO (8 * g.val)) d.late)
    else
      let s := { s with syncDue := s.syncDue.map (fun x => if x == d then { x with done := true } else x) }
      .next (s.syncShow g.val t d.late)

end Sys2Proof.Machine
end

