-- ==== Sys2Proof/Machine/Halyard.lean ====
section
/-! DEFINITION. Halyard's commands (R403 to R414, R439): the ports, the frames that arrive, the negotiation, MACsec's SAs, the commit. -/
namespace Sys2Proof.Machine
open Sys2Proof

/-! ### The ports (R403, R404) -/

/-- Port `p` is UP. -/
def State.halUp (s : State) (p : Nat) : Bool := (s.get F.HAL_STATUS_LINK).testBit p

/-- The sending port that `PORTS` gives (R404); 3: none. -/
def State.halChoice (s : State) : Nat :=
  let h0 := s.halUp 0
  let h1 := s.halUp 1
  match s.get F.HAL_CFG_PORTS with
  | 0 => if h0 then 0 else 3
  | 1 => if h1 then 1 else 3
  | _ => if h0 && s.hal.back then 0 else if h1 then 1 else if h0 then 0 else 3

/-- `PORTS` names port `p`, so that frames are accepted on it (R404). -/
def State.halNames (s : State) (p : Nat) : Bool := s.get F.HAL_CFG_PORTS == p || s.get F.HAL_CFG_PORTS == 2

/-- `SENDING` follows the ports; the moment since which there is none is kept (R409). -/
def State.halChoose (s : State) : State :=
  let n := s.halChoice
  let s := s.put F.HAL_STATUS_SENDING 0 n
  s.onHal (fun h => { h with
    back := if n = 0 then true else if n = 1 then false else h.back,
    downAt := if n = 3 then (match h.downAt with | some t => some t | none => some s.tick) else none })

/-- Halyard runs: it is enabled and start-up has started it (R403, R447). -/
def State.halRuns (s : State) : Bool := s.bit F.HAL_CTRL_EN && s.bit F.GLB_STATUS_READY

/-- HAL_LINK_UP (R403, R409): a port has block lock and no fault; HELLO goes out at once when it is the sending port. -/
def execHalLinkUp (p : Fin 2) (s : State) : Out := s.answer <|
  let n := p.val
  if !s.halRuns || s.halUp n then .next s
  else
    let s := (s.putBit F.HAL_STATUS_LINK 0 n true).onHal (fun h => if n = 0 then { h with h0At := s.tick } else h)
    let s := (s.raise Ev.HAL_LINK_UP n).halChoose
    .next (if s.halPort = some n ∧ !s.bit F.HAL_STATUS_NEGOTIATED then s.halHello else s)

/-- A port leaves UP (R403). -/
def State.halDown (s : State) (n : Nat) : State :=
  if !s.halUp n then s
  else
    let s := ((s.putBit F.HAL_STATUS_LINK 0 n false).raise Ev.HAL_LINK_DOWN n).halChoose
    s.chkLinkDown (fun stream sel => (stream == 5 || stream == 6) && sel == n)

/-- HAL_LINK_DOWN (R403). -/
def execHalLinkDown (p : Fin 2) (s : State) : Out := s.answer <| .next (s.halDown p.val)

/-- HAL_PORT_RETURN (R404): under code 2, H0 has been UP for 10 s again. -/
def execHalPortReturn (s : State) : Out := s.answer <|
  .next (if s.get F.HAL_CFG_PORTS = 2 ∧ s.get F.HAL_STATUS_SENDING = 1 ∧ s.halUp 0 ∧ s.hal.h0At + sTicks 10 ≤ s.tick
    then (s.onHal (fun h => { h with back := true })).halChoose else s)

/-! ### MACsec on receipt (R413; the frame format of IEEE 802.1AE is PRESUMED, log entry 31) -/

/-- The PN that a receive SA takes a frame's 32 bits for: with XPN the nearest one not far below the next expected. -/
def rxPn (xpn : Bool) (next low32 : Nat) : Nat :=
  if !xpn then low32
  else
    let hi := next / 2 ^ 32
    if low32 + 2 ^ 31 ≤ next % 2 ^ 32 then (hi + 1) * 2 ^ 32 + low32 else hi * 2 ^ 32 + low32

/-- A frame fails validation: it is dropped and counted, and EV243 may be raised (R413). -/
def State.msecBad (s : State) (p : Nat) (icv : Bool) : State :=
  (if icv then s.incSat F.HAL_MSEC_CNT_ICV_FAIL (msO p) else s.incSat F.HAL_MSEC_CNT_OTHER (msO p)).msecAlert p

/-- A frame on a port with MACsec: the validated frame without its SecTAG and ICV, or nothing.  DESIGN CHOICE, log entry 135: while the
engine does not compute it is lost. -/
def State.msecTake (s : State) (p : Nat) (frame : List Byte) : State × Option (List Byte) :=
  let bad := fun (icv : Bool) => (s.msecBad p icv, (none : Option (List Byte)))
  let tci := (frame.getD 14 0).toNat
  let sc := Nat.testBit tci 5
  let n := if sc then 28 else 20
  let rxSci := le (s.get F.HAL_MSEC_RX_SCI_LO_SCI (msO p)) 4 ++ le (s.get F.HAL_MSEC_RX_SCI_HI_SCI (msO p)) 4
  let xpn := s.bit F.HAL_MSEC_CFG_XPN (msO p)
  if !s.engineUp then (s, none)
  else if (frame.drop 12).take 2 ≠ [0x88, 0xE5] ∨ frame.length < n + 16 ∨ Nat.testBit tci 7 then bad false
  else if sc && (frame.drop 20).take 8 != rxSci then bad false
  else match s.hal.sas.find? (fun a => a.port == p && !a.tx && a.on && a.an == tci % 4) with
    | none => bad false
    | some a =>
      let pn := rxPn xpn a.pn (beNum ((frame.drop 16).take 4))
      if s.bit F.HAL_MSEC_CFG_REPLAY_EN (msO p) ∧ pn < a.low then bad false
      else
        let body := frame.drop n
        let sealed' := body.take (body.length - 16)
        let tag := body.drop (body.length - 16)
        let iv := a.iv xpn rxSci pn
        let enc := Nat.testBit tci 3
        let key := s.useKey a.key
        let r := if enc then gcmDec key iv (frame.take n) sealed' tag else gcmDec key iv (frame.take n ++ sealed') [] tag
        if !r.2 then bad true
        else
          let next := max a.pn (pn + 1)
          let low := max a.low (next - 1 - s.get F.HAL_MSEC_WINDOW_WINDOW (msO p))
          (s.maskUse.onHal (fun h => { h with sas := h.sas.map (fun x => if x = a then { x with pn := next, low := low } else x) }),
            some (frame.take 12 ++ (if enc then r.1 else sealed')))

/-! ### Framing on receipt (R405, R406) -/

/-- The payload of a frame that the filter of R405 accepts; a tagged frame is dropped (R403; the tag's EtherTypes are PRESUMED, log
entry 31). -/
def State.halFilter (s : State) (frame : List Byte) : Option (List Byte) :=
  let rest := frame.drop 14
  let ip := rest.drop 40
  let len := beNum ((rest.drop 4).take 2)
  if frame.length < 14 ∨ frame.take 6 ≠ s.halMac ∨ [[0x81, 0x00], [0x88, 0xA8]].contains ((frame.drop 12).take 2) then none
  else if !s.bit F.HAL_CFG_UDP then
    if beNum ((frame.drop 12).take 2) = s.get F.HAL_ETHERTYPE_TYPE then some rest else none
  else if (frame.drop 12).take 2 ≠ [0x86, 0xDD] ∨ (rest.getD 0 0).toNat / 16 ≠ 6 ∨ rest.getD 6 0 ≠ 17 then none
  else if (rest.drop 24).take 16 ≠ s.halIp F.HAL_IP6_SRC_ADDR ∨ beNum ((ip.drop 2).take 2) ≠ s.get F.HAL_UDP_LOCAL_PORT then none
  else if ip.length < len ∨ len < 8 ∨ beNum ((ip.drop 4).take 2) ≠ len then none
  else if beNum ((ip.drop 6).take 2) = 0
      ∨ inetSum ((rest.drop 8).take 32 ++ be len 4 ++ [0, 0, 0, 17] ++ ip.take len) ≠ 0 then none
  else some ((ip.take len).drop 8)

/-- The counted records of a payload, each with its header and body; nothing where one reaches past the end (R406). -/
def halRecords (l : List Byte) : Nat → Option (List (List Byte × List Byte))
  | 0 => some []
  | n + 1 =>
    let len := ofLe ((l.drop 4).take 2)
    if l.length < 32 + len then none
    else (halRecords (l.drop (32 + len)) n).map (fun t => (l.take 32, (l.drop 32).take len) :: t)

/-- A payload is taken: a header that fails drops the frame whole (R406). -/
def State.halPayloadTake (s : State) (p : Nat) (l : List Byte) : State :=
  let ver := (l.getD 2 0).toNat
  let count := (l.getD 3 0).toNat
  let neg := s.bit F.HAL_STATUS_NEGOTIATED
  match (if l.length < 8 then none else halRecords (l.drop 8) count) with
  | none => s.incSat F.HAL_CNT_DROP_FORMAT
  | some rs =>
    if l.take 2 ≠ [0x4B, 0x48] ∨ count = 0 ∨ (neg ∧ s.get F.HAL_STATUS_VERSION = 0 ∧ 1 < count)
        ∨ (ver ≠ 0 ∧ !(neg && ver == s.get F.HAL_STATUS_VERSION + 1))
        ∨ (ver = 0 ∧ !rs.all (fun r => r.1.headD 0 == 0x21)) then s.incSat F.HAL_CNT_DROP_FORMAT
    else rs.foldl (fun (s : State) r => s.halTake (if p = 0 then .h0 else .h1) r.1 r.2) s

/-- HAL_FRAME_RECEIVE (R403 to R408, R413): a frame arrives on a port. -/
def execHalFrameReceive (p : Fin 2) (frame : List Byte) (s : State) : Out := s.answer <|
  let n := p.val
  if !s.halUp n then .next s
  else if !s.halNames n then .next (s.incSat F.HAL_CNT_DROP_FILTER)
  else
    let r := if s.msecOn n then s.msecTake n frame else (s, some frame)
    match r.2 with
    | none => .next r.1
    | some f =>
      let s := r.1.snoop 5 n f
      match s.halFilter f with
      | none => .next (s.incSat F.HAL_CNT_DROP_FILTER)
      | some l => .next (s.halPayloadTake n l).serve

/-! ### The negotiation (R409, R410) -/

/-- HAL_HELLO_SEND (R409). -/
def execHalHelloSend (s : State) : Out := s.answer <|
  .next (if s.bit F.HAL_STATUS_NEGOTIATED ∨ s.halPort.isNone ∨ s.tick < s.hal.helloAt + sTicks 1 then s else s.halHello)

/-- The negotiation ends; HELLO resumes (R409). -/
def State.negotiationEnd (s : State) : State := (s.putB F.HAL_STATUS_NEGOTIATED 0 false).put F.HAL_STATUS_VERSION 0 0

/-- HAL_NEGOTIATION_END (R409): no sending port has been UP for 1 s. -/
def execHalNegotiationEnd (s : State) : Out := s.answer <|
  match s.hal.downAt with
  | none => .next s
  | some t => .next (if s.bit F.HAL_STATUS_NEGOTIATED ∧ t + sTicks 1 ≤ s.tick then s.negotiationEnd else s)

/-- HAL_VERSION (R409, R410): a VERSION record. -/
def execHalVersion (version : BitVec 8) (s : State) : Out := s.answer <|
  if !s.halRuns then .next s else .next ((s.incWrap F.HAL_CNT_RX_RECORDS).halVersion version.toNat).serve

/-- HAL_COMMAND (R415 to R418): a COMMAND record whose header and CRC are good arrives on a port, with its `FLAGS`. -/
def execHalCommand (p : Fin 2) (flags : BitVec 8) (body : List Byte) (s : State) : Out := s.answer <|
  if !s.halUp p.val then .next s
  else if !s.halNames p.val then .next (s.incSat F.HAL_CNT_DROP_FILTER)
  else if !s.bit F.HAL_STATUS_NEGOTIATED then .next (s.incSat F.HAL_CNT_DROP_NOT_NEGOTIATED)
  else if body.length < 8 then .next (s.incSat F.HAL_CNT_DROP_FORMAT)
  else .next ((s.incWrap F.HAL_CNT_RX_RECORDS).halCommand (if p.val = 0 then .h0 else .h1) flags.toNat body)

/-! ### The commit (R439) -/

/-- The rules of R439. -/
def halRules (s : State) (cells : List (Nat × Word)) : Option (Nat × Nat) :=
  let view := s.after cells
  let mac := F.HAL_MAC_LO_MAC.afterOf view 0 + 2 ^ 32 * F.HAL_MAC_HI_MAC.afterOf view 0
  let udp := F.HAL_CFG_UDP.afterOf view 0 == 1
  let ports := F.HAL_UDP_LOCAL_PORT.afterOf view 0 != 0 && F.HAL_UDP_PEER_PORT.afterOf view 0 != 0
  firstFail [(mac != 0 && mac % 2 == 0, 0xC0, 0), (!udp || ports, 0xC1, 0),
    (decide (F.HAL_CFG_VER_MIN.afterOf view 0 ≤ F.HAL_CFG_VER_MAX.afterOf view 0), 0xC2, 0),
    ((rwsAddrs 13 0).all (fun a => shadowLegal a (view a)), 0xC3, 0), (!s.commitPending 13, 0xC4, 0)]

/-- Accepted HAL shadows apply (R439): between frames, so at once.  A change of the ports, the framing or the versions ends the
negotiation. -/
def State.halApply (s : State) : State :=
  if !s.instPending 13 0 then s
  else
    let m := bitsMask 3 0 ||| bitsMask 7 4
    let old := s.live F.HAL_CFG.addr &&& m
    let s := s.applyInst 13 0
    let s := if s.live F.HAL_CFG.addr &&& m ≠ old then s.negotiationEnd else s
    s.halChoose

/-- HAL_COMMIT (R439). -/
def execHalCommit (i : Iface) (w : Word) (s : State) : Out := s.answer <|
  let s := s.wlogNote i F.HAL_COMMIT.addr w
  .next (if F.HAL_COMMIT_GO.on w then (s.commit i 13 [0] halRules).halApply else s)

/-- A write of `HAL_CTRL` (R403): with `EN` = 0 both ports are off. -/
def State.halCtrl (s : State) (i : Iface) (w : Word) : State :=
  let s := (s.wlogNote i F.HAL_CTRL.addr w).fieldWrite F.HAL_CTRL.addr w
  if s.bit F.HAL_CTRL_EN then s else (s.halDown 0).halDown 1

/-! ### MACsec's SAs (R414) -/

/-- `HAL_MSEC_STAT` of a port follows its SAs. -/
def State.msecShow (s : State) (p : Nat) : State :=
  let rx := s.hal.sas.foldl (fun (n : Nat) a => if a.port = p ∧ !a.tx ∧ a.on then n ||| 2 ^ a.an else n) 0
  let s := s.put F.HAL_MSEC_STAT_RX_AN (msO p) rx
  match s.txSa p with
  | some a => (s.put F.HAL_MSEC_STAT_TX_AN (msO p) a.an).putB F.HAL_MSEC_STAT_TX_VALID (msO p) true
  | none => (s.put F.HAL_MSEC_STAT_TX_AN (msO p) 0).putB F.HAL_MSEC_STAT_TX_VALID (msO p) false

/-- The SA that `HAL_MSEC_SA_SEL` selects. -/
def State.saSel (s : State) (p : Nat) (a : SaS) : Bool :=
  a.port == p && a.an == s.get F.HAL_MSEC_SA_SEL_AN (msO p) && a.tx == s.bit F.HAL_MSEC_SA_SEL_DIR (msO p)

/-- A write of `HAL_MSEC_SA_CMD` of port `p` (R414).  More than one bit is reserved, and a third SA of a direction has no place: nothing
happens. -/
def State.msecCmd (s : State) (i : Iface) (p : Nat) (w : Word) : State :=
  let s := s.wlogNote i (F.HAL_MSEC_SA_CMD.addr + msO p) w
  let tx := s.bit F.HAL_MSEC_SA_SEL_DIR (msO p)
  match w.toNat % 8 with
  | 1 =>
    let rest := s.hal.sas.filter (fun a => !s.saSel p a)
    if 2 ≤ (rest.filter (fun a => a.port == p && a.tx == tx)).length then s
    else
      let words := fun (f : Fld) n => (List.range n).flatMap (fun k => le (s.get f (msO p + wO k)) 4)
      let xpn := s.bit F.HAL_MSEC_CFG_XPN (msO p)
      let pn := s.get F.HAL_MSEC_PN_LO_PN (msO p) + (if xpn then 2 ^ 32 * s.get F.HAL_MSEC_PN_HI_PN (msO p) else 0)
      let a : SaS := ⟨p, tx, s.get F.HAL_MSEC_SA_SEL_AN (msO p), s.share (words F.HAL_MSEC_KEY_DATA 8), words F.HAL_MSEC_SALT_DATA 3,
        s.get F.HAL_MSEC_SSCI_SSCI (msO p), pn, false, pn⟩
      (s.maskUse.onHal (fun h => { h with sas := rest ++ [a] })).msecShow p
  | 2 =>
    if !s.hal.sas.any (s.saSel p) then s
    else
      let s := s.onHal (fun h => { h with sas := h.sas.map (fun a =>
        if s.saSel p a then { a with on := true } else if tx ∧ a.port = p ∧ a.tx then { a with on := false } else a) })
      let s := if tx then (s.putB F.HAL_MSEC_STAT_PN_HIGH (msO p) false).putB F.HAL_MSEC_STAT_PN_EXHAUSTED (msO p)
          (match s.txSa p with | some a => decide (s.lastPn p ≤ a.pn) | none => false) else s
      s.msecShow p
  | 4 => (s.onHal (fun h => { h with sas := h.sas.filter (fun a => !s.saSel p a) })).msecShow p
  | _ => s

/-- HAL_MSEC_INSTALL (R414). -/
def execHalMsecInstall (i : Iface) (p : Fin 2) (w : Word) (s : State) : Out := s.answer <| .next (s.msecCmd i p.val w)
/-- HAL_MSEC_ENABLE (R414). -/
def execHalMsecEnable (i : Iface) (p : Fin 2) (w : Word) (s : State) : Out := s.answer <| .next (s.msecCmd i p.val w)
/-- HAL_MSEC_DISABLE (R414). -/
def execHalMsecDisable (i : Iface) (p : Fin 2) (w : Word) (s : State) : Out := s.answer <| .next (s.msecCmd i p.val w)

end Sys2Proof.Machine
end

