-- ==== Sys2Proof/Machine/SelfTest.lean ====
section
/-! DEFINITION. Self-test and replace requests (R469 to R488). -/
namespace Sys2Proof.Machine
open Sys2Proof

/-- SELF_TEST_STEP (R469 to R481): one step of the SELF_TEST job in slot `k`. -/
def execSelfTestStep (k : Fin 16) (o : TestObs) (s : State) : Out := s.answer <| .next (s.tstStep k.val 3 o)

/-- A round of cord `c` has a port in TX, or a listen window is open on it (R478). -/
def State.cordTalks (s : State) (c : Nat) : Bool :=
  (List.range 16).any (fun j => s.portSt (16 * c + j) == 3) || (List.range 64).any (fun j => (s.rx (64 * c + j)).listen)

/-- A run of cord engine `c` is in progress in some slot. -/
def State.testsCord (s : State) (c : Nat) : Bool :=
  (List.range 16).any (fun k => match s.run k with | some r => r.target == c | none => false)

/-- TEST_CORD_MOVE (R478): cord `c` moves to CE9 for the test of its engine, or back; when CE9 comes free, a marked cord takes
it. -/
def execTestCordMove (c : Fin 9) (toSpare : Bool) (s : State) : Out := s.answer <|
  if s.cordTalks c.val then .next s
  else if toSpare then
    .next (if !s.bit F.BST_SUBST_VALID && !s.marked 9 && s.testsCord c.val then s.spareMove c.val true false else s)
  else
    .next (if s.bit F.BST_SUBST_VALID && !s.bit F.BST_SUBST_PERMANENT && s.get F.BST_SUBST_CORD == c.val
      then (s.spareMove c.val false false).ladder else s)

/-- SELF_TEST_PERIODIC_START (R474): a job over `BST_TARGETS` in the module's own slots. -/
def execSelfTestPeriodicStart (s : State) : Out := s.answer <|
  if s.bit F.BST_CFG_AUTO_EN && s.bit F.GLB_STATUS_READY
      && decide (s.tst.periodAt + sTicks (3600 * s.get F.BST_CFG_PERIOD_H) ≤ s.tick) then
    let s := { s with tst := { s.tst with periodAt := s.tick } }
    let bits := s.get F.BST_TARGETS_TARGETS + 2 ^ 25 * s.get F.BST_TARGETS_TARGET25
    let total := ((List.range 30).filter (fun t => bits.testBit t)).foldl (fun (n : Nat) t => n + tstSteps t) 0
    match s.jobStart 3 0 4 0 [bits] total true with
    | (s, some _) => .next s
    | (s, none) => .next (s.raise Ev.BLY_SLOTS_FULL 0)
  else .next s

/-- The segment maps of targets 13 and 25 are cleared with their mark (R485). -/
def State.segClear (s : State) (t : Nat) : State :=
  if t = 13 then s.vaultWrite 0x100820 (List.replicate 64 0)
  else if t = 25 then s.vaultWrite 0x100818 [0, 0, 0, 0] else s

/-- BST_CLEAR_MARK (R482): the mark goes, the target returns to service, and the ladder follows. -/
def execBstClearMark (i : Iface) (w : Word) (s : State) : Out := s.answer <|
  let s := s.wlogNote i F.BST_CMD.addr w
  let t := F.BST_CMD_TARGET.of w
  if F.BST_CMD_CLEAR_MARK.on w && decide (t < 30) && s.marked t then
    let s := (((s.putBit F.BST_MARKED 0 t false).putB F.BST_RESULT_MARKED (wO t) false).storeMarks).segClear t
    let s := if t = 12 then s.unfence else s
    .next s.ladder
  else .next s

/-- Active reasons are acknowledged (R487): EV255 and a log entry. -/
def State.replaceAck (s : State) (bits : Nat) : State :=
  let act := (List.range 9).filter (fun b => bits.testBit b && (s.get F.BST_REPLACE_STAT_REASONS).testBit b)
  if act.isEmpty then s
  else
    let s := (act.foldl (fun (s : State) b => s.putBit F.BST_REPLACE_ACKED 0 b true) s).storeReasons
    let s := s.raise Ev.REPLACE_ACKED (act.foldl (fun (n : Nat) b => n + 2 ^ b) 0)
    s.logEntry 0x0102 2 3 4 (le (s.get F.BST_REPLACE_STAT_REASONS) 4 ++ le (s.get F.BST_REPLACE_ACKED_ACKED) 4) s.tick

/-- BST_REPLACE_ACK (R487). -/
def execBstReplaceAck (i : Iface) (w : Word) (s : State) : Out := s.answer <|
  .next ((s.wlogNote i F.BST_REPLACE_ACK.addr w).replaceAck (F.BST_REPLACE_ACK_REASONS.of w))

/-- BST_REPLACE_CLR (R484): bit 4 clears the Vault reason. -/
def execBstReplaceClr (i : Iface) (w : Word) (s : State) : Out := s.answer <|
  let s := s.wlogNote i F.BST_REPLACE_CLR.addr w
  .next (if F.BST_REPLACE_CLR_VAULT.on w then s.clearReason 4 else s)

/-- REPLACE_REQUEST_REPEAT (R486): every `REPEAT_MIN` minutes while a reason is unacknowledged. -/
def execReplaceRequestRepeat (s : State) : Out := s.answer <|
  let open' := s.live F.BST_REPLACE_STAT.addr &&& ~~~ s.live F.BST_REPLACE_ACKED.addr &&& bitsMask 8 0
  if open' ≠ 0 ∧ s.repeatAt + sTicks (60 * s.get F.BST_REPLACE_CFG_REPEAT_MIN) ≤ s.tick then
    .next (({ s with repeatAt := s.tick }.incSat F.BST_REPLACE_STAT_REPEATS).sendReplace)
  else .next s

/-- QUICK_SELF_TEST (R447, R473): start-up step 5 tests every target, the context cache first, and step 6 begins.  `obs` holds
what each target shows, by number. -/
def execQuickSelfTest (obs : List QuickObs) (s : State) : Out := s.answer <|
  if s.get F.PWR_START_STAT_STEP ≠ 3 then .next s
  else
    let order := 13 :: (List.range 30).filter (· != 13)
    let s := order.foldl (fun (s : State) t => s.quickOne t (obs.getD t ⟨0, 0, true, []⟩)) s
    -- a start-up that began again (R448) finds the CXL link as it was
    .next ((s.putB F.BST_STATUS_QUICK_DONE 0 true).startStep (if s.cacheOnly || (s.cxlUp && s.storeOpen) then 5 else 4))

end Sys2Proof.Machine
end

