-- ==== Sys2Proof/Machine/Splice.lean ====
section
/-! DEFINITION. Splice pairs: ownership, claims, the mirror and its audit (R370 to R381, R397, R399). -/
namespace Sys2Proof.Machine
open Sys2Proof

/-! ### The ownership watchdog (R371) -/

/-- The module has got past start-up step 4 with an image (R371, R447, R452). -/
def State.imageIn (s : State) : Bool :=
  s.up.run == 2 && decide (3 ≤ s.get F.PWR_START_STAT_STEP) && s.get F.PWR_START_STAT_STEP != 7

/-- OWNERSHIP_REFRESH (R371): every 1 ms; a SOLO module whose watchdog had expired owns again. -/
def execOwnershipRefresh (s : State) : Out := s.answer <|
  if !s.imageIn || s.up.dead || decide (s.tick < s.spl.refreshAt + msTicks 1) then .next s
  else
    let s := s.onSpl (fun x => { x with refreshAt := s.tick, expired := false })
    .next (if s.role = 0 then s.ownGain else s)

/-- OWN_WATCHDOG_EXPIRY (R371): 4 ms pass without a refresh.  A role that owns or claims is given up: the signal is inactive, so the
role is ISOLATED (DESIGN CHOICE, log entry 43). -/
def execOwnWatchdogExpiry (s : State) : Out := s.answer <|
  if s.up.run ≠ 2 ∨ s.spl.expired ∨ s.tick < s.spl.refreshAt + msTicks 4 then .next s
  else
    let s := (s.onSpl (fun x => { x with expired := true })).ownLose
    let s := if s.spl.claimAt.isSome then s.withdraw else s
    .next ((if s.role = 2 then s.put F.SPL_STATUS_ROLE 0 5 else s).driveOwnOut false)

/-! ### Claims (R373) -/

/-- SPLICE_START_WAIT_END (R373): the link has not come up within `START_WAIT`. -/
def execSpliceStartWaitEnd (s : State) : Out := s.answer <|
  match s.spl.start with
  | none => .next s
  | some t =>
    if s.role ≠ 1 ∨ s.spl.claimAt.isSome ∨ s.tick < t + msTicks (10 * s.get F.SPL_CFG_START_WAIT) then .next s
    else if s.ownIn then .next ((s.onSpl (fun x => { x with start := none })).put F.SPL_STATUS_ROLE 0 5)
    else .next s.claim

/-- TAKEOVER_TIMEOUT (R373): an eligible standby hears nothing for 8 ms. -/
def execTakeoverTimeout (s : State) : Out := s.answer <|
  .next (if s.takesOver && s.spl.retryAt.isNone then s.claim else s)

/-- CLAIM_GUARD_END (R373, R374): 2 ms after a claim. -/
def execClaimGuardEnd (s : State) : Out := s.answer <|
  match s.spl.claimAt with
  | none => .next s
  | some t =>
    if s.spl.split ∨ s.tick < t + msTicks 2 then .next s
    else if !s.ownIn then .next s.becomeOwner
    else
      let s := s.incSat F.SPL_CNT_A_SPLIT_CLAIMS
      if s.partner = 0 then .next s.withdraw
      else if s.serialNum < s.partner then .next (s.withdraw.raise Ev.SPLIT_CLAIM 0)
      else .next (s.onSpl (fun x => { x with split := true }))

/-- OWN_IN_FALL (R373): in a split claim the higher serial becomes OWNER; a standby that accepted SWITCH claims (R375). -/
def execOwnInFall (s : State) : Out := s.answer <|
  let s := (s.putB F.SPL_STATUS_OWN_IN 0 false).onUp (fun u => { u with gpio := tset (fun _ => 0) u.gpio 15 0 })
  if s.spl.claimAt.isSome && s.spl.split then .next s.becomeOwner
  else if s.role == 4 && s.spl.switchTo then .next (s.onSpl (fun x => { x with switchTo := false })).claim
  else .next s

/-- SPLIT_CLAIM_TIMEOUT (R373): `OWN_IN` has not fallen within 4 ms. -/
def execSplitClaimTimeout (s : State) : Out := s.answer <|
  match s.spl.claimAt with
  | some t => .next (if s.spl.split && decide (t + msTicks 6 ≤ s.tick) then s.withdraw else s)
  | none => .next s

/-- CLAIM_RETRY_DELAY_END (R373): the module claims again if the conditions still hold. -/
def execClaimRetryDelayEnd (s : State) : Out := s.answer <|
  match s.spl.retryAt with
  | none => .next s
  | some t =>
    if s.tick < t then .next s
    else
      let s := s.onSpl (fun x => { x with retryAt := none })
      let up := s.get F.SPL_STATUS_LINK == 2
      if s.role ≠ 1 then .next (if s.takesOver then s.claim else s)
      else if up && !s.claimsFirst then .next (s.put F.SPL_STATUS_ROLE 0 3)
      else if s.ownIn then .next (if up then s else s.put F.SPL_STATUS_ROLE 0 5)
      else .next s.claim

/-! ### SPL_CMD (R375, R377, R378) -/

/-- A write of `SPL_CMD`: each bit in turn; `CMD_REFUSED` shows whether one was refused. -/
def State.splCmd (s : State) (i : Iface) (w : Word) : State :=
  let s := (s.wlogNote i F.SPL_CMD.addr w).putB F.SPL_STATUS_CMD_REFUSED 0 false
  let no := fun (s : State) => s.putB F.SPL_STATUS_CMD_REFUSED 0 true
  let s := if F.SPL_CMD_UNPAIR.on w then (s.putB F.SPL_STATUS_PAIRED 0 false).setSplFlag 1 false else s
  let s := if !F.SPL_CMD_RESYNC.on w then s else if s.splOwnerUp then s.bulkStart else no s
  let s := if !F.SPL_CMD_SWITCHOVER.on w then s
    else if s.switchCan then (s.onSpl (fun x => { x with switchTo := true })).switchGo else no s
  s.serve

/-- SPL_SWITCHOVER (R375). -/
def execSplSwitchover (i : Iface) (w : Word) (s : State) : Out := s.answer <|
  .next (if F.SPL_CMD_SWITCHOVER.on w then s.splCmd i w else s.wlogNote i F.SPL_CMD.addr w)

/-- SPL_UNPAIR (R377). -/
def execSplUnpair (i : Iface) (w : Word) (s : State) : Out := s.answer <|
  .next (if F.SPL_CMD_UNPAIR.on w then s.splCmd i w else s.wlogNote i F.SPL_CMD.addr w)

/-- SPL_RESYNC (R378). -/
def execSplResync (i : Iface) (w : Word) (s : State) : Out := s.answer <|
  .next (if F.SPL_CMD_RESYNC.on w then s.splCmd i w else s.wlogNote i F.SPL_CMD.addr w)

/-- The rules of R399. -/
def splRules (s : State) (cells : List (Nat × Word)) : Option (Nat × Nat) :=
  let view := s.after cells
  firstFail [(decide (F.SPL_CFG_VER_MIN.afterOf view 0 ≤ F.SPL_CFG_VER_MAX.afterOf view 0), 0xB0, 0),
    (shadowLegal F.SPL_CFG.addr (view F.SPL_CFG.addr), 0xB1, 0), (!s.commitPending 11, 0xB2, 0)]

/-- SPL_COMMIT (R399): applies at the next bring-up. -/
def execSplCommit (i : Iface) (w : Word) (s : State) : Out := s.answer <|
  let s := s.wlogNote i F.SPL_COMMIT.addr w
  .next (if F.SPL_COMMIT_GO.on w then s.commit i 11 [0] splRules else s)

/-! ### Messages (R376 to R381) -/

/-- What was asked of the partner and has not come for 100 ms is asked of the head-end (DESIGN CHOICE, log entry 44). -/
def State.wantLate (s : State) : State :=
  let want := s.spl.want
  if want.isEmpty || decide (s.tick < s.spl.wantAt + msTicks 100) then s
  else
    let s := s.onSpl (fun x => { x with want := [] })
    if s.cacheOnly then want.foldl (fun (s : State) k => s.ctxLost k) s
    else (s.put F.SES_STATUS_RESTORE_SRC 0 3).headendRestore want

/-- SPL_HEARTBEAT_SEND (R376, R378, R381): every 1 ms on an UP link; an owner goes on with its bulk transfer, at 610 images a millisecond, and
contexts whose lease was awaited go out. -/
def execSplHeartbeatSend (s : State) : Out := s.answer <|
  if s.get F.SPL_STATUS_LINK ≠ 2 ∨ s.tick < (s.link 0).lastTx + msTicks 1 then .next s
  else
    let s := s.onLink 0 (fun x => { x with lastTx := s.tick })
    let s := s.splSend 0x10 (le s.role 1 ++ le (s.get F.SPL_OWN_TERM_TERM) 4 ++ le s.sfStart 8 ++ le s.sfn 2 ++ le (s.jrnSeq - 1) 8
      ++ le s.splApplied 8)
    let s := (if s.splOwnerUp then s.bulkImages 610 else s).oweSend s.spl.owe
    .next (s.wantLate.switchGo).serve

/-- SPL_HEARTBEAT (R373, R376, R379): the partner's role and term, its superframe's start and number. -/
def execSplHeartbeat (seq : BitVec 64) (role : Fin 6) (term : BitVec 32) (start : BitVec 64) (sfn : BitVec 16) (s : State) : Out := s.answer <|
  match s.linkTake 0 seq.toNat with
  | none => .next s
  | some s =>
    let s := s.onSpl (fun x => { x with term := term.toNat, peerRole := role.val })
    if role.val ≠ 2 then .next s
    else
      let s := s.onSpl (fun x => { x with grid := some (start.toNat, sfn.toNat) })
      let claims := s.spl.claimAt.isSome || s.spl.retryAt.isSome
      let s := if claims then
          let was := s.spl.was
          let s := s.onSpl (fun x => { x with claimAt := none, split := false, retryAt := none, start := none })
          (s.put F.SPL_STATUS_ROLE 0 (if was = 4 then 4 else 3)).driveOwnOut false
        else s
      .next (if s.role = 5 then s.put F.SPL_STATUS_ROLE 0 3 else s)

/-- SPL_JRN (R377): an entry of the owner's journal is applied to the standby's image; a checkpoint brings a whole image. -/
def execSplJrn (seq jseq : BitVec 64) (sess : BitVec 16) (kind : Fin 3) (offset : Fin 2048) (data : List Byte) (s : State) : Out := s.answer <|
  match s.linkTake 0 seq.toNat with
  | none => .next s
  | some s =>
    let k := sess.toNat
    if !s.standsBy then .next s
    else
      let s := { s with jrnSeq := max s.jrnSeq (jseq.toNat + 1) }
      let s := if kind.val = 1 then
          let r := s.imagePut k (sealImage (padTo 2048 data) jseq.toNat)
          r.1.gotSet k (r.2 && r.1.hasCtx k)
        else if s.spl.got.contains k then
          let s := s.imageEdit k jseq.toNat [(offset.val, data)]
          if s.hasCtx k then s else (s.imagePut k []).1.gotSet k false
        else s
      .next s.splAck

/-- SPL_VAULT (R377): the values go to the standby's Vault with `MIRROR` = 1, and are acknowledged once they are there. -/
def execSplVault (seq : BitVec 64) (sess : BitVec 16) (txc rxm : BitVec 32) (epoch prov : BitVec 16) (sent : Fin 4096) (s : State) : Out := s.answer <|
  match s.linkTake 0 seq.toNat with
  | none => .next s
  | some s =>
    let k := sess.toNat
    if !s.standsBy then .next s
    else
      let s := s.vaultWrite (8 * k) (le txc.toNat 4 ++ le rxm.toNat 4) (.mirror seq.toNat)
      let s := s.vaultWrite (0x080000 + 8 * k) (keyStateBytes epoch.toNat prov.toNat sent.val 1) (.mirror seq.toNat)
      .next (if k = 0xFFFF ∧ s.role = 3 then s.onSpl (fun x => { x with bulkTo := some (seq.toNat, 0) }) else s)

/-- SPL_PLAN (R376, R379): a round fixed, or the outcome of a member. -/
def execSplPlan (seq : BitVec 64) (members : List PlanMember) (ended : Option (BitVec 16)) (s : State) : Out := s.answer <|
  match s.linkTake 0 seq.toNat with
  | none => .next s
  | some s =>
    if !s.standsBy then .next s
    else
      let new := members.map (fun (m : PlanMember) =>
        (⟨m.session.toNat, m.cls.val, m.request.val, m.attempt.val, m.ports.map (·.val), m.t0, m.t1⟩ : MirPlan))
      let kept := s.mirPlans.filter (fun m => !new.any (fun x => x.session == m.session) && ended.map (·.toNat) != some m.session)
      .next { s with mirPlans := kept ++ new }.splAck

/-- SPL_ROUTE (R312, R376): an entry of the owner's route table. -/
def execSplRoute (seq : BitVec 64) (dest next : BitVec 16) (metric : BitVec 8) (hops : Fin 16) (valid : Bool) (age : BitVec 16) (s : State) :
    Out := s.answer <|
  match s.linkTake 0 seq.toNat with
  | none => .next s
  | some s =>
    if !s.standsBy then .next s
    else
      let e : RouteE := ⟨dest.toNat, next.toNat, metric.toNat, hops.val, s.tick - sTicks age.toNat⟩
      let s := s.onMac (fun m => { m with
        routes := m.routes.filter (fun x => x.dest != e.dest) ++ (if valid then [e] else []) })
      .next s.splAck

/-- An image for a PARKED session of the module that owns (R250, R251): its counters come from the Vault (R345), and it is ACTIVE. -/
def State.ctxBack (s : State) (k : Nat) (image : List Byte) : State :=
  -- a RESTORE in progress for the slot ends STATE (R254)
  let s := match s.sesCmd with
    | some c => if c.op = 7 ∧ c.session = k then
        { (if s.leasedBy k 24 then s.leaseDrop k else s) with
          leaseQ := s.leaseQ.filter (fun q => !(q.session == k && q.holder == 24)) }.sesResult 3
      else s
    | none => s
  let img := patch (s.ctrRestored k (padTo 2048 image)) 0 [2]
  let r := s.imagePut k (sealImage img s.jrnSeq)
  let s := r.1.onSpl (fun x => { x with want := x.want.filter (· != k), wantAt := r.1.tick })
  if r.2 then ((s.incSat F.SES_RESTORE_STAT_RESTORED).ctxPlan k).restoreOff k else s.ctxLost k

/-- SPL_CTX (R250, R251, R378, R381): an image of the bulk transfer, of a repair, or one asked for.  What was asked for below it is not
held by the partner. -/
def execSplCtx (seq : BitVec 64) (sess : BitVec 16) (image : List Byte) (s : State) : Out := s.answer <|
  match s.linkTake 0 seq.toNat with
  | none => .next s
  | some s =>
    let k := sess.toNat
    let st := (image.getD 0 0).toNat % 4
    if s.standsBy then
      let r := s.imagePut k (padTo 2048 image)
      let s := r.1.gotSet k (r.2 && (st == 1 || st == 2))
      let s := if s.role = 3 then s.put F.SPL_SYNC_STAT_CONTEXTS 0 (k + 1) else s
      let s := s.splAck
      .next (if k = 65535 ∧ s.role = 3 then (s.put F.SPL_STATUS_ROLE 0 4).raise Ev.SPL_SYNCED 0 else s)
    else if (s.slot k).st = 3 ∧ (st = 1 ∨ st = 2) then
      let missed := s.spl.want.filter (fun x => decide (x < k))
      let s := s.onSpl (fun x => { x with want := x.want.filter (fun y => decide (k ≤ y)) })
      let s := if missed.isEmpty then s
        else if s.cacheOnly then missed.foldl (fun (s : State) k => s.ctxLost k) s
        else s.headendRestore missed
      .next ((s.ctxBack k image).restoreEnd).serve
    else .next s

/-- SPL_ACK (R377, R378): the messages acknowledged are done with, and what waited for them goes on. -/
def execSplAck (seq upTo : BitVec 64) (s : State) : Out := s.answer <|
  match s.linkTake 0 seq.toNat with
  | none => .next s
  | some s =>
    let n := upTo.toNat
    let acked := s.splOut.filter (fun m => m.kind == 0x12 && decide (m.seq ≤ n))
    let ks : List Nat := (acked.map (fun m => ofLe (m.body.take 2))).filter s.hasCtx
    let s := { s with splOut := s.splOut.filter (fun m => !(decide (0x11 ≤ m.kind) && decide (m.kind ≤ 0x15) && decide (m.seq ≤ n))) }
    let s := s.bulkAcked n
    let s := ks.foldl (fun (s : State) k =>
      if s.txLow k (s.ctxNum k 0x188 4) then s.txReserve k else s) s
    .next (s.serve).switchGo

/-- SPL_SWITCH (R375): the standby claims as soon as `OWN_IN` is low. -/
def execSplSwitch (seq : BitVec 64) (s : State) : Out := s.answer <|
  match s.linkTake 0 seq.toNat with
  | none => .next s
  | some s =>
    if s.role ≠ 4 ∨ !s.splV2 then .next s
    else if s.ownIn then .next (s.onSpl (fun x => { x with switchTo := true }))
    else .next s.claim

/-- SPL_CTX_REQ (R381): the contexts held are sent, each under a lease; for one not held nothing is sent. -/
def execSplCtxReq (seq : BitVec 64) (first last : BitVec 16) (s : State) : Out := s.answer <|
  match s.linkTake 0 seq.toNat with
  | none => .next s
  | some s =>
    let ks := (List.range (last.toNat + 1 - first.toNat)).map (· + first.toNat)
    let s := s.onSpl (fun x => { x with owe := x.owe.filter (fun k => !ks.contains k) ++ ks })
    .next (s.oweSend s.spl.owe).serve

/-! ### The mirror audit (R359, R380) -/

/-- The live mirror-audit job. -/
def State.auditJob (s : State) : Option Nat :=
  (List.range 16).find? (fun k => s.jobLive k && s.get F.BLY_SLOT_STAT_KIND (blyO k) == 9)

/-- The next audit step is due, and the loop of R431 comes to it. -/
def State.auditTurn (s : State) : Bool :=
  s.auditDue && (match s.auditJob with | some k => s.jobFirst k | none => s.cmdQ.isEmpty)

/-- A mirror-audit job with its check unit: started when there is none (R380), waiting while no unit is free (R359). -/
def State.auditReady (s : State) : State × Option (Nat × Nat) :=
  let s := if s.auditJob.isSome then s
    else
      let r := s.jobStart 9 0 4 0 [] 1024 true
      if r.2.isSome then r.1 else r.1.raise Ev.BLY_SLOTS_FULL 0
  match s.auditJob with
  | none => (s, none)
  | some k =>
    let s := if (s.job k).deadline ≠ 0 then s
      else match s.chkFree with
        | some u => (s.chkClaim u 2 12).onJob k (fun j => { j with deadline := u + 1 })
        | none => s
    let d := (s.job k).deadline
    if d = 0 then (s.put F.BLY_SLOT_STAT_STATE (blyO k) 3, none)
    else (s.put F.BLY_SLOT_STAT_STATE (blyO k) 2, some (k, d - 1))

/-- The module's own result over a range, in its check unit (R352, R359). -/
def State.auditResult (s : State) (u first : Nat) : State :=
  let s := (s.put F.CHK_SEL_SELECT (chkO u) first).put F.CHK_WINDOW_WINDOW (chkO u) 64
  s.chkComplete u ((auditSessions first).flatMap s.auditImage)

/-- An audit step is counted in its job, which ends after 1,024 steps. -/
def State.auditCount (s : State) (k : Nat) (mismatch : Bool) : State :=
  let s := s.incWrap F.SPL_CNT_B_AUDIT_STEPS
  let s := (s.onJob k (fun j => { j with cursor := j.cursor + 1 })).put F.BLY_SLOT_DONE (blyO k) ((s.job k).cursor + 1)
  let s := s.setJobData k 0 (s.jobData k 0 + 1)
  let s := if mismatch then s.setJobData k 1 (s.jobData k 1 + 1) else s
  s.jobBoundary k (if 1024 ≤ (s.job k).cursor then some (5, 1) else none)

/-- MIRROR_AUDIT_STEP (R380): the owner leases the next 64 contexts, computes its result and sends AUDIT.  A range that cannot be read
is passed over. -/
def execMirrorAuditStep (s : State) : Out := s.answer <|
  if !s.auditTurn then .next s
  else
    let r := s.auditReady
    match r.2 with
    | none => .next r.1
    | some (k, u) =>
      let s := r.1
      if (s.job k).cancel then .next (s.jobBoundary k none)
      else
        let first := 64 * ((s.job k).cursor % 1024)
        let ks := (auditSessions first).filter (fun n => n != 0 && s.hasCtx n)
        let l := ks.foldl (fun (a : State × Bool) n => let x := a.1.mirrorLease n; (x.1, a.2 && x.2)) (s, true)
        if !l.2 then .next l.1.serve
        else
          let s := l.1.onSpl (fun x => { x with auditAt := l.1.tick })
          if (auditSessions first).any (fun n => (s.slot n).st == 3) then
            let s := ks.foldl (fun (s : State) n => if s.leasedBy n 6 then s.leaseEnd n else s) s
            .next ((s.chkVoid u 4 2).auditCount k false).serve
          else
            let s := s.auditResult u first
            let res := s.live (F.CHK_RESULT.addr + chkO u)
            let s := s.splSend 0x17 (le first 2 ++ le (s.jrnSeq - 1) 8 ++ [1] ++ le res.toNat 4)
            .next (s.onSpl (fun x => { x with audit := some (first, res.toNat) }))

/-- SPL_AUDIT (R380): the standby computes the range and answers; the owner compares, and sends the images again on a mismatch. -/
def execSplAudit (seq : BitVec 64) (first : Fin 1024) (result : BitVec 32) (s : State) : Out := s.answer <|
  match s.linkTake 0 seq.toNat with
  | none => .next s
  | some s =>
    let f := 64 * first.val
    if !s.splV2 then .next s
    else if s.standsBy then
      let r := s.auditReady
      match r.2 with
      | none => .next r.1
      | some (k, u) =>
        let s := r.1.auditResult u f
        let res := s.live (F.CHK_RESULT.addr + chkO u)
        let s := (s.setLive (F.CHK_EXPECT.addr + chkO u) result).chkCompare u
        let s := s.splSend 0x17 (le f 2 ++ le (s.jrnSeq - 1) 8 ++ [1] ++ le res.toNat 4)
        .next (s.auditCount k (res != result))
    else match s.spl.audit, s.auditJob with
      | some (g, mine), some k =>
        if g ≠ f then .next s
        else
          let u := (s.job k).deadline - 1
          let s := (s.setLive (F.CHK_EXPECT.addr + chkO u) result).chkCompare u
          let bad := mine != result.toNat
          let s := if bad then
              let s := (s.incSat F.SPL_CNT_B_AUDIT_MISMATCH).raise Ev.MIRROR_RESYNC f
              (auditSessions f).foldl (fun (s : State) n => s.splSend 0x15 (s.ctxMsg n)) s
            else s
          let s := (auditSessions f).foldl (fun (s : State) n => if s.leasedBy n 6 then s.leaseEnd n else s) s
          .next (((s.onSpl (fun x => { x with audit := none })).auditCount k bad).serve)
      | _, _ => .next s

end Sys2Proof.Machine
end

