-- ==== Sys2Proof/Machine/TroubleLog.lean ====
section
/-! DEFINITION. The commands of the trouble log (R492, R496). -/
namespace Sys2Proof.Machine
open Sys2Proof

/-- A write of `LOG_CMD` (R496): the protected region is emptied, and EV253 is armed again (R492); every entry counts as
exported. -/
def State.logCmd (s : State) (i : Iface) (w : Word) : State :=
  let s := s.wlogNote i F.LOG_CMD.addr w
  let s := if F.LOG_CMD_CLEAR_PROT.on w then
      let s := { s with log := s.log.filter (fun e => decide (e.1 < 7936)), protArmed := true }
      (s.put F.LOG_PROT_STAT_COUNT 0 0).put F.LOG_PROT_STAT_FULL 0 0
    else s
  if F.LOG_CMD_MARK_EXPORTED.on w then
    let s := { s with log := s.log.map (fun (e : Nat × LogEntry) => (e.1, { e.2 with exported := true })) }
    (s.put F.LOG_STAT_UNEXPORTED 0 0).logDues false
  else s

/-- LOG_CLEAR_PROT (R492). -/
def execLogClearProt (i : Iface) (w : Word) (s : State) : Out := s.answer <| .next (if F.LOG_CMD_CLEAR_PROT.on w then s.logCmd i w else s)

/-- LOG_MARK_EXPORTED (R496). -/
def execLogMarkExported (i : Iface) (w : Word) (s : State) : Out := s.answer <|
  .next (if F.LOG_CMD_MARK_EXPORTED.on w then s.logCmd i w else s)

end Sys2Proof.Machine
end

