-- ==== Sys2Proof/Machine/Views.lean ====
section
/-! DEFINITION. What a read of a register returns (R499, R500): the shadow, the live value or nothing by its access code, the
registers whose value is a count or a level of other state, the three windows, and the latches of wide values. -/
namespace Sys2Proof.Machine
open Sys2Proof

/-! ### Registers that show other state -/

/-- The sessions of the slot table whose entry satisfies `f`, slot 0x0000 apart. -/
def State.countSlots (s : State) (f : Slot → Bool) : Nat := (s.slots.filter (fun e => e.1 != 0 && f e.2)).length

/-- The sessions in one of the cipher states `l` (R337, R348): those whose context is accessible (R215). -/
def State.countKeys (s : State) (l : List Nat) : Nat :=
  (s.slots.filter (fun e => e.1 != 0 && (e.2.st == 1 || e.2.st == 2) && l.contains (s.cstate e.1))).length

/-- A word of a low and a high half, each saturating at 65,535. -/
def halves (lo hi : Nat) : Word := BitVec.ofNat 32 (min lo 65535 + 65536 * min hi 65535)

/-- `STR_PORT_VIEW` (R109, R110): of a line receiver, its port's PGA code, reference code, held request and holders; of a radio
receiver, reserved. -/
def State.portView (s : State) (r : Nat) : Word :=
  let p := r / 4
  let q := s.port p
  let held := match q.held with
    | none => 0
    | some up => if up then 1 else 2
  let hold := ((List.range 4).filter (fun k => s.holder (4 * p + k))).foldl (fun (n : Nat) k => n + 2 ^ k) 0
  BitVec.ofNat 32 (s.get F.LP_STATUS_GAIN_CODE (lpO p) + 0x10 * q.refCode + 0x100 * held + 0x1000 * hold)

/-- `PLN_CORD_LOAD` (R213) of cord `c`: over the last 60 s, the mean share of the cord's 16 ports in exchanges, the part of it in
class 4, and the share of rounds with four members, in percent. -/
def State.cordLoad (s : State) (c : Nat) : Word :=
  let on := s.planDone.filter (fun d => d.cord == c && decide (s.tick < d.ended + sTicks 60))
  let time := fun (l : List PlanDone) => (List.range 16).foldl (fun (n : Nat) j =>
    n + s.lineTicks (l.filter (fun d => d.ports.contains (16 * c + j)))) 0
  let pct := fun (n : Nat) => min 100 (100 * n / (16 * sTicks 60))
  let rs := s.roundSizes.filter (fun r => r.2 / 8 == c && decide (s.tick < r.1 + sTicks 60))
  let four := (rs.filter (fun r => r.2 % 8 == 4)).length
  BitVec.ofNat 32 (pct (time on) + 0x100 * pct (time (on.filter (fun d => d.cls == 4)))
    + 0x10000 * (if rs.isEmpty then 0 else 100 * four / rs.length))

/-- `SPL_MIRROR_STAT` (R398): the mirror messages that await their acknowledgement and the age of the oldest in µs. -/
def State.mirrorStat (s : State) : Word :=
  let l := s.splOut.filter (fun m => decide (0x11 ≤ m.kind) && decide (m.kind ≤ 0x15))
  let age := match l with
    | [] => 0
    | m :: t => (s.tick - t.foldl (fun (n : Nat) x => min n x.sent) m.sent) * 10 / 384
  halves l.length age

/-- `MAC_OBS` (R285): entry `i` of the observation table. -/
def State.obsWord (s : State) (i : Nat) : Word :=
  match s.mac.obs[i]? with
  | none => 0
  | some o =>
    let age := s.mac.sfs - o.sf
    BitVec.ofNat 32 (o.node + (if age ≤ 64 then 0x40 else 0) + 0x100 * o.offset + 0x10000 * min age 65535)

/-- A route entry as a word of 64 bits (R312). -/
def State.routeEntry (s : State) (x : Nat) : Nat :=
  match s.mac.routes[x]? with
  | none => 0
  | some e => if !s.routeValid e then 0 else e.dest + 2 ^ 16 * e.next + 2 ^ 32 * e.metric + 2 ^ 40 * e.hops + 2 ^ 47
      + 2 ^ 48 * min 65535 ((s.tick - e.born) / sTicks 1)

/-- Bit `PENDING` of a block's commit register (R503). -/
def State.pendingBit (s : State) (b : Nat) : Word := if s.commitPending b then 1 else 0

/-- `GLB_COMMIT_STAT` (R510). -/
def State.glbPending (s : State) : Word :=
  BitVec.ofNat 32 ((if s.commits.any (·.byGlb) then 1 else 0)
    + ((List.range 14).filter (fun b => s.commitPending b)).foldl (fun (n : Nat) b => n + 2 ^ b) 0)

/-- The pending commits of the cords that a per-cord commit register shows. -/
def State.cordsPending (s : State) (b per : Nat) : Word :=
  BitVec.ofNat 32 (((List.range 9).filter (fun c => (List.range per).any (fun g => s.instPending b (per * c + g)))).foldl
    (fun (n : Nat) c => n + 2 ^ c) 0)

/-- Byte `k` words of the log entry that `LOG_READ_IDX` names (R490, R496). -/
def State.logWord (s : State) (k : Nat) : Word :=
  BitVec.ofNat 32 (ofLe (((s.logAt (s.get F.LOG_READ_IDX_INDEX)).bytes.drop (4 * k)).take 4))

/-- Whether a line port's mains set is LOCKED and its map is not frozen (R179). -/
def State.mapUpdating (s : State) (p : Nat) : Bool :=
  s.get F.MNS_SET_STAT_STATE (setO (s.setOf p)) == 1 && !s.bit F.MNS_PORT_CTL_FREEZE (mnO p)

/-- The registers of one instance that show other state.  `LP_PGA.GAIN_CODE` reads the current code in automatic mode (R50).
DESIGN CHOICE, log entry 117: `FC_LOAD` shows the active set's load during a cross-fade too (R57, R77), and the two fields of
`FC_ENGINE_LOAD` are rounded to the nearest whole MMAC/s (R78). -/
def State.viewInst (s : State) (a : Nat) : Option Word :=
  if 0x040000 ≤ a ∧ a < 0x049000 ∧ a % 0x100 = 4 then
    let o := a - F.LP_PGA.addr
    if s.bit F.LP_PGA_MODE o then some (setBits (s.live a) 2 0 (s.get F.LP_STATUS_GAIN_CODE o)) else none
  else if 0x060000 ≤ a ∧ a < 0x077B00 ∧ a % 0x80 = 0x2C then
    let c := (a - 0x060000) / 0x80
    some (BitVec.ofNat 32 (roundAway (10 * loadOf s.live c (s.loadTaps c (s.activeSet c)))).toNat)
  else if 0x079100 ≤ a ∧ a < 0x079138 then
    let e := (a - 0x079100) / 4
    some (halves (roundAway (s.engineLoad s.live e)).toNat (roundAway (s.engineNow e)).toNat)
  else if 0x080000 ≤ a ∧ a < 0x0A4000 ∧ a % 0x100 = 0x50 then some (s.portView ((a - 0x080000) / 0x100))
  else if 0x0E0000 ≤ a ∧ a < 0x0E2000 ∧ a % 0x100 = 0x50 then some 0
  else if 0x0C1000 ≤ a ∧ a < 0x0C1900 ∧ a % 0x10 = 4 then
    let p := (a - 0x0C1000) / 0x10
    let w := setBits (s.live a) 6 0 (s.binAt (s.setOf p) s.tick)
    some (setBits w 7 7 (if s.mapUpdating p then 1 else 0))
  else if 0x0C4000 ≤ a ∧ a < 0x0C6400 ∧ a % 0x10 = 8 then
    let b := tget (fun _ => BlankS.init) s.blankers ((a - 0x0C4000) / 0x10)
    some (BitVec.ofNat 32 (toSigned 12 (dbRound (b.sigma2 / 2 ^ 33) 4)))
  else if 0x0D0200 ≤ a ∧ a < 0x0D0290 ∧ a % 0x10 = 0 then some (s.cordLoad ((a - 0x0D0200) / 0x10))
  else if 0x0E4240 ≤ a ∧ a < 0x0E4260 then
    let k := (a - 0x0E4240) / 4
    some (if s.dutyLimit k = 0 then 0 else BitVec.ofNat 32 (min 1023 (1000 * s.dutySum k s.tick / s.dutyLimit k)))
  else if 0x0E4300 ≤ a ∧ a < 0x0E4340 then some (s.obsWord ((a - 0x0E4300) / 4))
  else if 0x100070 ≤ a ∧ a < 0x100084 then
    some (BitVec.ofNat 32 (if s.storeOpen then (s.pages.filter (fun g => g.cls == (a - 0x100070) / 4)).length else 0))
  else if 0x100090 ≤ a ∧ a < 0x1000B8 then
    let k := (a - 0x100090) / 8
    some (BitVec.ofNat 32 (if a % 8 = 0 then s.spoolNext.getD k 0 else s.spoolAck.getD k 0 - 1))
  else if 0x018020 ≤ a ∧ a < 0x018040 then some (s.logWord ((a - 0x018020) / 4))
  else if 0x680000 ≤ a ∧ a < 0x6A4000 then
    let e := s.mapEntry ((a - 0x680000) / 0x400) ((a - 0x680000) % 0x400 / 8)
    some (BitVec.ofNat 32 (if a % 8 = 0 then e else e / 2 ^ 32))
  else if 0x700000 ≤ a ∧ a < 0x710000 then
    let e := s.routeEntry ((a - 0x700000) / 8)
    some (BitVec.ofNat 32 (if a % 8 = 0 then e else e / 2 ^ 32))
  else none

/-- The single registers that show other state. -/
def State.viewOne (s : State) (a : Nat) : Option Word :=
  if a = F.GLB_COMMIT_STAT.addr then some s.glbPending
  else if a = F.GLB_TIME_LO.addr then some (BitVec.ofNat 32 s.tick)
  else if a = F.GLB_TIME_HI.addr then some (BitVec.ofNat 32 (s.tick / 2 ^ 32))
  else if a = F.CLK_COMMIT_STAT.addr then some (s.pendingBit 1)
  else if a = F.LP_COMMIT_STAT.addr then some (s.cordsPending 2 1)
  else if a = F.FC_COMMIT_STAT.addr then some (s.pendingBit 3)
  else if a = F.STR_COMMIT_STAT.addr then some (s.pendingBit 4)
  else if a = F.MNS_COMMIT_STAT.addr then some (s.cordsPending 5 16)
  else if a = F.PLN_COMMIT_STAT.addr then some (s.pendingBit 6)
  else if a = F.MAC_COMMIT_STAT.addr then some (s.pendingBit 7)
  else if a = F.MSH_COMMIT_STAT.addr then some (s.pendingBit 8)
  else if a = F.CIP_COMMIT_STAT.addr then some (s.pendingBit 9)
  else if a = F.CHK_COMMIT_STAT.addr then
    some (BitVec.ofNat 32 (((List.range 16).filter (fun u => s.instPending 10 u)).foldl (fun (n : Nat) u => n + 2 ^ u) 0))
  else if a = F.SPL_COMMIT_STAT.addr then some (s.pendingBit 11)
  else if a = F.BRD_COMMIT_STAT.addr then some (s.pendingBit 12)
  else if a = F.HAL_COMMIT_STAT.addr then some (s.pendingBit 13)
  else if a = F.PLN_PIN_STAT.addr then
    -- DESIGN CHOICE, log entry 129: the pins and the conflict of the session that PLN_PIN_SESSION names, as they stand (R209, R213)
    let k := s.get F.PLN_PIN_SESSION_SESSION
    some (setBits (setBits (s.live a) 4 0 (s.ctxNum k 0x04B 1 % 32)) 9 9 (if s.pinConflict k then 1 else 0))
  else if a = F.PLN_STAT.addr then
    some (halves (s.slots.filter (fun e => s.lineActive e.1 && s.reach e.1 == 2)).length s.overdue.length)
  else if a = F.SES_COUNTS.addr then some (BitVec.ofNat 32 (min 65535 (s.countSlots (fun e => e.st == 2)) + 65536 * s.prioCount))
  else if a = F.SES_PARKED.addr then some (halves (s.countSlots (fun e => e.st == 3)) (s.countSlots (fun e => e.st == 1)))
  else if a = F.SES_CACHE_STAT.addr then
    -- 0 until the module has started (R255)
    some (if s.up.run ≠ 2 then 0 else BitVec.ofNat 32 ((s.cache.filter (·.filled)).length + 65536 * (s.cache.filter (fun e => (s.leaseOf e.session).isSome)).length))
  else if a = F.CXL_ERR_CNT.addr then
    some (setBits (s.live a) 15 0 (min 65535 ((s.ceHour.filter (fun e => decide (s.tick < e.1 + sTicks 3600))).foldl
      (fun (n : Nat) e => n + e.2) 0)))
  else if a = F.SES_JRN_STAT.addr then some (setBits (s.live a) 6 0 (if s.storeOpen then s.jrnFill else 0))
  else if a = F.SES_SPOOL_STAT.addr then some (setBits (s.live a) 9 0 s.spoolFill)
  else if a = F.MAC_PAIR_STAT.addr then
    some (halves (s.slots.filter (fun e => s.assigned e.1)).length (s.slots.filter (fun e => e.2.st == 2 && s.isRadio e.1 && s.rstate e.1 == 2)).length)
  else if a = F.MSH_STAT.addr then some (BitVec.ofNat 32 ((s.mac.routes.filter s.routeValid).length
      + 65536 * (s.mac.seen.filter (fun e => decide (s.tick < e.at_ + sTicks 60))).length))
  else if a = F.CIP_STATUS.addr then
    some (setBits (s.live a) 7 4 (min 15 (s.cip.lifts.filter (fun t => decide (s.tick < t + sTicks 86400))).length))
  else if a = F.CIP_VAULT_STAT.addr then
    some (setBits (s.live a) 23 16 (min 255 (s.vaultFaults.filter (fun t => decide (s.tick < t + sTicks 86400))).length))
  else if a = F.CIP_REKEY_STAT.addr then some (halves (s.countKeys [1, 3]) (s.countKeys [2, 4, 5]))
  else if a = F.SPL_MIRROR_STAT.addr then some s.mirrorStat
  else none

/-! ### A read -/

/-- The bits of the word at `a` that a read returns 0 for: those of no field and those that only writes use (R499). -/
def readMask (a : Nat) : Word :=
  match regRow a with
  | some r => r.fields.foldl (fun (m : Word) f => if f.acc = .wo then m else m ||| bitsMask f.hi f.lo) 0
  | none => 0

/-- What a read of the word at `a` finds, before the latches of wide values (R499). -/
def State.view (s : State) (a : Nat) : Word :=
  if 0x400000 ≤ a ∧ a < 0x640000 then
    (tget (fun _ => (0 : BitVec 18)) s.coefs ((a - 0x400000) / 0x40000 * 65536 + (a - 0x400000) % 0x40000 / 4)).setWidth 32
  else match s.viewInst a with
  | some w => w
  | none => match s.viewOne a with
    | some w => w
    | none =>
      let m := if rsvInstance a then 0 else rwsMask a
      ((s.live a &&& ~~~ rwsMask a) ||| (s.shad a &&& m)) &&& readMask a

/-- The values wider than a word (R500): the address of the first one's lowest word, their spacing, their number and their
words. -/
def wideValues : List (Nat × Nat × Nat × Nat) :=
  [(0x000008, 8, 1, 2), (0x000200, 8, 1, 2), (0x00020C, 8, 1, 2), (0x000320, 8, 4, 2), (0x010090, 8, 1, 2), (0x018020, 32, 1, 8),
   (0x030010, 12, 1, 3), (0x050008, 20, 1, 5), (0x079088, 8, 15, 2), (0x080034, 0x100, 576, 2), (0x0C0110, 8, 6, 2),
   (0x0C0150, 8, 6, 2), (0x0E0034, 0x100, 32, 2), (0x0E400C, 8, 1, 2)]
  ++ [(0x104018, 8, 1, 2), (0x110014, 8, 1, 2), (0x110120, 16, 2, 4), (0x11801C, 0x40, 16, 2), (0x120020, 8, 1, 2),
   (0x120100, 8, 64, 2), (0x128010, 8, 1, 2), (0x130008, 8, 2, 2), (0x130020, 16, 2, 4), (0x130108, 0x80, 2, 2),
   (0x130118, 0x80, 2, 2), (0x680000, 8, 18432, 2), (0x700000, 8, 8192, 2)]

/-- The lowest word of the wide value that the word at `a` belongs to, and the number of its words. -/
def wideOf (a : Nat) : Option (Nat × Nat) :=
  wideValues.findSome? (fun v =>
    if a < v.1 then none
    else
      let k := (a - v.1) / v.2.1
      let b := v.1 + k * v.2.1
      if k < v.2.2.1 ∧ a < b + 4 * v.2.2.2 then some (b, v.2.2.2) else none)

/-- The key of the latch that interface `i` has for the word at `a`. -/
def latchKey (i : Iface) (a : Nat) : Nat := i.id * 2 ^ 24 + a

/-- The words `1` to `n` after the lowest word at `a` are latched for interface `i` (R500). -/
def State.latchWide (s : State) (i : Iface) (a : Nat) (n : Nat) : State :=
  (List.range n).foldl (fun (s : State) k =>
    { s with rlatch := tset (fun _ => 0) s.rlatch (latchKey i (a + 4 * (k + 1))) (s.view (a + 4 * (k + 1))) }) s

/-- The word read by interface `i` is held for its reply. -/
def State.setReply (s : State) (i : Iface) (w : Word) : State := { s with reply := tset (fun _ => 0) s.reply i.id w }

end Sys2Proof.Machine
end

