-- ==== Sys2Proof/Machine/Writes.lean ====
section
/-! DEFINITION. The register write of any interface (R498, R499): the address chooses the register's own operation, or a plain write of
its fields.  The GLB mechanism of commits (R505 to R507), SOFT reset requests (R511) and profile requests (R512) stand here. -/
namespace Sys2Proof.Machine
open Sys2Proof

/-- The state of an outcome; `s` where it is none. -/
def outGet (s : State) (o : Out) : State :=
  match o with
  | .next t => t
  | _ => s

/-! ### CLK's commit (R467) -/

/-- The rules of R467. -/
def clkRules (s : State) (cells : List (Nat × Word)) : Option (Nat × Nat) :=
  firstFail [(cells.all (fun c => shadowLegal c.1 c.2), 0x10, 0), (!s.commitPending 1, 0x11, 0)]

/-- An accepted CLK commit applies at the next discipline sample, and in holdover at once (R467). -/
def State.clkSoon (s : State) : State := if s.timeSource = 0 then s.clkApply else s

/-- A write of `CLK_COMMIT` (R467). -/
def State.clkCommit (s : State) (i : Iface) (w : Word) : State :=
  let s := s.wlogNote i F.CLK_COMMIT.addr w
  if F.CLK_COMMIT_GO.on w then (s.commit i 1 [0] clkRules).clkSoon else s

/-! ### GLB commands -/

/-- A write of `GLB_RESET` (R511): a SOFT reset falls due 1 µs later, once every open write-log entry is in the log. -/
def State.glbReset (s : State) (i : Iface) (w : Word) : State :=
  let s := s.wlogNote i F.GLB_RESET.addr w
  if F.GLB_RESET_KEY.of w = 0x5A ∧ F.GLB_RESET_SOFT.on w then
    let s := s.wlog.foldl (fun (s : State) e => s.wlogClose e) s
    (({ s with wlog := [] }).put F.MGT_WLOG_STAT_OPEN 0 0).onUp (fun u => { u with softAt := some (s.tick + usTicks 1) })
  else s

/-- A write of `GLB_PROFILE_CMD` (R512): a PROFILE_SWITCH job is requested at priority 0. -/
def State.profileCmd (s : State) (i : Iface) (w : Word) : State :=
  let s := s.wlogNote i F.GLB_PROFILE_CMD.addr w
  if !F.GLB_PROFILE_CMD_GO.on w then s
  else
    let r := s.jobRequest 7 1 i.id 0 [F.GLB_PROFILE_CMD_PROFILE.of w, 0, 0, 0]
    ((r.1.put F.BLY_START_STAT_SLOT 0 (r.2.1.getD 0)).putB F.BLY_START_STAT_VALID 0 r.2.1.isSome).put
      F.BLY_START_STAT_RESULT 0 r.2.2

/-- The check units that no job and not the NVM controller owns. -/
def State.chkOpen (s : State) : List Nat := (List.range 16).filter (fun u => !s.chkOwned u)

/-- The full scope of block `b` now (R505). -/
def State.scopeOf (s : State) (b : Nat) : List Nat := if b = 2 then List.range 9 else fullScope b s.chkOpen

/-- The rules of block `b` over its full scope. -/
def State.blockRules (s : State) (b : Nat) (cells : List (Nat × Word)) : Option (Nat × Nat) :=
  match b with
  | 1 => clkRules s cells
  | 2 => lpRules (List.range 9) s cells
  | 3 => fcRules (List.range 758) s cells
  | 4 => strRules (List.range 608) s cells
  | 5 => mnsRules (List.range 9) s cells
  | 6 => plnRules (List.range 10) s cells
  | 7 => macRules s cells
  | 8 => mshRules s cells
  | 9 => cipRules s cells
  | 10 => chkRules s.chkOpen s cells
  | 11 => splRules s cells
  | 12 => brdRules s cells
  | 13 => halRules s cells
  | _ => none

/-- What an accepted commit of block `b` does at once. -/
def State.blockSoon (s : State) (b : Nat) : State :=
  match b with
  | 1 => s.clkSoon
  | 7 => s.onMac (fun m => { m with commitAt := s.tick })
  | 9 => s.applyInst 9 0
  | 10 => s.chkApply (List.range 16)
  | 13 => s.halApply
  | _ => s

/-- The first failure among the named blocks, as (block, reason, index), the lowest block first (R505): an own rule of the mechanism
(R506), or a rule of the block. -/
def State.glbFail (s : State) (i : Iface) (blocks : List Nat) (cells : List (Nat × Word)) : Option (Nat × Nat × Nat) :=
  blocks.findSome? (fun b =>
    if s.profHolds i b then some (b, 0x03, 0)
    else (s.blockRules b cells).map (fun r => (b, r.1, r.2)))

/-- A commit of several blocks over their full scopes (R505): all of them or none.  The answer says whether it was accepted. -/
def State.glbApply (s : State) (i : Iface) (blocks : List Nat) : State × Bool :=
  if blocks.isEmpty then (s.reject 0 0x01 0, false)
  else if s.commits.any (·.byGlb) then (s.reject 0 0x02 0, false)
  else
    let cells := blocks.flatMap (fun b => s.capture b (s.scopeOf b))
    match s.glbFail i blocks cells with
    | some (b, r, k) => (s.reject b r k, false)
    | none =>
      let mine : List Commit := blocks.map (fun b => (⟨b, s.scopeOf b, s.capture b (s.scopeOf b), true⟩ : Commit))
      let s := { s with commits := s.commits ++ mine.filter (fun (c : Commit) => !c.insts.isEmpty) }.incWrap F.GLB_COMMIT_CNT_APPLIED
      (blocks.foldl (fun (s : State) b => s.blockSoon b) s, true)

/-- The shadows of every named block return to the live values (R507). -/
def State.glbRevert (s : State) (blocks : List Nat) : State :=
  blocks.foldl (fun (s : State) b => (s.scopeOf b).foldl (fun (s : State) k => s.revertInst b k) s) s

/-- The blocks that a written `GLB_COMMIT` names. -/
def glbBlocks (w : Word) : List Nat := ((List.range 14).drop 1).filter (fun b => w.getLsbD b)

/-- A write of `GLB_COMMIT` (R505 to R507). -/
def State.glbCommit (s : State) (i : Iface) (w : Word) : State :=
  let s := s.wlogNote i F.GLB_COMMIT.addr w
  if F.GLB_COMMIT_REVERT.on w then s.glbRevert (glbBlocks w) else (s.glbApply i (glbBlocks w)).1

/-- A write of `GLB_TIME_CAP_CMD` (R513) stamps its own arrival. -/
def State.timeCapture (s : State) (i : Iface) (w : Word) : State :=
  let s := s.wlogNote i F.GLB_TIME_CAP_CMD.addr w
  if F.GLB_TIME_CAP_CMD_GO.on w then
    (s.setLive F.GLB_TIME_CAP_LO.addr (BitVec.ofNat 32 s.tick)).setLive F.GLB_TIME_CAP_HI.addr (BitVec.ofNat 32 (s.tick / 2 ^ 32))
  else s

/-- A write of `GLB_GPIO_FUNC` (R514): a 0 for a dedicated function is ignored while `SPL_CTRL.EN` = 1. -/
def State.gpioFunc (s : State) (i : Iface) (w : Word) : State :=
  let a := F.GLB_GPIO_FUNC.addr
  let s := s.wlogNote i a w
  let s := s.fieldWrite a (if s.bit F.SPL_CTRL_EN then w ||| s.live a else w)
  s.driveOwnOut ((s.get F.SPL_STATUS_ROLE == 2 && s.own) || s.spl.claimAt.isSome)

/-! ### The plain write -/

/-- Words that only a command reads: the staging registers of keys and salts (R438, R349). -/
def staging (a : Nat) : Bool :=
  (decide (0x110040 ≤ a) && decide (a < 0x110060)) || (decide (0x110140 ≤ a) && decide (a < 0x110160))
    || (decide (0x130120 ≤ a) && decide (a < 0x130200) && decide (0x20 ≤ a % 0x80) && decide (a % 0x80 < 0x4C))

/-- A write that only changes the register's own fields. -/
def State.plainWrite (s : State) (i : Iface) (a : Nat) (w : Word) : State :=
  let s := s.wlogNote i a w
  if staging a then s.setLive a w else s.fieldWrite a w

/-! ### The registers whose writes act -/

/-- Regions GLB, EVC, LOG, PWR, CLK and BST. -/
def State.writeTop (s : State) (i : Iface) (a : Nat) (w : Word) : Option State :=
  if a = F.GLB_RESET.addr then some (s.glbReset i w)
  else if a = F.GLB_PROFILE_CMD.addr then some (s.profileCmd i w)
  else if a = F.GLB_COMMIT.addr then some (s.glbCommit i w)
  else if a = F.GLB_TIME_CAP_CMD.addr then some (s.timeCapture i w)
  else if a = F.GLB_GPIO_FUNC.addr then some (s.gpioFunc i w)
  else if a = F.LOG_CMD.addr then some (s.logCmd i w)
  else if a = F.CLK_COMMIT.addr then some (s.clkCommit i w)
  else if a = F.CLK_PPS_OUT.addr then
    let s := s.plainWrite i a w
    some (if s.bit F.CLK_PPS_OUT_EN then s else s.onUp (fun u => { u with ppsHigh := none }))
  else if a = F.BST_CMD.addr then some (outGet s (execBstClearMark i w s))
  else if a = F.BST_REPLACE_ACK.addr then some (outGet s (execBstReplaceAck i w s))
  else if a = F.BST_REPLACE_CLR.addr then some (outGet s (execBstReplaceClr i w s))
  else none

/-- Regions LP, FC and STR. -/
def State.writeLine (s : State) (i : Iface) (a : Nat) (w : Word) : Option State :=
  let p := (a - 0x040000) / 0x100
  let c := (a - 0x060000) / 0x80
  let m := (a - 0x078000) / 0x100
  let k := (a - 0x078000) % 0x100 / 4
  if h : 0x040000 ≤ a ∧ p < 144 ∧ a % 0x100 = 0x04 then some (outGet s (execLpPgaWrite i ⟨p, h.2.1⟩ w s))
  else if h : 0x040000 ≤ a ∧ p < 144 ∧ a % 0x100 = 0x1C then some (outGet s (execLpFlagsClear i ⟨p, h.2.1⟩ w s))
  else if a = F.LP_COMMIT.addr then some (outGet s (execLpCommit i w s))
  else if h : 0x060000 ≤ a ∧ c < 758 ∧ a % 0x80 = 0x1C then some (outGet s (execFcSwap i ⟨c, h.2.1⟩ w s))
  else if h : 0x078000 ≤ a ∧ m < 11 ∧ k < 64 then some (outGet s (execFcSetDirWrite i ⟨m, h.2.1⟩ ⟨k, h.2.2⟩ w s))
  else if a = F.FC_COMMIT.addr then some (outGet s (execFcCommit i w s))
  else if a = F.FC_SYNC_CMD.addr then some (outGet s (execFcSyncCmd i w s))
  else if a = F.FC_AUX_DATA.addr then some (outGet s (execFcAuxDataAccess i (some w) s))
  else if a = F.STR_COMMIT.addr then some (outGet s (execStrCommit i w s))
  else if a = F.STR_CNT_CLR.addr then some (outGet s (execStrCntClr i w s))
  else none

/-- Regions MNS, PLN, RFS, MAC and MSH. -/
def State.writePlan (s : State) (i : Iface) (a : Nat) (w : Word) : Option State :=
  let p := (a - 0x0C1000) / 0x10
  if a = F.MNS_COMMIT.addr then some (outGet s (execMnsCommit i w s))
  else if h : 0x0C1000 ≤ a ∧ p < 144 ∧ a % 0x10 = 0 then some (outGet s (execMnsPortClear i ⟨p, h.2.1⟩ w s))
  else if a = F.PLN_COMMIT.addr then some (s.plnCommit i w)
  else if a = F.PLN_PIN_CMD.addr then
    let s := s.wlogNote i a w
    let s := outGet s (execPlnPinSet .module w s)
    let s := outGet s (execPlnPinClearAll .module w s)
    some (outGet s (execPlnPinRead .module w s))
  else if a = F.MAC_CTRL.addr then some (s.macCtrlWrite i w)
  else if a = F.MAC_SCRIPT_DATA.addr then some (outGet s (execMacScriptDataAccess i (some w) s))
  else if a = F.MAC_COMMIT.addr then some (outGet s (execMacCommit i w s))
  else if a = F.MSH_COMMIT.addr then some (outGet s (execMshCommit i w s))
  else if a = F.MSH_ROUTE_CMD.addr then
    let s := s.wlogNote i a w
    let s := outGet s (execMshRouteClearOne .module w s)
    some (outGet s (execMshRouteClearAll .module w s))
  else none

/-- Regions SES, CXL, CIP and CHK. -/
def State.writeKeep (s : State) (i : Iface) (a : Nat) (w : Word) : Option State :=
  let u := (a - 0x118000) / 0x40
  if a = F.SES_CMD.addr then
    let op := F.SES_CMD_OP.of w
    some (if 1 ≤ op ∧ op ≤ 8 then s.sesWrite i w op else s.wlogNote i a w)
  else if a = F.CXL_CTRL.addr then some (outGet s (execCxlRetrain i w s))
  else if a = F.CIP_COMMIT.addr then some (outGet s (execCipCommit i w s))
  else if a = F.CIP_ANCHOR_CMD.addr then some (outGet s (execAnchorProgram i w s))
  else if a = F.CIP_KCACHE_CMD.addr then some (outGet s (execKcacheFlush i w s))
  else if a = F.CIP_SES_CMD.addr then
    let op := F.CIP_SES_CMD_OP.of w
    some (if 1 ≤ op ∧ op ≤ 3 then s.cipWrite i w op else s.wlogNote i a w)
  else if a = F.CIP_RAW_CMD.addr then
    let s := s.wlogNote i a w
    let s := outGet s (execRawJobAbort .module w s)
    some (outGet s (execRawJobStart .module w s))
  else if a = F.CHK_COMMIT.addr then some (outGet s (execChkCommit i w s))
  else if h : 0x118000 ≤ a ∧ u < 16 then
    if a % 0x40 = 0x28 then some (s.chkCmd i u w)
    else if a % 0x40 = 0x24 then some (outGet s (execChkExpectWrite i ⟨u, h.2⟩ w s))
    else if a % 0x40 < 0x24 ∧ i ≠ .module ∧ s.chkOwned u then some (s.wlogNote i a w)
    else none
  else none

/-- Regions BRD, SPL, HAL, MGT and BLY. -/
def State.writeHost (s : State) (i : Iface) (a : Nat) (w : Word) : Option State :=
  let p := (a - 0x130100) / 0x80
  if a = F.BRD_CTRL.addr then some (s.brdCtrl i w)
  else if a = F.BRD_HO_CMD.addr then some (outGet s (execBrdHoCmd i w s))
  else if a = F.BRD_COMMIT.addr then some (outGet s (execBrdCommit i w s))
  else if a = F.BRD_BCAST_CMD.addr then some (outGet s (execBrdBcastCmd i w s))
  else if a = F.SPL_CTRL.addr then some (s.splEnable i w)
  else if a = F.SPL_CMD.addr then some (s.splCmd i w)
  else if a = F.SPL_COMMIT.addr then some (outGet s (execSplCommit i w s))
  else if a = F.HAL_CTRL.addr then some (s.halCtrl i w)
  else if a = F.HAL_COMMIT.addr then some (outGet s (execHalCommit i w s))
  else if 0x130100 ≤ a ∧ p < 2 ∧ a % 0x80 = 0x4C then some (s.msecCmd i p w)
  else if a = F.BLY_START.addr then some (outGet s (execBlyStart i w s))
  else if a = F.BLY_CANCEL.addr then some (outGet s (execBlyCancel i w s))
  else none

/-- A write of one word to the CSR space by interface `i` (R498, R499). -/
def State.regWrite (s : State) (i : Iface) (a : Nat) (w : Word) : State :=
  if a % 4 ≠ 0 ∨ 2 ^ 24 ≤ a then s
  else if h : 0x400000 ≤ a ∧ (a - 0x400000) / 0x40000 < 9 then
    outGet s (execCoefWrite i ⟨(a - 0x400000) / 0x40000, h.2⟩ (BitVec.ofNat 16 ((a - 0x400000) % 0x40000 / 4)) w s)
  else
    let own := if a < 0x040000 then s.writeTop i a w
      else if a < 0x0C0000 then s.writeLine i a w
      else if a < 0x100000 then s.writePlan i a w
      else if a < 0x120000 then s.writeKeep i a w
      else if a < 0x140000 then s.writeHost i a w
      else none
    own.getD (s.plainWrite i a w)

/-- A read of one word of the CSR space by interface `i` (R499, R500): the word read is held in `reply`. -/
def State.regRead (s : State) (i : Iface) (a : Nat) : State :=
  if a % 4 ≠ 0 ∨ 2 ^ 24 ≤ a then s.setReply i 0
  else if a = F.FC_AUX_DATA.addr then outGet s (execFcAuxDataAccess i none s)
  else if a = F.MAC_SCRIPT_DATA.addr then outGet s (execMacScriptDataAccess i none s)
  else match wideOf a with
  | none => s.setReply i (s.view a)
  | some (b, n) =>
    if a = b then (s.latchWide i a (n - 1)).setReply i (s.view a)
    else s.setReply i (tget (fun _ => 0) s.rlatch (latchKey i a))

/-- The word last read by interface `i`. -/
def State.lastRead (s : State) (i : Iface) : Word := tget (fun _ => 0) s.reply i.id

end Sys2Proof.Machine
end

