-- ==== Sys2Proof/Machine/ImageOps.lean ====
section
/-! DEFINITION. The Yarloiz image: its header and section table, its write lists, and their application (R450 to R453, R471). -/
namespace Sys2Proof.Machine
open Sys2Proof

/-! ### Layout (R450) -/

/-- A section table entry. -/
structure ImgSec where
  type : Nat
  index : Nat
  offset : Nat
  length : Nat
  crc : Nat
  deriving DecidableEq, Repr

/-- `n` bytes of an image from byte `o`, as a little-endian number. -/
def imgNum (img : List Byte) (o n : Nat) : Nat := ofLe ((img.drop o).take n)

/-- The section table. -/
def imgTable (img : List Byte) : List ImgSec :=
  (List.range (imgNum img 9 1)).map (fun j =>
    let o := 32 + 16 * j
    ⟨imgNum img o 1, imgNum img (o + 1) 1, imgNum img (o + 4) 4, imgNum img (o + 8) 4, imgNum img (o + 12) 4⟩)

/-- The bytes of a section. -/
def ImgSec.data (e : ImgSec) (img : List Byte) : List Byte := (img.drop e.offset).take e.length

/-- The magic "KN14IMAG". -/
def imgMagic : List Byte := [0x4B#8, 0x4E#8, 0x31#8, 0x34#8, 0x49#8, 0x4D#8, 0x41#8, 0x47#8]

/-- `MAGIC`, `FORMAT`, `SECTIONS` and `IMAGE_LEN` are valid (R450). -/
def imgHeadOk (img : List Byte) : Bool :=
  let f := imgNum img 8 1
  let n := imgNum img 9 1
  let len := imgNum img 12 4
  img.take 8 == imgMagic && (f == 1 || f == 2) && decide (1 ≤ n) && decide (n ≤ 32) && decide (len ≤ 8388608)
    && decide (32 + 16 * n ≤ len)

/-- `HDR_CRC` is good. -/
def imgCrcOk (img : List Byte) : Bool :=
  (crc32c (img.take 28 ++ (img.drop 32).take (16 * imgNum img 9 1))).toNat == imgNum img 28 4

/-- The section table is one that an image may have: known types inside the image, one GLOBAL, at most one of each PROFILE and, in
v2 only, at most one GOLDEN section; and some PROFILE section (R450, R453). -/
def imgTableOk (img : List Byte) : Bool :=
  let t := imgTable img
  let len := imgNum img 12 4
  let num := fun (ty ix : Nat) => (t.filter (fun (e : ImgSec) => e.type == ty && e.index == ix)).length
  let good := fun (e : ImgSec) => (e.type == 1 || e.type == 2 || (e.type == 3 && imgNum img 8 1 == 2)) && decide (e.offset + e.length ≤ len)
    && (if e.type = 2 then decide (e.index < 4) else e.index == 0)
  t.all good && num 1 0 == 1 && decide (num 3 0 ≤ 1) && (List.range 4).all (fun p => decide (num 2 p ≤ 1))
    && t.any (fun e => e.type == 2)

/-! ### Write lists (R451) -/

/-- The words of bytes. -/
def wordsOf (l : List Byte) : List Nat := (List.range (l.length / 4)).map (fun j => ofLe ((l.drop (4 * j)).take 4))

/-- The writes of a list of records, none when it is invalid. -/
def listWrites : Nat → List Nat → Option (List (Nat × Nat))
  | _, [] => some []
  | n + 1, a :: c :: t =>
    if a % 4 ≠ 0 ∨ c = 0 ∨ 65536 < c ∨ t.length < c ∨ 0x800000 < a + 4 * c then none
    else (listWrites n (t.drop c)).map (fun l => (t.take c).mapIdx (fun j w => (a + 4 * j, w)) ++ l)
  | _, _ => none

/-- The writes of a section. -/
def secWrites (l : List Byte) : Option (List (Nat × Nat)) :=
  if l.length % 4 ≠ 0 then none else listWrites l.length (wordsOf l)

/-- An address that a PROFILE section may write. -/
def profAddr (a : Nat) : Bool :=
  (decide (0x040000 ≤ a) && decide (a < 0x100000)) || (decide (0x400000 ≤ a) && decide (a < 0x680000))
    || a == F.CIP_CTRL.addr || a == F.CIP_CFG.addr

/-- The writes of a PROFILE section, none when it is invalid. -/
def profWrites (l : List Byte) : Option (List (Nat × Nat)) :=
  (secWrites l).bind (fun ws => if ws.all (fun x => profAddr x.1) then some ws else none)

/-- One write of the loader (R72, R451): interface 4; a write of `FC_BANK` sets both banks and discards a pending swap. -/
def State.loadWord (s : State) (a w : Nat) : State :=
  if 0x060000 ≤ a ∧ a < 0x077B00 ∧ a % 0x80 = 0x18 then
    let o := (a - 0x060000) / 0x80 * 0x80
    let s := ((s.put F.FC_BANK_ACTIVE_SET o (w % 64)).put F.FC_BANK_STANDBY_SET o (w / 256 % 64)).putB F.FC_BANK_PENDING o false
    s.onChain (o / 0x80) (fun x => { x with swapReq := none })
  else s.regWrite .module a (BitVec.ofNat 32 w)

/-- A write list is applied. -/
def State.loadList (s : State) (l : List (Nat × Nat)) : State := l.foldl (fun (s : State) x => s.loadWord x.1 x.2) s

/-! ### Commits of the loader -/

/-- Every pending commit of the blocks applies at once, nothing being at work. -/
def State.applyAll (s : State) (blocks : List Nat) : State :=
  let s := if blocks.contains 7 ∧ s.commitPending 7 then s.macApply else s
  let mine := s.commits.filter (fun (c : Commit) => blocks.contains c.block)
  let s := s.applyCells (mine.flatMap (fun (c : Commit) => c.cells))
  { s with commits := s.commits.filter (fun (c : Commit) => !blocks.contains c.block) }

/-- The loader's commits (R452, step 5; R505): every block over its full scope, all or none; each counts as one accepted commit. -/
def State.loadCommit (s : State) (blocks : List Nat) : State × Bool :=
  let r := s.glbApply .module blocks
  if r.2 then ((r.1.incWrap F.GLB_COMMIT_CNT_APPLIED 0 (blocks.length - 1)).applyAll blocks, true) else r

/-- Every chain restarts (R72). -/
def State.allRestart (s : State) : State := (List.range 758).foldl (fun (s : State) c => s.chainRestart c) s

/-! ### Golden signatures (R471) -/

/-- The entries of a GOLDEN section for this die revision. -/
def goldenOf (l : List Byte) : List GoldenE :=
  ((List.range (min 64 (imgNum l 0 4))).filter (fun j => imgNum l (8 + 16 * j + 1) 1 == (Config.revision).toNat % 256)).map (fun j =>
    ⟨imgNum l (8 + 16 * j) 1, imgNum l (8 + 16 * j + 4) 4, BitVec.ofNat 64 (imgNum l (8 + 16 * j + 8) 8)⟩)

/-! ### Check unit 0 (R358) -/

/-- Unit 0 checks a section that the NVM controller reads (R352, stream 11); the answer says whether it matched. -/
def State.nvmCheck (s : State) (l : List Byte) (crc : Nat) : State × Bool :=
  let s := ((s.snoop 11 0 l).chkExpect 0 (BitVec.ofNat 32 crc)).chkComplete 0 l
  (s, s.get F.CHK_STATUS_OUTCOME == 1)

/-! ### Loading (R452, R453) -/

/-- The profile that an image gives: the one selected, or the lowest present (R453). -/
def imgProfile (img : List Byte) (p : Nat) : Nat :=
  let has := fun (q : Nat) => (imgTable img).any (fun (e : ImgSec) => e.type == 2 && e.index == q)
  if has p then p else ((List.range 4).find? has).getD 0

/-- One section is checked and, for GLOBAL and the chosen profile, applied; the answer is the cause of a failure, 0 for none. A section
that does not match is read once more. -/
def State.loadSection (s : State) (img : List Byte) (prof : Nat) (e : ImgSec) : State × Nat :=
  let l := e.data img
  let r := s.nvmCheck l e.crc
  let r := if r.2 then r else r.1.nvmCheck l e.crc
  if !r.2 then (r.1, 3)
  else if e.type = 3 then ({ r.1 with tst := { r.1.tst with golden := goldenOf l } }, 0)
  else match (if e.type = 1 then secWrites l else profWrites l) with
  | none => (r.1, 5)
  | some ws => if e.type = 1 ∨ e.index = prof then (r.1.loadList ws, 0) else (r.1, 0)

/-- Step 3 of start-up on the bytes of an image (R452); the answer is the cause of a failure, 0 for none. -/
def State.loadImageFile (s : State) (img : List Byte) : State × Nat :=
  if img.length < 32 then (s, 7)
  else if !imgHeadOk img then (s, 1)
  else
    let len := imgNum img 12 4
    if img.length < len then (s, 7)
    else if !imgCrcOk img then (s, 2)
    else if !imgTableOk img then (s, 5)
    else
      let pins := s.get F.PWR_PROF_STAT_PINS
      let p := imgProfile img pins
      let s := (s.put F.PWR_PROF_STAT_PRESENT 0 (imgNum img 11 1 % 16)).put F.PWR_IMAGE_VER_VERSION 0 (imgNum img 16 4)
      let s := if p = pins then s else s.raise Ev.PROFILE_REFUSED pins
      let s := s.setLive F.GLB_STATUS.addr (setBits (s.live F.GLB_STATUS.addr) 1 0 p)
      -- GLOBAL is applied before the profile, whatever their order in the table
      let t := imgTable img
      let order := t.filter (fun (e : ImgSec) => e.type == 1) ++ t.filter (fun (e : ImgSec) => e.type != 1)
      let r := order.foldl (fun (r : State × Nat) e => if r.2 = 0 then r.1.loadSection img p e else r) (s, 0)
      if r.2 ≠ 0 then r
      else
        let s := r.1
        let needs := imgNum img 8 1 == 2 && (imgNum img 10 1).testBit 0
        let macOk := match s.anchor with
          | some ka => s.bit F.CIP_STATUS_ANCHOR && cmac (imageKey (s.useKey ka)) (img.take (len - 16)) == (img.take len).drop (len - 16)
          | none => false
        if needs && !macOk then (s, 4)
        else
          let c := s.loadCommit ((List.range 14).drop 1)
          if c.2 then (c.1, 0) else (c.1, 6)

/-! ### A profile in the running module (R454) -/

/-- The blocks that a profile writes (R451). -/
def profBlocks : List Nat := [2, 3, 4, 5, 6, 7, 8, 9]

/-- The power of every blanker starts again at 0 dBFS (R163). -/
def State.blankFull (s : State) : State :=
  { s with blankers := s.blankers.foldl (fun t e =>
      tset (fun _ => BlankS.init) t e.1 { e.2 with sigma2 := BlankS.init.sigma2 }) s.blankers }

/-- The writes of a profile's section are made and committed, nothing being at work; every chain restarts, the maps clear where R162
says so, both mains sets are UNLOCKED (R155), and the blankers start at 0 dBFS (R163).  The answer says whether the commits were
accepted. -/
def State.profPut (s : State) (ws : List (Nat × Nat)) : State × Bool :=
  let band := s.live F.LP_WATCH_BAND.addr
  let r := ({ s with profPhase := 4 }.loadList ws).loadCommit profBlocks
  let t := r.1
  let t := if t.live F.LP_WATCH_BAND.addr = band then t
    else (List.range 144).foldl (fun (t : State) p => t.mapClear p) t
  let t := (List.range 144).foldl (fun (t : State) p => t.lpApplied s p) t
  ({ (((t.mnsUnlock 0).mnsUnlock 1).blankFull).allRestart with profPhase := 0 }, r.2)

/-- The previous profile is applied again from its section as read; a section that cannot be read or does not check ends all line and
radio work until a reset (R455). -/
def State.profAgain (s : State) (prev : Option (List Byte)) : State :=
  match prev.bind profWrites with
  | none => (({ s with profPhase := 0 }.lineStop State.portEnd).macStop.onUp (fun u => { u with dead := true })).raise Ev.IMAGE_FAIL 3
  | some ws =>
    let r := s.profPut ws
    if r.2 then r.1
    else ((r.1.lineStop State.portEnd).macStop.onUp (fun u => { u with dead := true })).raise Ev.IMAGE_FAIL 6

end Sys2Proof.Machine
end

