-- ==== Sys2Proof/Machine/Ticks.lean ====
section
/-! DEFINITION. What one tick of the time base does while no command waits (log entry 1): the tick itself, stretched or shortened by the
discipline (R458, R459), and the departure of queued link frames (R384). -/
namespace Sys2Proof.Machine
open Sys2Proof

/-- A message leaves port `p` as it is sent: a DELAY_REQ is stamped (t1), a DELAY_RESP takes t3, and TIME takes the master's time base at
departure, or the residence time in its correction (R388). -/
def State.departBody (s : State) (m : Msg) : List Byte :=
  let c := m.body.drop 8
  let own := decide ((m.body.getD 3 0).toNat = s.nodeId)
  if m.kind = 0x23 ∧ (c.getD 0 0).toNat = 1 then m.body ++ le s.tick 8
  else if m.kind = 0x24 then
    if own then m.body.take 8 ++ le s.tick 8 ++ c.drop 8
    else m.body.take 8 ++ c.take 8 ++ le (toSigned 64 (signed 64 (ofLe ((c.drop 8).take 8)) + (s.tick - m.sent : Nat))) 8 ++ c.drop 16
  else m.body

/-- The key index of a frame that leaves on link `l` (R366, R368): a HELLO shows the stored one; the CONFIRM of an insertion beside an UP
ring port goes under that port's new one (R394). -/
def State.wireIdx (s : State) (l kind : Nat) : Nat :=
  if kind = 1 then s.vaultSoonNum (linkKeyAt l) 4
  else if kind = 2 ∧ l ≠ 0 then ((s.insertionAt (l - 1)).map (·.2.1)).getD (s.link l).keyIdx else (s.link l).keyIdx

/-- The bytes of a link frame (R366).  A HELLO is not protected and carries a CRC-32C (R367); every other frame is enciphered by GCM under
the key of the link and of its key index, with the sender's serial number and the frame's sequence as IV (R319, R326). -/
def State.wireBytes (s : State) (l kind flags seq : Nat) (payload : List Byte) : List Byte :=
  let idx := s.wireIdx l kind
  let head := le kind 1 ++ le flags 1 ++ le payload.length 2 ++ le idx 4 ++ le seq 8
  if kind = 1 then head ++ payload ++ le (crc32c (head ++ payload)).toNat 4 ++ List.replicate 12 0
  else
    let key := linkKey (s.useKey (s.anchor.getD ⟨[], []⟩)) (if l = 0 then 1 else 2) idx
    let e := gcmEnc key (le s.serialNum 4 ++ le seq 8) head payload
    head ++ e.1 ++ e.2

/-- A frame leaves on link `l`: the check units see its payload before it is enciphered (R352), and its bytes go out.  The body of a
bring-up frame begins with its `LF_FLAGS`. -/
def State.wireSend (s : State) (l kind seq : Nat) (body : List Byte) : State :=
  let up := kind < 0x10
  let flags := if up then (body.headD 0).toNat else 1
  let payload := if up then body.drop 1 else body
  let s := if l = 0 then s.snoop 8 0 payload else s.snoop 10 (l - 1) payload
  let w := s.wireBytes l kind flags seq payload
  let s := if kind = 1 then s else s.maskUse
  s.onLink l (fun x => { x with last := some ⟨kind, seq, s.tick, body⟩, wire := w })

/-- One message leaves ring port `p`, if one may (`State.portPick`). -/
def State.departPort (s : State) (p : Nat) (gcm : Bool) : State :=
  match s.portPick p gcm with
  | none => s
  | some m =>
    let s := { s with brdOut := s.brdOut.erase m }
    let s := if m.2.kind = 0x23 ∧ (m.2.body.getD 8 0).toNat = 0 then
        s.onBrd (fun b => { b with reqs := tset (fun _ => none) b.reqs p (some s.tick) })
      else s
    let up := m.2.kind < 0x20
    let s := s.wireSend (p + 1) m.2.kind (if up then 0 else (s.link (p + 1)).txSeq) (s.departBody m.2)
    s.onLink (p + 1) (fun x => { x with lastTx := s.tick, txSeq := if up then x.txSeq else x.txSeq + 1 })

/-- One frame leaves the Splice link: what waits for no acknowledgement leaves the queue (R376, R377). -/
def State.departSplice (s : State) (gcm : Bool) : State :=
  match s.splicePick gcm with
  | none => s
  | some m =>
    let mirror := decide (0x11 ≤ m.kind) && decide (m.kind ≤ 0x15)
    let s := if mirror then s else { s with splOut := s.splOut.erase m }
    let s := if m.kind < 0x10 then s else s.onSpl (fun x => { x with txTo := m.seq + 1 })
    s.wireSend 0 m.kind m.seq m.body

/-- One cycle of the clock that advances the time base: REFCLK through the locked PLL, whose tick the discipline stretches or shortens by
ρ (R458); the crystal while the PLL is not locked, 1,171.875 ticks a cycle (R26); REFCLK again where the crystal is out of use; none
where both are absent, and the time base holds (R457).  The fraction is carried. -/
def State.tickOn (s : State) : State :=
  let ref : Rat := 1 + s.up.rho / 1000000
  let d : Rat := if s.bit F.CLK_STATUS_PLL_LOCK then ref
    else if !s.up.xtBad then 9375 / 8
    else if s.bit F.CLK_STATUS_REFCLK_OK then ref else 0
  let x : Rat := s.up.frac + d
  { s with tick := s.tick + x.floor.toNat, up := { s.up with frac := x - (x.floor.toNat : Rat) } }

/-- The link frames that may leave now do; protected ones wait while frame-path CCM waits for the cipher engine (R27),
and while the engine does not compute (R332, R334). -/
def State.depart (s : State) : State :=
  let gcm := s.engineUp && !s.ccmWaits
  ((s.departPort 0 gcm).departPort 1 gcm).departSplice gcm

/-- The block idles for one such cycle; link frames leave, and the status registers follow. -/
def State.idle (s : State) : State := (((s.tickOn).sysrefTick).depart).settle

end Sys2Proof.Machine
end

