-- ==== Sys2Proof/Machine/Clocks.lean ====
section
/-! DEFINITION. Clock faults (R456, R457), the discipline from `PPS_IN` (R458 to R460), `PPS_OUT` and the CLK commit (R467). -/
namespace Sys2Proof.Machine
open Sys2Proof

/-! ### Loss and return of the PLL (R456) -/

/-- The start-up step in progress (R447). -/
def State.startCode (s : State) : Nat := s.get F.PWR_START_STAT_STEP

/-- Line and radio work ends with the PLL's domains, the enable chain owes the all-zero word, an OWNER drives `OWN_OUT` low, and the links
go down (R456). -/
def State.domainsHalt (s : State) : State :=
  let s := s.lineStop State.portHalt
  let s := s.macStop
  let s := s.cordsStop
  ((s.aenZero).driveOwnOut false).linksHalt

/-- A profile switch that meets the loss of the PLL fails, and the previous profile is owed (R464). -/
def State.switchLost (s : State) : State :=
  if s.switching then ((s.onUp (fun u => { u with reapply := true })).jobsFail [7] 4).profNone else s

/-- A start-up in steps 3 to 7 goes back to step 2 (R448). -/
def State.startAgain (s : State) : State :=
  if 2 ≤ s.startCode ∧ s.startCode ≤ 5 then
    ((s.putB F.GLB_STATUS_READY 0 false).putB F.MGT_STATUS_READY 0 false).startStep 1
  else s

/-- The PLL's domains stop (R456). -/
def State.clockHalt (s : State) : State :=
  let s := (s.putB F.CLK_STATUS_PLL_LOCK 0 false).onUp (fun u => { u with clockLost := true })
  let s := s.putB F.PWR_DOMAIN_STAT_FALLBACK 0 true
  (s.domainsHalt.switchLost).startAgain

/-- REFCLK_LOST (R456): no edge for 1 µs. -/
def execRefclkLost (s : State) : Out := s.answer <|
  if s.up.run ≠ 2 ∨ !s.bit F.CLK_STATUS_REFCLK_OK then .next s
  else
    let s := (s.putB F.CLK_STATUS_REFCLK_OK 0 false).raise Ev.REFCLK_LOST 0
    .next (if s.up.clockLost then s else s.clockHalt)

/-- PLL_UNLOCK (R456): the PLL loses lock while REFCLK is present. -/
def execPllUnlock (s : State) : Out := s.answer <|
  if s.up.run ≠ 2 ∨ !s.bit F.CLK_STATUS_PLL_LOCK ∨ !s.bit F.CLK_STATUS_REFCLK_OK then .next s
  else .next (s.raise Ev.PLL_UNLOCK 0).clockHalt

/-- PLL_RELOCK (R456, R457, R464): the PLL has been relocked for 10 ms.  `prev` is the section of the profile in force as read, for a
profile switch that the loss broke off; its size of step is not stated when the time base had held, and is a free value. -/
def execPllRelock (prev : Option (List Byte)) (s : State) : Out := s.answer <|
  if s.up.run ≠ 2 ∨ !s.up.clockLost ∨ s.startCode < 6 then .next s
  else
    let held := s.up.xtBad && !s.bit F.CLK_STATUS_REFCLK_OK
    let s := ((s.putB F.CLK_STATUS_PLL_LOCK 0 true).putB F.CLK_STATUS_REFCLK_OK 0 true).onUp (fun u => { u with clockLost := false })
    let s := s.putB F.PWR_DOMAIN_STAT_FALLBACK 0 false
    let s := if held then (let r := s.draw 16; r.2.raise Ev.TIME_STEP r.1.toNat) else s
    let s := if s.up.reapply then (s.onUp (fun u => { u with reapply := false })).profAgain prev else s
    let s := if s.startCode = 7 then s
      else if s.bit F.SPL_CTRL_EN then
        (s.ownLose.put F.SPL_STATUS_ROLE 0 1).onSpl (fun x => { x with start := some s.tick, was := 1, claimAt := none, retryAt := none })
      else s
    .next ((s.linksBack).macStart)

/-- XT32_CHECK (R457): the comparison of each second; `ok` says that the crystal is within ±1,000 ppm. -/
def execXt32Check (ok : Bool) (s : State) : Out := s.answer <|
  let s' := (s.putB F.CLK_STATUS_XT32_OK 0 ok).onUp (fun u => { u with xtBad := !ok })
  .next (s'.raiseIf (!ok && !s.up.xtBad) Ev.XT32_FAIL 0)

/-! ### `PPS_IN` (R458 to R460) -/

/-- The PPS is locked or not; the source follows. -/
def State.ppsLocked (s : State) (on : Bool) : State :=
  let s := (s.putB F.CLK_STATUS_PPS_LOCK 0 on).onUp (fun u => { u with ppsGood := 0, ppsBad := 0 })
  (s.raise (if on then Ev.PPS_LOCKED else Ev.PPS_LOST) 0).sourceShow

/-- The lock after an accepted edge of error `e` (R460). -/
def State.ppsJudge (s : State) (e : Int) : State :=
  let lim := s.get F.CLK_PPS_CFG_LOCK_TICKS
  let good := if e.natAbs ≤ lim then s.up.ppsGood + 1 else 0
  let bad := if 8 * lim < e.natAbs then s.up.ppsBad + 1 else 0
  let s := s.onUp (fun u => { u with ppsGood := good, ppsBad := bad })
  if s.bit F.CLK_STATUS_PPS_LOCK then (if 2 ≤ bad then s.ppsLocked false else s)
  else if 4 ≤ good then s.ppsLocked true else s

/-- The error of an edge stamped at `tp` (R459). -/
def ppsError (tp : Nat) : Int := (tp : Int) - 38400000 * (((tp + 19200000) / 38400000 : Nat) : Int)

/-- PPS_EDGE (R459, R460, R464): a rising edge now.  An edge outside the window after the last accepted one is a glitch.  An accepted one
is a sample of the discipline; sync groups that take the PPS are triggered after its step (R464). -/
def execPpsEdge (s : State) : Out := s.answer <|
  if !s.bit F.CLK_PPS_CFG_EN then .next ({ s with ppsLast := some s.tick }.syncPps s.tick)
  else
    let glitch := match s.ppsLast with
      | none => false
      | some t => decide (s.tick < t + 38361600) || decide (t + 38438400 < s.tick)
    if glitch then .next (s.incSat F.CLK_CNT_GLITCHES)
    else
      let e := ppsError s.tick
      let was := s.timeSource
      let s := (s.incWrap F.CLK_CNT_EDGES).putI F.CLK_PPS_ERR_E 0 e
      let s := s.ppsJudge e
      let s := s.sourceShow
      let s := if s.timeSource = 2 then s else s.discipline e 1 (was != 1)
      .next ({ s with ppsLast := some s.tick }.syncPps s.tick)

/-- PPS_LOST (R460): no edge within 1.5 s of the expected one; a PPS that was not locked yet begins again with its next edge
(DESIGN CHOICE, log entry 60). -/
def execPpsLost (s : State) : Out := s.answer <|
  match s.ppsLast with
  | none => .next s
  | some t =>
    if s.tick < t + 38400000 + 57600000 then .next s
    else
      let s' := { s with ppsLast := none }
      .next (if s.bit F.CLK_STATUS_PPS_LOCK then s'.ppsLocked false else s'.onUp (fun u => { u with ppsGood := 0, ppsBad := 0 }))

/-- PPS_OUT_PULSE (R460): the time base has passed a multiple of 38,400,000 ticks. -/
def execPpsOutPulse (s : State) : Out := s.answer <|
  let m := s.tick / 38400000 * 38400000
  if s.bit F.CLK_PPS_OUT_EN ∧ s.tick < m + 1172 then
    .next (s.onUp (fun u => { u with ppsHigh := some (m + msTicks (s.get F.CLK_PPS_OUT_WIDTH_MS)) }))
  else .next s

/-- CLK_COMMIT (R467). -/
def execClkCommit (i : Iface) (w : Word) (s : State) : Out := s.answer <| .next (s.clkCommit i w)

/-- BRAID_TIME_VALID_LAPSE (R388, R458): no TIME for four intervals. -/
def execBraidTimeValidLapse (s : State) : Out := s.answer <|
  if s.bit F.BRD_TIME_STAT_VALID ∧ s.brd.timeAt + 4 * sTicks (s.get F.BRD_TIME_CFG_INTERVAL) ≤ s.tick then
    .next (s.putB F.BRD_TIME_STAT_VALID 0 false).sourceShow
  else .next s

end Sys2Proof.Machine
end

