-- ==== Sys2Proof/Machine/Commands.lean ====
section
/-! DEFINITION. The commands of the head-end as the supervisor serves them, in arrival order (R228, R415 to R418). -/
namespace Sys2Proof.Machine
open Sys2Proof

/-- The command at the head of the queue, taken from it, when its operation is `op`: its interface and its body (R417). -/
def State.cmdHead (s : State) (op : Nat) : Option (State × Nat × List Byte) :=
  match s.cmdQ with
  | (i, b) :: rest => if cmdOpOf b = op then some ({ s with cmdQ := rest }, i, b) else none
  | [] => none

/-- The interface of an id (R424). -/
def ifaceOf (n : Nat) : Iface := if n = 0 then .mgt else if n = 1 then .h0 else if n = 2 then .h1 else .fabric

/-- The address and the count of a burst (R415). -/
def cmdBurst (b : List Byte) : Nat × Nat := (cmdNum b 0 3, cmdNum b 4 2)

/-- The burst may not be made: its first address is unaligned, or a word lies above 0x7FFFFF (R416). -/
def burstBad (a n : Nat) : Bool := decide (a % 4 ≠ 0) || decide (0x800000 < a + 4 * n)

/-- Reads `n` words from `a` on, in order (R415). -/
def State.burstRead (s : State) (i : Iface) (a n : Nat) : State × List Byte :=
  (List.range n).foldl (fun (p : State × List Byte) k =>
    let t : State := p.1.regRead i (a + 4 * k)
    (t, p.2 ++ le (t.lastRead i).toNat 4)) (s, [])

/-- Writes the words of a CSR_WRITE in order (R415). -/
def State.burstWrite (s : State) (i : Iface) (a n : Nat) (b : List Byte) : State :=
  (List.range n).foldl (fun (s : State) k => s.regWrite i (a + 4 * k) (BitVec.ofNat 32 (cmdNum b (8 + 4 * k) 4))) s

/-- CMD_METER_COMMAND (R228, R415, R416): STATE where the session is not ACTIVE; otherwise the command waits for the lease on its context
and is answered QUEUED, BUSY or REFUSED. -/
def execCmdMeterCommand (s : State) : Out := s.answer <|
  match s.cmdHead 1 with
  | none => .next s
  | some (s, _, b) =>
    let k := cmdSesOf b
    if (s.slot k).st ≠ 2 ∨ k = 0 ∨ 0xFFFE ≤ k then .next (s.cmdAnswer b 9 [])
    else
      let m : MeterCmd := ⟨cmdIdOf b, k, cmdFlagsOf b, cmdDataOf b, false, 0⟩
      .next (({ s with meterCmds := s.meterCmds ++ [m] }.leaseAsk k 24).serve)

/-- CMD_CSR_READ (R415, R416). -/
def execCmdCsrRead (s : State) : Out := s.answer <|
  match s.cmdHead 2 with
  | none => .next s
  | some (s, i, b) =>
    let (a, n) := cmdBurst b
    if burstBad a n then .next (s.cmdAnswer b 5 [])
    else
      let r := s.burstRead (ifaceOf i) a n
      .next (r.1.cmdAnswer b 0 r.2)

/-- CMD_CSR_WRITE (R415, R416, R511): a write of the soft reset has no response. -/
def execCmdCsrWrite (s : State) : Out := s.answer <|
  match s.cmdHead 3 with
  | none => .next s
  | some (s, i, b) =>
    let (a, n) := cmdBurst b
    if burstBad a n then .next (s.cmdAnswer b 5 [])
    else
      let had := s.up.softAt.isSome
      let s := s.burstWrite (ifaceOf i) a n b
      .next (if s.up.softAt.isSome && !had then s else s.cmdAnswer b 0 (le n 2))

/-- CMD_RAW_JOB (R328, R415): the job joins the cipher engine's queue and answers when it ends. -/
def execCmdRawJob (s : State) : Out := s.answer <|
  match s.cmdHead 4 with
  | none => .next s
  | some (s, _, b) =>
    let d := cmdDataOf b
    let word := fun (off : Nat) => BitVec.ofNat 32 (cmdNum b off 4)
    let part := fun (off n : Nat) => (d.drop off).take n
    .next (s.maskUse.rawJoin ⟨some (cmdIdOf b), word 0, word 4, word 8, part 12 16, part 28 16, s.share (part 44 32), d.drop 76, 0⟩)

/-- CMD_JOB_START (R415, R430, R433). -/
def execCmdJobStart (s : State) : Out := s.answer <|
  match s.cmdHead 5 with
  | none => .next s
  | some (s, i, b) =>
    let p := (List.range 4).map (fun j => cmdNum b (4 + 4 * j) 4)
    let r := s.jobRequest (cmdNum b 0 1) (cmdNum b 1 1) i (cmdIdOf b) p
    let s := r.1.respond (cmdIdOf b) 5 r.2.2 0 (match r.2.1 with | some k => le k 1 | none => [])
    .next (if r.2.2 = 2 then s.raise Ev.CMD_REJECT (cmdIdOf b % 65536) else s)

/-- CMD_JOB_CANCEL (R415, R433). -/
def execCmdJobCancel (s : State) : Out := s.answer <|
  match s.cmdHead 6 with
  | none => .next s
  | some (s, _, b) =>
    let k := cmdNum b 0 1
    if 16 ≤ k then .next ((s.respond (cmdIdOf b) 6 2 0 []).raise Ev.CMD_REJECT (cmdIdOf b % 65536))
    else .next ((s.jobCancel k).respond (cmdIdOf b) 6 1 0 [])

/-- CMD_REPLACE_ACK (R415, R487). -/
def execCmdReplaceAck (s : State) : Out := s.answer <|
  match s.cmdHead 7 with
  | none => .next s
  | some (s, _, b) => .next ((s.replaceAck (cmdNum b 0 4)).cmdAnswer b 0 [])

end Sys2Proof.Machine
end

