-- ==== Sys2Proof/Machine/Cores.lean ====
section
/-! DEFINITION. The Capstan cores and the arbitration of link GCM (R25, R27). -/
namespace Sys2Proof.Machine
open Sys2Proof

/-- CORE_LOST (R25, R234, R482, R484): core `core` stops.  It is marked, its roles move, and the replace request is made. -/
def execCoreLost (core : Fin 4) (s : State) : Out := s.answer <|
  if s.up.run ≠ 2 ∨ s.up.coresOut.testBit core.val then .next s
  else
    let s := if s.marked (26 + core.val) then s else s.markSet (26 + core.val)
    .next (((s.coreMove core.val).ladder).serve)

/-- LINK_GCM_WAIT_EXPIRY (R27): a frame of link `l` (0 Splice, 1 and 2 the ring ports, 3 Halyard) has waited 8 µs for the cipher engine
and is served ahead of frame-path work. -/
def execLinkGcmWaitExpiry (l : Fin 4) (s : State) : Out := s.answer <|
  let old := fun (m : Msg) => decide (m.sent + usTicks 8 ≤ s.tick)
  if !s.engineUp then .next s
  else if l.val = 3 then
    .next (if s.halWaits && s.hal.heldAt.any (fun t => decide (t + usTicks 8 ≤ s.tick)) then
        (if s.bit F.HAL_STATUS_NEGOTIATED then s.recordSend false else s.helloNow)
      else s)
  else if l.val = 0 then .next (if (s.splicePick true).any old then s.departSplice true else s)
  else .next (if s.brdOut.any (fun m => m.1 == l.val - 1 && old m.2) then s.departPort (l.val - 1) true else s)

end Sys2Proof.Machine
end

