-- ==== Sys2Proof/Machine/Frames.lean ====
section
/-! DEFINITION. The frame unit, the Viterbi units and the MIC verdict: DEINTERLEAVE_DONE, VITERBI_DECODE_START,
VITERBI_DECODE_DONE and CCM_VERIFY_DONE (R23, R136 to R142, R322, R323, R333). -/
namespace Sys2Proof.Machine
open Sys2Proof

/-! ### Units of decoding -/

/-- A body serves a priority session (R23): the session of its exchange or pair. -/
def State.bodyPrio (s : State) (r : Nat) : Bool :=
  if r < 576 then ((s.exchOfRx r).map (fun e => (s.slot e.session).prio)).getD false
  else ((s.pairOf r).map (fun p => (s.slot p.session).prio)).getD false

/-- The registers of the Viterbi queue (R146). -/
def State.vitShow (s : State) : State :=
  let n := min 255 s.bodies.length
  let busy := fun u => (tget (fun _ => none) s.viterbi u).isSome
  let s := (s.put F.STR_VIT_STAT_QUEUED 0 n).put F.STR_VIT_STAT_BUSY 0 ((if busy 0 then 1 else 0) + (if busy 1 then 2 else 0))
  s.put F.STR_VIT_STAT_QUEUED_MAX 0 (max n (s.get F.STR_VIT_STAT_QUEUED_MAX))

/-- Whether a Viterbi unit is out of service (R483). -/
def State.vitMarked (s : State) (u : Nat) : Bool := s.marked (10 + u)

/-- The receivers whose frames count as one for block mode: those of receiver `r`'s exchange (R137). -/
def State.blockPeers (s : State) (r : Nat) : List Nat :=
  match s.exchOfRx r with
  | some e => e.strands
  | none => [r]

/-- The blocks kept for receiver `r`'s exchange (R137). -/
def State.blocksOf (s : State) (r : Nat) : Option BlockStore := s.blockStore.find? (fun b => (s.blockPeers r).contains b.rx)

/-- The kept blocks of receiver `r`'s exchange are gone. -/
def State.blocksDrop (s : State) (r : Nat) : State :=
  { s with blockStore := s.blockStore.filter (fun x => !(s.blockPeers r).contains x.rx) }

/-- `BLOCKS_GOOD` follows the blocks kept (R145). -/
def State.blocksShow (s : State) (r : Nat) : State :=
  let map := ((s.blocksOf r).map (fun k => k.blocks.foldl (fun (m : Nat) x => m + 2 ^ x.1) 0)).getD 0
  s.put F.STR_FRM_LAST2_BLOCKS_GOOD (rxO r) map

/-- Percent of the coded bits of a unit that are erased, as (erased, all) (R140, R145). -/
def unitCount (h : PhyHdr) (l : List (Int × Nat)) : Nat × Nat :=
  let n := codedLen h.unitBits h.coding
  (((deinterleave l).take n).countP (fun v => v.2 == 0), n)

/-- The transmitted values of each unit of a body: the frame, or its blocks in ascending number (R136). -/
def Body.units (b : Body) : List (Option Nat × List (Int × Nat)) :=
  if b.hdr.block then
    let n := paddedLen b.hdr.unitBits b.hdr.coding
    (List.range b.hdr.blocks.length).map (fun j => (b.hdr.blocks[j]?, (b.vals.drop (j * n)).take n))
  else [(none, b.vals)]

/-- A body's exchange still waits for blocks after its last unit (R137, R202): a BLOCK_REQ round, or verdict BLOCK. -/
def State.blocksFail (s : State) (b : Body) : State :=
  let o := fun (s : State) => (s.verdict b 13).unaccepted b
  match s.exchOfRx b.rx with
  | some e =>
    if e.step = 2 ∨ e.step = 4 then
      if e.blockRounds < s.get F.PLN_RETRY_BLOCK_ROUNDS then
        { s with exchs := s.exchs.map (fun (x : Exch) => if x.session = e.session then { x with step := 6 } else x) }
      else s.exchEnd e.session 7
    else s
  | none => o (s.blocksDrop b.rx)

/-- A unit of a body in block mode is over; when it was the last one, the blocks kept are judged (R137). -/
def State.blocksEnd (s : State) (b : Body) : State :=
  let mine := fun (x : Body) => x.rx == b.rx && x.blockNo.isSome
  if s.bodies.any mine || s.viterbi.any (fun v => (v.2.map mine).getD false) then s
  else match s.blocksOf b.rx with
    | none => s
    | some k =>
      let good := (List.range 8).filterMap (fun j => (k.blocks.find? (fun x => x.1 == j)).map (·.2))
      if good.length = 8 then
        let mpdu := good.flatten.take k.hdr.length
        ((s.blocksDrop b.rx).snoop 2 b.rx mpdu).judge b mpdu
      else s.blocksFail b

/-- A body of re-sent blocks for which no exchange is left (R144): it is discarded, whether it holds some of the blocks or all eight. -/
def State.blocksLate (s : State) (b : Body) : Bool :=
  b.hdr.block && decide (b.rx < 576) && (s.exchOfRx b.rx).isNone && (decide (b.hdr.blocks.length < 8) || (s.rx b.rx).asked)

/-- DEINTERLEAVE_DONE (R137, R139, R140, R144): the frame unit completes receiver `r`'s oldest body.  A frame with too many erasures is
not decoded; in block mode each block is judged alone, and blocks already good are ignored.  DESIGN CHOICE, log entry 112: an
erased block raises no EV105, which goes with verdict ERASED. -/
def execDeinterleaveDone (r : Fin 608) (s : State) : Out := s.answer <|
  match s.delivered.find? (fun b => b.rx == r.val) with
  | none => .next s
  | some b0 =>
    let s := { s with delivered := s.delivered.erase b0 }
    if s.blocksLate b0 then .next s
    else
    let counts := b0.units.map (fun u => unitCount b0.hdr u.2)
    let e := counts.foldl (fun (a : Nat) c => a + c.1) 0
    let n := counts.foldl (fun (a : Nat) c => a + c.2) 0
    let b := { b0 with prio := s.bodyPrio b0.rx, tick := s.tick, erasedPct := if n = 0 then 0 else 100 * e / n }
    let put := fun (s : State) (u : Option Nat × List (Int × Nat)) =>
      { s with bodies := s.bodies ++ [{ b with blockNo := u.1, vals := unitVals b.hdr u.2 }] }
    if !b.hdr.block then
      if unitErased b.hdr b.vals then .next ((s.put F.STR_FRM_LAST2_BLOCKS_GOOD (rxO b.rx) 0).frameBad b 5)
      else .next (((put s (none, b.vals)).vitShow).put F.STR_FRM_LAST2_BLOCKS_GOOD (rxO b.rx) 0)
    else
      let clash := match s.blocksOf b.rx with
        | some k => k.hdr.length != b.hdr.length || k.hdr.coding != b.hdr.coding || k.hdr.version != b.hdr.version
        | none => false
      if clash then .next (s.frameBad b 4)
      else
        let s := match s.blocksOf b.rx with
          | some _ => s
          | none => { s with blockStore := s.blockStore ++ [(⟨b.rx, b.hdr, []⟩ : BlockStore)] }
        let good := ((s.blocksOf b.rx).map (fun k => k.blocks.map (·.1))).getD []
        let need := b.units.filter (fun u => !good.contains (u.1.getD 8) && !unitErased b.hdr u.2)
        let s := (((need.foldl put s).vitShow).showHdr b.rx b.hdr).blocksShow b.rx
        .next (s.blocksEnd b)

/-- The body a Viterbi unit takes next (R23, R139): of priority sessions first, then by completion, then by receiver and block. -/
def nextBody : List Body → Option Body
  | [] => none
  | b :: t => match nextBody t with
    | none => some b
    | some x =>
      let before := (x.prio && !b.prio) || (x.prio == b.prio && (decide (x.tick < b.tick)
        || (x.tick == b.tick && decide (x.rx < b.rx))))
      if before then some x else some b

/-- VITERBI_DECODE_START (R23): unit `u` is free and takes the next queued frame or block. -/
def execViterbiDecodeStart (u : Fin 2) (s : State) : Out := s.answer <|
  if (tget (fun _ => none) s.viterbi u.val).isSome || s.vitMarked u.val then .next s
  else match nextBody s.bodies with
    | none => .next s
    | some b =>
      .next { s with bodies := s.bodies.erase b, viterbi := tset (fun _ => none) s.viterbi u.val (some b) }.vitShow

/-- A block is good: its CRC-16 holds (R136). -/
def blockGood (b : Body) (bits : List Bool) : Bool :=
  let n := 8 * blockLen b.hdr.length
  decide ((bits.drop n).take 16 = crc16Sent (crc16 (bits.take n)))

/-- VITERBI_DECODE_DONE (R137, R141): unit `u` has decoded its frame, which is judged, or its block, which is kept when good. -/
def execViterbiDecodeDone (u : Fin 2) (s : State) : Out := s.answer <|
  match tget (fun _ => none) s.viterbi u.val with
  | none => .next s
  | some b =>
    let s := { s with viterbi := tset (fun _ => none) s.viterbi u.val none }.vitShow
    let bits := viterbi b.vals
    match b.blockNo with
    | none =>
      let mpdu := bytesOfBits bits b.hdr.length
      .next ((s.snoop 2 b.rx mpdu).judge b mpdu)
    | some j =>
      let s := if blockGood b bits then
          let data := bytesOfBits bits (blockLen b.hdr.length)
          ({ s with blockStore := s.blockStore.map (fun (k : BlockStore) =>
            if (s.blockPeers b.rx).contains k.rx ∧ !k.blocks.any (fun x => x.1 == j) then
              { k with blocks := k.blocks ++ [(j, data)] } else k) }).blocksShow b.rx
        else s
      .next (s.blocksEnd b)

/-! ### The MIC -/

/-- The frame the cipher engine works on (R27): of priority sessions first, then in arrival order. -/
def State.macNext (s : State) : Option MacWait :=
  match s.macWait.find? (fun w => (s.slot (macOf w.mpdu).src).prio) with
  | some w => some w
  | none => s.macWait.head?

/-- The tag of the key a frame is deciphered under (R319, R323, R341). -/
def State.rxTag (s : State) (m : Mac) (epoch prov : Nat) : KeyTag :=
  ⟨s.euiOf m.src, prov, epoch, m.purpose, if m.dir then 1 else 0⟩

/-- CCM_VERIFY_DONE (R141, R322, R323, R333): the MIC verdict of the first frame in rank.  `mismatch` says that the two AES
computations differed, so that the frame is computed again or the engine fenced. -/
def execCcmVerifyDone (mismatch : Bool) (s : State) : Out := s.answer <|
  if !s.workUp 1 then .next s
  else match s.macNext with
  | none => .next s
  | some w =>
    if mismatch then
      let r := s.cipherFault w.tries
      if r.2 then .next r.1
      else .next { r.1 with macWait := r.1.macWait.map (fun x => if x = w then { x with tries := x.tries + 1 } else x) }
    else
      let s := { s with macWait := s.macWait.erase w, cip := { s.cip with flight := 0 } }
      let m := macOf w.mpdu
      let b := w.body
      match s.rxEpoch m.src m with
      | none => .next ((s.incSat F.CIP_CNT_B_EPOCH_MISS).micBad b)
      | some (epoch, prov) =>
        let t := s.rxTag m epoch prov
        let key := s.keyOf t
        let s := (s.keyUse t).agentTouch m.src
        let rt := if m.routed then (match rtOf (payloadOf w.mpdu) with | some r => r.len | none => 0) else 0
        let data := (payloadOf w.mpdu).drop rt
        let tag := (w.mpdu.drop (w.mpdu.length - 12)).take 8
        let nonce := frameNonce m.src m.counter epoch (if m.dir then 1 else 0)
        let r := ccmDec key nonce (w.mpdu.take 10) data tag
        if !r.2 then
          .next (((s.incSat F.CIP_CNT_A_MIC_FAIL).raise Ev.AUTH_FAIL m.src).micBad b)
        else
          let s := s.verdict b (if w.fcsOk then 1 else 2)
          .next (s.accepted ⟨b, w.mpdu, r.1, m.src, 0, 0, !w.fcsOk, epoch, prov⟩)

end Sys2Proof.Machine
end

