-- ==== Sys2Proof/Machine/Links.lean ====
section
/-! DEFINITION. The link layer's commands (R365 to R369).  Link 0 is Splice, 1 is the Braid port east, 2 the one west. -/
namespace Sys2Proof.Machine
open Sys2Proof

/-- LANE_UP (R365): a lane has seen 64 valid sync headers. -/
def execLaneUp (l : Fin 3) (lane : Fin 2) (s : State) : Out := s.answer <|
  let s := s.onLink l.val (fun x => { x with lanes := x.lanes ||| 2 ^ lane.val })
  .next ((s.linkRefresh l.val).tapsRefresh)

/-- LANE_DOWN (R365): a lane has seen 16 invalid sync headers within 64 blocks; the link runs on the lane that remains. -/
def execLaneDown (l : Fin 3) (lane : Fin 2) (s : State) : Out := s.answer <|
  let s := s.onLink l.val (fun x => { x with lanes := x.lanes &&& (3 - 2 ^ lane.val) })
  .next ((s.linkRefresh l.val).tapsRefresh)

/-- The frame sequence that link `l` sends next under its key index (R326). -/
def State.linkSeq (s : State) (l : Nat) : Nat := if l = 0 then s.splSeq else (s.link l).txSeq

/-- HELLO_SEND (R368, step 1): every 1 ms of a bring-up whose check has not failed.  A CONFIRM whose key index has reached the Vault goes
out with it.  An UP link whose sequence would reach 2^48 is retrained with a new index (R326). -/
def execHelloSend (l : Fin 3) (s : State) : Out := s.answer <|
  let x := s.link l.val
  let st := s.linkSt l.val
  if (st ≠ 1 ∧ st ≠ 3) ∨ x.refused ∨ !s.linkEnabled l.val ∨ !(decide (x.lastTx < x.firstAt) || decide (x.lastTx + msTicks 1 ≤ s.tick)) then
    .next (if st = 2 ∧ 2 ^ 48 ≤ s.linkSeq l.val + 2 ^ 16 then s.linkLeave l.val
      else if l.val = 0 then s else s.insertGo (l.val - 1))
  else
    let s := (s.linkFrame l.val 1 (s.insertFlag l.val) (s.helloBytes l.val)).onLink l.val (fun y => { y with lastTx := s.tick })
    .next (s.linkGo l.val)

/-- A HELLO with the insertion flag reaches an UP ring port: the new key index of the port is kept beside the one in use (R394, step 3),
and the module answers with its own HELLO. -/
def State.insertHello (s : State) (l : Nat) (h : HelloS) : State :=
  let p := l - 1
  if (s.insertionAt p).isSome ∨ (s.helloCause l h).isSome then s
  else
    let k := (max (s.vaultSoonNum (linkKeyAt l) 4) h.keyIdx + 1) % 2 ^ 32
    let s := s.onBrd (fun b => { b with ins := b.ins ++ [(p, k, false)] })
    let s := (s.linkFrame l 1 2 (s.helloBytes l)).vaultWrite (linkKeyAt l) (le k 4)
    (s.onLink l (fun x => { x with hello := some h })).lanesShow l

/-- The payload of a ring neighbour's HELLO (R368). -/
def helloPayload (h : HelloS) : List Byte := le h.serial 8 ++ le h.role 1 ++ le h.vers 1 ++ le h.keyIdx 4 ++ le h.fp 8

/-- LINK_HELLO (R368, steps 2 and 3).  An UP link takes no notice of a HELLO but one of an insertion; in a bring-up the first HELLO that
passes fixes the key index. -/
def execLinkHello (l : Fin 3) (insertion : Bool) (h : HelloS) (s : State) : Out := s.answer <|
  let n := l.val
  let st := s.linkSt n
  if !s.linkEnabled n then .next s
  else
  let s := if n = 0 ∨ st = 0 then s else s.snoop 9 (n - 1) (helloPayload h)
  if st = 2 then .next (if n ≠ 0 ∧ insertion ∧ s.get F.BRD_BIGHT_STAT_STATE = 2 then s.insertHello n h else s)
  else if st = 0 then .next s
  else if (s.link n).hello.isSome ∧ !(s.link n).refused then .next s
  else match s.helloCause n h with
    | some k => .next ((s.causeShow n k).onLink n (fun x => { x with refused := true, hello := none }))
    | none =>
      let k := (max (s.vaultSoonNum (linkKeyAt n) 4) h.keyIdx + 1) % 2 ^ 32
      let s := s.onLink n (fun x => { x with hello := some h, refused := false, keyIdx := k })
      let s := if n = 0 then
          (s.put F.SPL_PARTNER_LO_SERIAL 0 h.serial).put F.SPL_PARTNER_HI_SERIAL 0 (h.serial / 2 ^ 32)
        else s
      .next (s.vaultWrite (linkKeyAt n) (le k 4))

/-- LINK_CONFIRM (R332, R334, R368, steps 4 and 5): the peer's CONFIRM, which verifies under the new key index, is accepted.  On an UP ring port it is
that of an insertion (R394). -/
def execLinkConfirm (l : Fin 3) (s : State) : Out := s.answer <|
  let n := l.val
  let st := s.linkSt n
  if !s.engineUp then .next s
  else if st = 2 ∧ n ≠ 0 then
    .next ((s.onBrd (fun b => { b with ins := b.ins.map (fun e => if e.1 = n - 1 then (e.1, e.2.1, true) else e) })).insertGo (n - 1))
  else if (st ≠ 1 ∧ st ≠ 3) ∨ (s.link n).hello.isNone ∨ (s.link n).refused then .next s
  else .next ((s.onLink n (fun x => { x with confirmed := true })).linkGo n)

/-- LINK_BRINGUP_TIMEOUT (R368): not UP within 50 ms, a link starts again at step 1; an insertion that has had its 200 ms fails (R394). -/
def execLinkBringupTimeout (l : Fin 3) (s : State) : Out := s.answer <|
  let n := l.val
  let st := s.linkSt n
  if (st ≠ 1 ∧ st ≠ 3) ∨ s.tick < (s.link n).firstAt + msTicks 50 then .next s
  else if st = 3 then
    if s.brd.cut.isSome ∨ (s.link n).rxSeq.isSome then .next s
    else if s.brd.openAt + msTicks 200 ≤ s.tick then .next s.insertFail
    else .next (s.linkRest n)
  else .next (s.linkRest n)

/-- LINK_SILENCE_TIMEOUT (R368): 4 ms on Splice or 1 ms on Braid without an accepted frame.  A ring port around a cutover counts as down
only after its grace (R394, R395). -/
def execLinkSilenceTimeout (l : Fin 3) (s : State) : Out := s.answer <|
  let n := l.val
  let x := s.link n
  let st := s.linkSt n
  let limit := if n = 0 then msTicks 4 else msTicks 1
  if s.tick < x.noDownTo then .next s
  else if st = 2 ∧ x.lastRx + limit ≤ s.tick then .next ((s.onLink n (fun x => { x with noDownTo := 0 })).linkLeave n)
  else if n ≠ 0 ∧ st ≠ 2 ∧ st ≠ 3 ∧ x.noDownTo ≠ 0 then
    .next ((s.onLink n (fun x => { x with noDownTo := 0 })).brdPortDown (n - 1))
  else .next s

/-- LINK_FRAME_REJECTED (R367): a frame is discarded.  A tag failure is counted, EV231 is raised at most once a second, and the 16th
within 1 s takes the link down and brings it up again. -/
def execLinkFrameRejected (l : Fin 3) (tagFail : Bool) (s : State) : Out := s.answer <|
  let n := l.val
  if !tagFail then .next s
  else
    let s := if n = 0 then s.incSat F.SPL_CNT_A_TAG_FAILS else s.incSat F.BRD_CNT_A_TAG_FAILS
    let due : Bool := match (s.link n).tagEvAt with | none => true | some t => decide (t + sTicks 1 ≤ s.tick)
    let s := if due then (s.raise Ev.LINK_TAG_FAIL 0).onLink n (fun x => { x with tagEvAt := some s.tick }) else s
    let s := s.onLink n (fun x => { x with tagFails := x.tagFails.filter (fun t => decide (s.tick < t + sTicks 1)) ++ [s.tick] })
    if (s.link n).tagFails.length < 16 then .next s
    else
      let s := if n = 0 then s.put F.SPL_STATUS_CAUSE 0 4 else s
      let s := s.onLink n (fun x => { x with tagFails := [] })
      .next (if s.linkSt n = 3 then s.insertFail else if s.linkSt n = 0 then s else s.linkLeave n)

end Sys2Proof.Machine
end

