-- ==== Sys2Proof/Machine/Management.lean ====
section
/-! DEFINITION. The management port (R419 to R421), the CSR write log (R423) and the event controller's own commands (R426 to R428).
A transaction comes as the host's bytes between the fall and the rise of `MG_CS_N`; what the port answers is held in `sdo`. -/
namespace Sys2Proof.Machine
open Sys2Proof

/-! ### Transactions -/

/-- A management-port error (R421). -/
def State.mgtError (s : State) (cause : Nat) : State :=
  let s := ((s.putB F.MGT_STATUS_ERROR 0 true).put F.MGT_STATUS_CAUSE 0 cause).incSat F.MGT_CNT_ERRORS
  s.raise Ev.MGT_ERROR cause

/-- A transaction begins: it is counted, and nothing has been answered. -/
def State.mgtBegin (s : State) : State := { s with sdo := [] }.incWrap F.MGT_CNT_TRANSACTIONS

/-- The words of a WRITE, each as its fourth byte arrives (R419, R421): past 0xFF_FFFC the rest is discarded; a partial word is
discarded. -/
def State.mgtWords (s : State) (a : Nat) : List Byte → Bool → State
  | b0 :: b1 :: b2 :: b3 :: rest, cut =>
    if 2 ^ 24 ≤ a then s.mgtError 5
    else (s.regWrite .mgt a (BitVec.ofNat 32 (ofLe [b0, b1, b2, b3]))).mgtWords (a + 4) rest cut
  | [], cut => if cut then s.mgtError 3 else s
  | _, _ => s.mgtError 3

/-- A WRITE transaction from its address on: `data` follows, and `cut` says that `MG_CS_N` rose within a byte. -/
def State.mgtWrite (s : State) (a : Nat) (data : List Byte) (cut : Bool) : State :=
  if a % 4 ≠ 0 then s.mgtError 2
  else if !s.bit F.MGT_STATUS_READY then s.mgtError 4
  else s.mgtWords a data cut

/-- `n` reads from address `a` on; their words are kept in order. -/
def State.mgtReads (s : State) (a : Nat) : Nat → State
  | 0 => s
  | n + 1 =>
    if 2 ^ 24 ≤ a then s
    else
      let s : State := s.regRead .mgt a
      ({ s with sdo := s.sdo ++ le (s.lastRead .mgt).toNat 4 }).mgtReads (a + 4) n

/-- A READ transaction from its address on, with `bits` clock periods after the address (R420): word k begins to go out after the dummy
bytes and k words; the word after it is read as it does. -/
def State.mgtRead (s : State) (a bits : Nat) : State :=
  if a % 4 ≠ 0 then s.mgtError 2
  else
    let dummy := 8 * s.get F.MGT_CFG_DUMMY
    let out := (bits - dummy + 31) / 32
    let clip := fun (s : State) => { s with sdo := s.sdo.take ((bits - dummy + 7) / 8) }
    if !s.bit F.MGT_STATUS_READY then { s.mgtError 4 with sdo := List.replicate ((bits - dummy + 7) / 8) 0 }
    else
      let s : State := clip (s.mgtReads a (out + 1))
      if 2 ^ 24 < a + 4 * out then s.mgtError 5 else s

/-- MGT_WRITE (R420, R421). -/
def execMgtWrite (a : BitVec 24) (data : List Byte) (cut : Bool) (s : State) : Out := s.answer <|
  .next (if s.up.run = 2 then s.mgtBegin.mgtWrite a.toNat data cut else s)

/-- MGT_READ (R420, R421): `bits` clock periods follow the address. -/
def execMgtRead (a : BitVec 24) (bits : Nat) (s : State) : Out := s.answer <|
  .next (if s.up.run = 2 then s.mgtBegin.mgtRead a.toNat bits else s)

/-- The status byte (R420). -/
def State.mgtStatusByte (s : State) : Byte :=
  BitVec.ofNat 8 ((s.bit F.MGT_STATUS_READY).toNat + 2 * (s.bit F.EVC_STATUS_IRQ).toNat + 4 * (s.bit F.MGT_STATUS_ERROR).toNat
    + 8 * (s.get F.BST_REPLACE_STAT_REASONS != 0).toNat)

/-- MGT_STATUS (R420): the status byte is repeated for `n` bytes. -/
def execMgtStatus (n : Nat) (s : State) : Out := s.answer <|
  .next (if s.up.run = 2 then { s.mgtBegin with sdo := List.replicate n s.mgtStatusByte } else s)

/-- MGT_ID (R420): answered whether or not `READY` is set; after the fourth byte the port drives 0. -/
def execMgtId (n : Nat) (s : State) : Out := s.answer <|
  .next (if s.up.run = 2 then { s.mgtBegin with sdo := ([0x4B#8, 0x4E#8, 0x14#8, 0x40#8] ++ List.replicate (n - 4) 0).take n } else s)

/-- MGT_INVALID_TRANSACTION (R421): the bytes of a transaction, and whether `MG_CS_N` rose within a byte.  An unknown command byte and an
incomplete address are ignored with their causes; what the other errors leave is as in a WRITE or a READ. -/
def execMgtInvalidTransaction (bytes : List Byte) (cut : Bool) (s : State) : Out := s.answer <|
  if s.up.run ≠ 2 then .next s
  else match bytes with
  | [] => .next s.mgtBegin
  | c :: rest =>
    if c = 0x05 ∨ c = 0x9F then .next s
    else if c ≠ 0x02 ∧ c ≠ 0x03 then .next ({ s.mgtBegin with sdo := List.replicate rest.length 0 }.mgtError 1)
    else match rest with
    | a2 :: a1 :: a0 :: data =>
      let a := ofLe [a0, a1, a2]
      if c = 0x02 then .next (s.mgtBegin.mgtWrite a data cut) else .next (s.mgtBegin.mgtRead a (8 * data.length))
    | _ => .next (s.mgtBegin.mgtError 6)

/-! ### The write log -/

/-- WRITE_LOG_ENTRY (R423): every entry opened 1 s ago or earlier is written to the trouble log. -/
def execWriteLogEntry (s : State) : Out := s.answer <|
  let due := fun (e : WriteLog) => decide (e.tick + sTicks 1 ≤ s.tick)
  let old : List WriteLog := s.wlog.filter due
  let s := old.foldl (fun (s : State) e => s.wlogClose e) { s with wlog := s.wlog.filter (fun e => !due e) }
  .next (s.put F.MGT_WLOG_STAT_OPEN 0 s.wlog.length)

/-! ### Events -/

/-- The events whose block writes its own log entry (R48, R124, R234, R356, R428). -/
def ownLogEvents : List Nat := [Ev.IMPEDANCE_STEP, Ev.TX_MASK_VIOLATION, Ev.LEASE_REVOKED, Ev.CHECK_MISMATCH]

/-- The raisings counted of event `e` are delivered. -/
def State.rateDue (s : State) (e : Nat) (r : EvRate) : State :=
  let s := { s with rates := tset (fun _ => ⟨none, 0, 0, 0⟩) s.rates e ⟨some s.tick, 0, 0, 0⟩ }
  let d := s.deliver e r.counted r.firstTick r.lastTick (ownLogEvents.contains e)
  d.1.logDues d.2

/-- EVENT_RECORD_DUE (R427, R428): `RATE_MS` has passed for sources with raisings counted. -/
def execEventRecordDue (s : State) : Out := s.answer <|
  let lim := msTicks (s.get F.EVC_RATE_RATE_MS)
  let due : List (Nat × EvRate) := s.rates.filter (fun p => p.2.counted != 0 &&
    match p.2.last with | none => true | some t => decide (t + lim ≤ s.tick))
  .next (due.foldl (fun (s : State) p => s.rateDue p.1 p.2) s)

/-- EVC_LATCH_CLEAR (R425, R426): a write of `EVC_LATCH`g clears the latches whose bits are 1. -/
def execEvcLatchClear (i : Iface) (g : Fin 8) (w : Word) (s : State) : Out := s.answer <|
  let a := F.EVC_LATCH.addr + 4 * g.val
  .next ((s.wlogNote i a w).fieldWrite a w)

end Sys2Proof.Machine
end

