-- ==== Sys2Proof/Machine/Power.lean ====
section
/-! DEFINITION. Power (R461, R463) and the profile switch (R454, R455, R512). -/
namespace Sys2Proof.Machine
open Sys2Proof

/-! ### Clock domains (R461) -/

/-- Cord `c` needs its engine: a port in TX, a receiver outside HOLD, a replay, a fade, or a round whose T0 is near or past. -/
def State.cordBusy (s : State) (c : Nat) : Bool :=
  let near := s.tick + 3840 * s.get F.PWR_SLEEP_CFG_CORD_IDLE + 3840
  (List.range 16).any (fun j => s.portSt (16 * c + j) == 3)
    || (List.range 64).any (fun j => s.rxSt (64 * c + j) != 0 || s.replayQ.contains (64 * c + j))
    || (List.range 16).any (fun j => s.bit F.FC_BANK_FADING (fcO (16 * c + j)))
    || (List.range 64).any (fun j => s.bit F.FC_BANK_FADING (fcO (144 + 64 * c + j)))
    || s.rounds.any (fun r => r.cord == c && decide (r.t0 ≤ near))

/-- A self-test runs on CE9. -/
def State.spareTested (s : State) : Bool :=
  s.tst.runs.any (fun e => match e.2 with | some r => r.target == 9 | none => false)

/-- CORD_ENGINE_STOP (R461): the engine has been idle for `CORD_IDLE`; its ports enter WATCH. -/
def execCordEngineStop (e : Fin 10) (s : State) : Out := s.answer <|
  let cords := (List.range 9).filter (fun c => s.engineOf c == e.val)
  if !s.bit F.PWR_SLEEP_CFG_SLEEP_EN ∨ !s.bitAt F.PWR_DOMAIN_STAT 0 e.val ∨ cords.any (fun c => s.cordBusy c)
      ∨ (e.val = 9 ∧ s.spareTested) then .next s
  else
    let s := s.putBit F.PWR_DOMAIN_STAT 0 e.val false
    .next (cords.foldl (fun (s : State) c =>
      s.cordSleep c) s)

/-- CORD_ENGINE_WAKE (R461): the planned wake. -/
def execCordEngineWake (cord : Fin 9) (s : State) : Out := s.answer <| .next (if s.wakeNear cord.val 0 then s.cordWake cord.val false else s)

/-- DOMAIN_IDLE_STOP (R461): the decode domain, or the cipher domain, has been idle for 100 µs. -/
def execDomainIdleStop (cipher : Bool) (s : State) : Out := s.answer <|
  .next (if cipher then (if s.cipherWork then s else s.putB F.PWR_DOMAIN_STAT_CIPHER 0 false)
    else if s.decodeWork then s else s.putB F.PWR_DOMAIN_STAT_DECODE 0 false)

/-- CXL_L1_ENTRY (R461): no request for `CXL_IDLE`. -/
def execCxlL1Entry (s : State) : Out := s.answer <|
  .next (if s.cxlUp && !s.cxlWork then s.putB F.PWR_DOMAIN_STAT_CXL_L1 0 true else s)

/-! ### The supply monitor (R463) -/

/-- The low-supply condition after a measurement, in 10 mV: 4.5 V for 1 ms is two successive measurements. -/
def State.vinTake (s : State) (vin : Nat) : State :=
  let s' := s.onUp (fun u => { u with vinUnder := decide (vin < 450), vinLow := if 460 < vin then false else u.vinLow })
  if vin < 450 ∧ s.up.vinUnder ∧ !s.up.vinLow then (s'.onUp (fun u => { u with vinLow := true })).raise Ev.VIN_LOW vin else s'

/-- The critical threshold in °C: a `CRIT_C` not above `HIGH_C` acts as `HIGH_C` + 5. -/
def State.critC (s : State) : Nat :=
  let h := s.get F.PWR_THERM_CFG_HIGH_C
  let c := s.get F.PWR_THERM_CFG_CRIT_C
  if c ≤ h then h + 5 else c

/-- The thermal stop begins. -/
def State.thermStop (s : State) (temp : Nat) : State :=
  let s := (s.raise Ev.TEMP_CRITICAL temp).lineStop State.portEnd
  let s := s.macStop
  (s.cordsStop).putB F.PWR_DOMAIN_STAT_THERM_STOP 0 true

/-- The temperature conditions after a measurement, signed in 0.25 °C. -/
def State.tempTake (s : State) (temp : BitVec 12) : State :=
  let t := temp.toInt
  let high : Int := 4 * s.get F.PWR_THERM_CFG_HIGH_C
  let s := if high ≤ t then
      (if s.up.tempHigh then s else (s.onUp (fun u => { u with tempHigh := true })).raise Ev.TEMP_HIGH temp.toNat)
    else s.onUp (fun u => { u with tempHigh := false })
  if s.bit F.PWR_DOMAIN_STAT_THERM_STOP then
    (if t < high - 20 then (s.putB F.PWR_DOMAIN_STAT_THERM_STOP 0 false).macStart else s)
  else if 4 * (s.critC : Int) ≤ t then s.thermStop temp.toNat
  else s

/-- SUPPLY_MONITOR (R463): the measurement of every millisecond. -/
def execSupplyMonitor (vin : BitVec 11) (temp : BitVec 12) (s : State) : Out := s.answer <|
  let s := (s.put F.PWR_SUPPLY_VIN 0 vin.toNat).put F.PWR_SUPPLY_TEMP 0 temp.toNat
  .next ((s.vinTake vin.toNat).tempTake temp)

/-! ### The profile switch (R454, R455) -/

/-- GLB_PROFILE_CMD (R512). -/
def execGlbProfileCmd (i : Iface) (w : Word) (s : State) : Out := s.answer <| .next (s.profileCmd i w)

/-- The job of a profile switch ends FAILED, with EV004. -/
def State.profRefuse (s : State) (k result : Nat) : State :=
  ((s.raise Ev.PROFILE_REFUSED (s.jobParam k 0 % 4)).jobBoundary k (some (6, result))).profOver

/-- The boundary after a step that does not end the job: a waiting cancel ends it. -/
def State.profStep (s : State) (k : Nat) : State :=
  let s := (s.jobCount k).jobBoundary k none
  if s.jobLive k then s else s.profOver

/-- PROFILE_SWITCH_CHECK_STEP (R454): `entry` is the length and the CRC of the target section in the image's table, none where the image
lacks the profile; `data` are the next 10,000 bytes of the section, or the rest of it.  Nothing changes before the section is whole,
matches and is a valid list. -/
def execProfileSwitchCheckStep (k : Fin 16) (entry : Option (Nat × Word)) (data : List Byte) (s : State) : Out := s.answer <|
  if !s.jobTurn k.val 7 ∨ 2 ≤ s.profPhase then .next s
  else match entry with
  | none => .next (s.profRefuse k.val 2)
  | some (len, crc) =>
    if data.length ≠ min 10000 (len - s.up.sect.length) then .next s
    else
      let l := s.up.sect ++ data
      let s := { s with profPhase := 1 }.onUp (fun u => { u with sect := l })
      if l.length < len then .next (s.profStep k.val)
      else
        let r := s.nvmCheck l crc.toNat
        if !r.2 then .next (r.1.profRefuse k.val 6)
        else if (profWrites l).isNone then .next (r.1.profRefuse k.val 2)
        else .next ({ r.1 with profPhase := 2 }.profStep k.val)

/-- The radio side of DRAIN is done: no superframe runs, or the present one has ended. -/
def State.radioDrained (s : State) : Bool :=
  match s.mac.next with
  | none => true
  | some b => decide (b ≤ s.tick) && (match s.mac.slot with | some (63, _) => s.mac.phase == 3 | some _ => false | none => true)

/-- PROFILE_SWITCH_DRAIN_END (R454, R464): no commit of the profile's blocks is pending, no round is in flight and the superframe has
ended; a thermal stop ends DRAIN at once.  The tick is kept, for WAIT. -/
def execProfileSwitchDrainEnd (k : Fin 16) (s : State) : Out := s.answer <|
  let drained := !profBlocks.any (fun b => s.commitPending b) && s.rounds.isEmpty && s.exchs.isEmpty && s.radioDrained
  if !s.jobTurn k.val 7 ∨ s.profPhase ≠ 2 ∨ !(drained || s.bit F.PWR_DOMAIN_STAT_THERM_STOP) then .next s
  else
    let s := { s.macStop with profPhase := 3 }.onJob k.val (fun j => { j with deadline := s.tick })
    .next (s.profStep k.val)

/-- The line side of WAIT is done: an L1+ crossing of set A since DRAIN ended, or set A is not LOCKED. -/
def State.lineWaited (s : State) (k : Nat) : Bool :=
  s.get F.MNS_SET_STAT_STATE != 1 || s.bit F.PWR_DOMAIN_STAT_THERM_STOP
    || (match (s.mset 0).prevZ with | some z => decide ((s.job k).deadline ≤ z) | none => false)

/-- PROFILE_SWITCH_WAIT_END (R454, R455): APPLY.  `data` is the section as read again, `prev` that of the profile in force, for a
failure; an unreadable or mismatching one is none. -/
def execProfileSwitchWaitEnd (k : Fin 16) (data : List Byte) (prev : Option (List Byte)) (s : State) : Out := s.answer <|
  if !s.jobTurn k.val 7 ∨ s.profPhase ≠ 3 ∨ !s.lineWaited k.val then .next s
  else
    let p := s.jobParam k.val 0 % 4
    let r := s.nvmCheck data (crc32c s.up.sect).toNat
    match (if r.2 then profWrites data else none) with
    | none => .next ((((r.1.profAgain prev).jobCount k.val).jobBoundary k.val (some (6, 6))).profOver)
    | some ws =>
      let t := r.1.profPut ws
      if t.2 then
        let s := t.1.put F.GLB_STATUS_PROFILE 0 p
        .next ((((s.raise Ev.PROFILE_SWITCHED p).jobCount k.val).jobBoundary k.val (some (5, 1))).profOver)
      else .next ((((t.1.profAgain prev).jobCount k.val).jobBoundary k.val (some (6, 2))).profOver)

end Sys2Proof.Machine
end

