-- ==== Sys2Proof/Machine/Registers.lean ====
section
/-! DEFINITION. The register space and its commits (R498 to R507), the time capture (R513), GPIO (R514) and the TAP (R527). -/
namespace Sys2Proof.Machine
open Sys2Proof

/-- GLB_COMMIT (R505): a write of `GLB_COMMIT` without `REVERT`. -/
def execGlbCommit (i : Iface) (w : Word) (s : State) : Out := s.answer <| .next (s.glbCommit i w)

/-- GLB_REVERT (R507): a write of `GLB_COMMIT` with `REVERT` = 1. -/
def execGlbRevert (i : Iface) (w : Word) (s : State) : Out := s.answer <| .next (s.glbCommit i w)

/-- GLB_TIME_CAPTURE (R513). -/
def execGlbTimeCapture (i : Iface) (w : Word) (s : State) : Out := s.answer <| .next (s.timeCapture i w)

/-- WIDE_VALUE_READ (R500): interface `i` reads the word at `a`; a lowest word latches the others. -/
def execWideValueRead (i : Iface) (a : BitVec 24) (s : State) : Out := s.answer <| .next (s.regRead i a.toNat)

/-- REGISTER_WRITE (R499): interface `i` writes the word at `a`. -/
def execRegisterWrite (i : Iface) (a : BitVec 24) (w : Word) (s : State) : Out := s.answer <| .next (s.regWrite i a.toNat w)

/-- Capture `k` takes the stamp of an edge at its ball (R514). -/
def State.gpioStamp (s : State) (k ball : Nat) (rise : Bool) : State :=
  let cfg := s.live F.GLB_GPIO_CAP_CFG.addr
  let edge := bitsOf cfg (8 * k + 5) (8 * k + 4)
  if bitsOf cfg (8 * k + 3) (8 * k) = ball ∧ (edge = 3 ∨ edge = (if rise then 1 else 2)) then
    let s := if s.bitAt F.GLB_GPIO_CAP_STAT 0 k then s.putBit F.GLB_GPIO_CAP_STAT 0 (4 + k) true else s
    let s := s.putBit F.GLB_GPIO_CAP_STAT 0 k true
    (s.put F.GLB_GPIO_CAP_LO (8 * k) s.tick).put F.GLB_GPIO_CAP_HI (8 * k) (s.tick / 2 ^ 32)
  else s

/-- GPIO_CAPTURE (R514): ball `ball` changes to `level`; every capture that selects the edge takes its stamp.  `GPIO15` is also
`OWN_IN` (R371). -/
def execGpioCapture (ball : Fin 16) (level : Bool) (s : State) : Out := s.answer <|
  let old := tget (fun _ => 0) s.up.gpio ball.val == 1
  let s := s.onUp (fun u => { u with gpio := tset (fun _ => 0) u.gpio ball.val (if level then 1 else 0) })
  let s := s.putBit F.GLB_GPIO_IN 0 ball.val level
  let s := if ball.val = 15 then s.putB F.SPL_STATUS_OWN_IN 0 level else s
  if level = old then .next s
  else .next ((List.range 4).foldl (fun (s : State) k => s.gpioStamp k ball.val level) s)

/-- The TAP instruction that a code of its 4-bit register selects (R527): 1 EXTEST, 2 SAMPLE/PRELOAD, 3 BYPASS. -/
def tapCode (ir : Nat) : Nat := if ir = 0 then 1 else if ir = 2 then 2 else 3

/-- TAP_INSTRUCTION_UPDATE (R527): EXTEST holds every DAC off, so transmissions end, and closes the Bight. -/
def execTapInstructionUpdate (ir : Fin 16) (s : State) : Out := s.answer <|
  let s := s.onUp (fun u => { u with tap := tapCode ir.val })
  if s.up.tap ≠ 1 then .next s
  else
    let s := (List.range 144).foldl (fun (s : State) p => if s.portSt p = 3 then (s.endAll (s.pollsOn p) 5).portDrop p else s) s
    let hold := s.bit F.BRD_BIGHT_STAT_HOLD
    .next (if s.get F.BRD_BIGHT_STAT_STATE = 0 then s else if s.get F.BRD_BIGHT_STAT_STATE = 1 then s.insertFail
      else s.ringLeft.putB F.BRD_BIGHT_STAT_HOLD 0 hold)

end Sys2Proof.Machine
end

