-- ==== Sys2Proof/Machine/StartUp.lean ====
section
/-! DEFINITION. Resets (R443 to R446, R508, R511), the start-up sequence (R447, R448), the loading of the image (R450 to R453), and the
end of the head-end wait (R252). -/
namespace Sys2Proof.Machine
open Sys2Proof

/-! ### What a reset keeps -/

/-- The Vault after the write in progress has completed (R444); none that waits is begun. -/
def State.vaultSettled (s : State) : Table Byte := match s.vaultq with
  | w :: _ => vaultStore s.vault w.addr w.bytes
  | [] => s.vault

/-- The groups of the Bight that are open. -/
def State.bightOpen (s : State) : Nat := match s.get F.BRD_BIGHT_STAT_STATE with
  | 0 => 0
  | 1 => if s.brd.lane0 then 2 else 1
  | _ => 2

/-- The reset state with everything that outlives a loss of power: the Vault and its wear, the anchor fuses, and what the CXL device
holds. -/
def State.cold (s : State) : State :=
  { State.reset with
    pending := s.pending, free := s.free, vault := s.vaultSettled, wear := s.wear, anchor := s.anchor, anchorTried := s.anchorTried, anchorDip := s.anchorDip,
    home := s.home, jrn := s.jrn, jrnSeq := s.jrnSeq, jrnPos := s.jrnPos, hdrTail := s.hdrTail, store := s.store,
    spool := (s.spool.filter (fun r => r.rc.page != 0)).map (fun r => { r with sent := none }), pages := s.pages, pageNext := s.pageNext,
    mac := { MacS.init with foreign := s.foreignKept 0 } }

/-- The registers that a PIN or SOFT reset keeps (R508). -/
def keptRegs : List Nat :=
  [F.LOG_STAT.addr, F.LOG_PROT_STAT.addr, F.LOG_LOST.addr] ++ (List.range 8).map (fun n => F.GLB_SCRATCH.addr + 4 * n)

/-- A PIN or SOFT reset (R443, R508): the time base and the trouble log are kept, `CX_PERST_N` stays as it is, and the open groups of the
Bight close, each closing counted in the Vault (R395, DESIGN CHOICE, log entry 39). -/
def State.warm (s : State) (cause : Nat) : State :=
  let n := s.vaultNum 0x100110 8 + s.bightOpen
  let c := s.cold
  let c : State := { c with
    tick := s.tick, log := s.log, protArmed := s.protArmed, nearArmed := s.nearArmed, vaultFaults := s.vaultFaults
    vault := if s.bightOpen = 0 then c.vault else vaultStore c.vault 0x100110 (le n 8) }
  let c : State := keptRegs.foldl (fun (c : State) a => c.setLive a (s.live a)) c
  let c := c.onMac (fun m => { m with foreign := s.foreignKept s.tick })
  let c := c.onUp (fun u => { u with goodAt := s.up.goodAt, perst := s.up.perst, frac := s.up.frac })
  (c.put F.PWR_RESET_CAUSE_CAUSE 0 cause).put F.PWR_RESET_CAUSE_WARM_RESETS 0 (min 65535 (s.get F.PWR_RESET_CAUSE_WARM_RESETS + 1))

/-- POWER_RESET (R443, R446): VIN rises again; the time base starts at 0, the log is empty, `CX_PERST_N` is low. -/
def execPowerReset (s : State) : Out := s.answer <| .next (if s.up.run = 0 then s.cold else s)

/-- VIN_UVLO_FALL (R316, R444, R445, R395): the Vault write in progress completes, an anchor being blown is lost, and the module is
without power. -/
def execVinUvloFall (s : State) : Out := s.answer <|
  .next (if s.up.run = 0 then s
    else { (s.cold.onUp (fun u => { u with run := 0 })) with anchorDip := s.anchorDip || s.cip.blowing.isSome })

/-- PIN_RESET (R443): open write-log entries and belay jobs are lost (R423, R464). -/
def execPinReset (s : State) : Out := s.answer <| .next (if s.up.run = 0 then s else s.warm 2)

/-- SOFT_RESET (R443, R511): 1 µs after the write; the open entries are already in the log. -/
def execSoftReset (s : State) : Out := s.answer <|
  match s.up.softAt with
  | none => .next s
  | some t => .next (if t ≤ s.tick then s.warm 3 else s)

/-! ### Step 1 (R447, R508) -/

/-- The registers that show the stored content of the Vault (R508): Splice, Braid and the store generation. -/
def State.vaultLinks (s : State) : State :=
  let serial := s.vaultNum 0x100100 8
  let s := (s.put F.SPL_PARTNER_LO_SERIAL 0 serial).put F.SPL_PARTNER_HI_SERIAL 0 (serial / 2 ^ 32)
  let s := (s.put F.SPL_OWN_TERM_TERM 0 (s.vaultNum 0x100108 4)).putB F.SPL_STATUS_PAIRED 0 ((s.vaultNum 0x10010C 1).testBit 1)
  let s := (s.bightShow (s.vaultNum 0x100110 8)).put F.CXL_GENERATION_GEN 0 (s.vaultNum 0x100000 4)
  s.put F.BRD_STATUS_NODE_ID 0 s.aloneId

/-- Marks, the substitution, the replace reasons and the fence of a marked cipher engine (R482 to R488, R508). -/
def State.vaultMarks (s : State) : State :=
  let marks := s.vaultNum 0x100810 4
  let sub := s.vaultNum 0x100814 1
  let s := s.put F.BST_MARKED_TARGETS 0 (marks % 2 ^ 30)
  let s := (List.range 30).foldl (fun (s : State) t => if marks.testBit t then s.putB F.BST_RESULT_MARKED (wO t) true else s) s
  let s := if sub.testBit 7 then
      (((s.putB F.BST_SUBST_VALID 0 true).putB F.BST_SUBST_PERMANENT 0 true).put F.BST_SUBST_CORD 0 (sub % 16))
    else s
  let s := (s.put F.BST_REPLACE_STAT_REASONS 0 (s.vaultNum 0x100800 4 % 512)).put F.BST_REPLACE_ACKED_ACKED 0 (s.vaultNum 0x100804 4 % 512)
  let s := { s with firstTick := s.vaultNum 0x100808 8, repeatAt := s.tick }
  let s := (List.range 4).foldl (fun (s : State) c => if marks.testBit (26 + c) then s.roleMove c else s) s
  if marks.testBit 12 then s.putB F.CIP_STATUS_FENCED 0 true else s

/-- The cipher engine's anchor and the wear of the Vault as kept (R316, R336), with the result SUPPLY of a programming that a supply dip
ended (DESIGN CHOICE, log entry 136: shown at the start-up that follows); each spool class goes on from its ceiling (R533). -/
def State.vaultKeep (s : State) : State :=
  let most := s.wear.foldl (fun (m : Nat) e => max m e.2) 0
  let s := s.anchorShow.put F.CIP_VAULT_STAT_WEAR 0 (min 1023 (most * 1000 / 100000000000))
  let s := if s.anchorDip then ({ s with anchorDip := false }.put F.CIP_ANCHOR_STAT_RESULT 0 5).raise Ev.ANCHOR_REFUSED 0 else s
  let s := s.put F.CIP_VAULT_STAT_WRITE_FAULTS 0 (min 255 s.vaultFaults.length)
  { s with spoolNext := (List.range 5).map (fun k => s.vaultNum (0x110000 + 8 * k) 8) }

/-- START_UP (R447, R453): at T_R the PROF pins are sampled and the cores leave reset; the next step is the PLL's. -/
def execStartUp (pins : Fin 4) (s : State) : Out := s.answer <|
  if s.up.run ≠ 1 then .next s
  else
    let s := s.onUp (fun u => { u with run := 2, tR := s.tick })
    let s := s.put F.PWR_PROF_STAT_PINS 0 pins.val
    .next (((s.vaultLinks).vaultMarks).vaultKeep.startStep 1)

/-- PERST_RELEASE (R446): `PERST_MIN` ms after `PWR_GOOD` rose, with the CXL clock present for 1 ms. -/
def execPerstRelease (s : State) : Out := s.answer <|
  .next (if s.up.run ≠ 0 ∧ !s.up.perst ∧ s.up.goodAt + msTicks (s.get F.PWR_CXL_CFG_PERST_MIN) ≤ s.tick
    then (s.onUp (fun u => { u with perst := true })).cxlTrain else s)

/-- PLL_LOCKED (R447): the end of step 2; the image read begins. -/
def execPllLocked (s : State) : Out := s.answer <|
  if s.up.run ≠ 2 ∨ s.startCode ≠ 1 then .next s
  else
    let s := (s.putB F.CLK_STATUS_PLL_LOCK 0 true).putB F.CLK_STATUS_REFCLK_OK 0 true
    let s := (s.putB F.PWR_DOMAIN_STAT_FALLBACK 0 false).onUp (fun u => { u with clockLost := false })
    .next (s.startStep 2)

/-! ### Steps 3 and 4 (R447, R450 to R453) -/

/-- The registers that no failed image resets: the reset kind, start-up, the supply, the profile pins, the clocks, and what shows the
Vault, the fuses and the log. -/
def imageKept : List Nat :=
  keptRegs ++ [F.PWR_RESET_CAUSE.addr, F.PWR_START_STAT.addr, F.PWR_SUPPLY.addr, F.PWR_DOMAIN_STAT.addr, F.PWR_PROF_STAT.addr,
    F.CLK_STATUS.addr, F.SPL_PARTNER_LO_SERIAL.addr, F.SPL_PARTNER_HI_SERIAL.addr, F.SPL_OWN_TERM_TERM.addr, F.SPL_STATUS_PAIRED.addr,
    F.BRD_BIGHT_OPS_LO_OPS.addr, F.BRD_BIGHT_OPS_HI_OPS.addr, F.BRD_BIGHT_STAT_WEAR.addr, F.CXL_GENERATION_GEN.addr,
    F.BRD_STATUS_NODE_ID.addr, F.BST_MARKED_TARGETS.addr, F.BST_SUBST_VALID.addr, F.BST_REPLACE_STAT_REASONS.addr,
    F.BST_REPLACE_ACKED_ACKED.addr, F.CIP_STATUS_FENCED.addr, F.CIP_VAULT_STAT_WEAR.addr,
    F.CIP_ANCHOR_STAT.addr, F.CIP_FINGERPRINT_LO_FP.addr, F.CIP_FINGERPRINT_HI_FP.addr] ++ (List.range 30).map (fun t => F.BST_RESULT_MARKED.addr + wO t)

/-- After a failed image every block returns to its reset values (R452). -/
def State.imageUndo (s : State) : State :=
  { s with
    regs := s.regs.filter (fun e => imageKept.contains e.1), shadow := [], commits := [], coefs := [], chains := []
    mac := MacS.init, tst := { s.tst with golden := [] } }

/-- The module is up to the end of step 4 (R371, R447, R452): `READY`, Halyard, Splice and Braid start as the image sets them, and a module
without Splice owns the boards. -/
def State.imageGo (s : State) : State :=
  let s := (s.putB F.GLB_STATUS_READY 0 true).putB F.MGT_STATUS_READY 0 true
  let s := { s with tst := { s.tst with periodAt := s.tick } }.put F.BRD_STATUS_NODE_ID 0 s.aloneId
  let s := if s.bit F.SPL_CTRL_EN then
      (s.put F.SPL_STATUS_ROLE 0 1).onSpl (fun x => { x with start := some s.tick, was := 1, claimAt := none, retryAt := none })
    else (s.put F.SPL_STATUS_ROLE 0 0).ownGain
  let s := if s.bit F.BRD_CTRL_EN then s.joinRing else s
  let s := (List.range 3).foldl (fun (s : State) l => s.linkRefresh l) s
  s.startStep 3

/-- IMAGE_LOAD_DONE (R447, R450 to R453): the bytes of the image read, none where the NVM does not answer.  The first failure is followed
by the alternate image, the second by NO_IMAGE. -/
def execImageLoadDone (image : Option (List Byte)) (s : State) : Out := s.answer <|
  if s.up.run ≠ 2 ∨ s.startCode ≠ 2 then .next s
  else
    let r : State × Nat := match image with
      | none => (s, 7)
      | some img => s.loadImageFile img
    if r.2 = 0 then .next ((r.1.put F.PWR_START_STAT_IMAGE 0 (if s.up.alt then 2 else 1)).imageGo)
    else
      let t := r.1.imageUndo.put F.PWR_START_STAT_FAIL_CAUSE 0 r.2
      if s.up.alt then .next (((t.put F.PWR_START_STAT_IMAGE 0 3).raise Ev.IMAGE_FAIL r.2).startStep 7)
      else .next ((t.onUp (fun u => { u with alt := true })).startStep 2)

/-! ### Steps 7 and 8 (R447, R252) -/

/-- The session restore of step 7 where no store is in use: with a generation in the Vault every slot that nothing restored is PARKED. -/
def State.restorePark (s : State) : State :=
  if s.storeOpen || s.vaultGen == 0 then s
  else
    { s with slots := (List.range 65533).map (fun k =>
        let x := s.slot (k + 1)
        (k + 1, if x.st = 0 then { x with st := 3 } else x)) }

/-- What waits for the partner no longer, waits for the head-end (R251, R252). -/
def State.restoreRest (s : State) : State :=
  if s.cacheOnly then s.restorePark
  else
    let ks := s.parkedRest
    if ks.isEmpty then s else (s.put F.SES_STATUS_RESTORE_SRC 0 3).headendRestore ks

/-- A port as start-up leaves it (R29, R34): an enabled one is in WATCH, or AWAKE where its engine's clock has started, and moves to
its manual gain code. -/
def State.portStart (s : State) (p : Nat) : State :=
  let s := s.onPort p (fun x => { x with lastOver := s.tick, lastDown := s.tick })
  if !s.bit F.LP_CFG_ENABLE (lpO p) then s.put F.LP_STATUS_STATE (lpO p) 0
  else
    let s := s.put F.LP_STATUS_STATE (lpO p) 1
    let s := if s.cordRuns (p / 16) then s.portWake p else s
    (s.portFault p).pgaManual p

/-- START_DONE (R72, R251, R252, R266, R447): step 8; a partner that can be asked for the sessions still PARKED is asked first. -/
def execStartDone (s : State) : Out := s.answer <|
  if s.up.run ≠ 2 ∨ s.startCode ≠ 5 ∨ !s.spl.want.isEmpty then .next s
  else if !s.cacheOnly ∧ s.partnerThere ∧ !s.parkedRest.isEmpty then .next s.parkedRestore
  else
    let s := (s.restoreRest).putB F.GLB_STATUS_STARTED 0 true
    let s := (List.range 144).foldl (fun (s : State) p =>
      s.portStart p) s
    let s := s.allRestart
    let s := (s.put F.PWR_START_STAT_START_MS 0 (min 65535 ((s.tick - s.up.tR) / 38400))).startStep 6
    .next (((s.raise Ev.START_DONE 0).macStart).serve)

/-- HEADEND_WAIT_EXPIRY (R252): class 4 resumes; the restore itself goes on. -/
def execHeadendWaitExpiry (s : State) : Out := s.answer <|
  match s.waitEnd with
  | none => .next s
  | some t => .next (if s.classHeld && decide (t ≤ s.tick) then { s with classHeld := false }.serve else s)

end Sys2Proof.Machine
end

