-- ==== Sys2Proof/Machine/Dispatch.lean ====
section
/-! DEFINITION. One arm for each command: a direct call of its meaning, or its rejection by name. -/
namespace Sys2Proof.Machine
open Sys2Proof

/-- The effect of a command on everything but the queue. -/
def exec (i : Instr) (s : State) : Host.Outcome State Fault Refusal :=
  match i with
  | .powerReset => Sys2Proof.Machine.execPowerReset s
  | .vinUvloFall => Sys2Proof.Machine.execVinUvloFall s
  | .pinReset => Sys2Proof.Machine.execPinReset s
  | .softReset => Sys2Proof.Machine.execSoftReset s
  | .startUp a0 => Sys2Proof.Machine.execStartUp a0 s
  | .perstRelease => Sys2Proof.Machine.execPerstRelease s
  | .pllLocked => Sys2Proof.Machine.execPllLocked s
  | .imageLoadDone a0 => Sys2Proof.Machine.execImageLoadDone a0 s
  | .quickSelfTest a0 => Sys2Proof.Machine.execQuickSelfTest a0 s
  | .startDone => Sys2Proof.Machine.execStartDone s
  | .headendWaitExpiry => Sys2Proof.Machine.execHeadendWaitExpiry s
  | .refclkLost => Sys2Proof.Machine.execRefclkLost s
  | .pllUnlock => Sys2Proof.Machine.execPllUnlock s
  | .pllRelock a0 => Sys2Proof.Machine.execPllRelock a0 s
  | .xt32Check a0 => Sys2Proof.Machine.execXt32Check a0 s
  | .ppsEdge => Sys2Proof.Machine.execPpsEdge s
  | .ppsLost => Sys2Proof.Machine.execPpsLost s
  | .ppsOutPulse => Sys2Proof.Machine.execPpsOutPulse s
  | .clkCommit a0 a1 => Sys2Proof.Machine.execClkCommit a0 a1 s
  | .cordEngineStop a0 => Sys2Proof.Machine.execCordEngineStop a0 s
  | .cordEngineWake a0 => Sys2Proof.Machine.execCordEngineWake a0 s
  | .domainIdleStop a0 => Sys2Proof.Machine.execDomainIdleStop a0 s
  | .cxlL1Entry => Sys2Proof.Machine.execCxlL1Entry s
  | .supplyMonitor a0 a1 => Sys2Proof.Machine.execSupplyMonitor a0 a1 s
  | .glbProfileCmd a0 a1 => Sys2Proof.Machine.execGlbProfileCmd a0 a1 s
  | .profileSwitchCheckStep a0 a1 a2 => Sys2Proof.Machine.execProfileSwitchCheckStep a0 a1 a2 s
  | .profileSwitchDrainEnd a0 => Sys2Proof.Machine.execProfileSwitchDrainEnd a0 s
  | .profileSwitchWaitEnd a0 a1 a2 => Sys2Proof.Machine.execProfileSwitchWaitEnd a0 a1 a2 s
  | .coreLost a0 => Sys2Proof.Machine.execCoreLost a0 s
  | .linkGcmWaitExpiry a0 => Sys2Proof.Machine.execLinkGcmWaitExpiry a0 s
  | .lpCommit a0 a1 => Sys2Proof.Machine.execLpCommit a0 a1 s
  | .lpCommitApply a0 => Sys2Proof.Machine.execLpCommitApply a0 s
  | .lpPgaWrite a0 a1 a2 => Sys2Proof.Machine.execLpPgaWrite a0 a1 a2 s
  | .overrangeWindow a0 a1 => Sys2Proof.Machine.execOverrangeWindow a0 a1 s
  | .pgaUpStepRequest a0 a1 => Sys2Proof.Machine.execPgaUpStepRequest a0 a1 s
  | .pgaStepEffect a0 => Sys2Proof.Machine.execPgaStepEffect a0 s
  | .pgaHeldGrant a0 => Sys2Proof.Machine.execPgaHeldGrant a0 s
  | .pgaRequestWithdraw a0 a1 => Sys2Proof.Machine.execPgaRequestWithdraw a0 a1 s
  | .watchWindow a0 a1 => Sys2Proof.Machine.execWatchWindow a0 a1 s
  | .monBlock a0 a1 => Sys2Proof.Machine.execMonBlock a0 a1 s
  | .transmissionStart a0 => Sys2Proof.Machine.execTransmissionStart a0 s
  | .transmissionEnd a0 a1 => Sys2Proof.Machine.execTransmissionEnd a0 a1 s
  | .txExit a0 => Sys2Proof.Machine.execTxExit a0 s
  | .lrefFault a0 a1 => Sys2Proof.Machine.execLrefFault a0 a1 s
  | .lrefClear a0 a1 => Sys2Proof.Machine.execLrefClear a0 a1 s
  | .lpFlagsClear a0 a1 a2 => Sys2Proof.Machine.execLpFlagsClear a0 a1 a2 s
  | .aenShiftRequest a0 a1 a2 => Sys2Proof.Machine.execAenShiftRequest a0 a1 a2 s
  | .aenShift => Sys2Proof.Machine.execAenShift s
  | .aenLatch => Sys2Proof.Machine.execAenLatch s
  | .aenIdleShift => Sys2Proof.Machine.execAenIdleShift s
  | .aenTailExpiry a0 => Sys2Proof.Machine.execAenTailExpiry a0 s
  | .maskBlock a0 a1 => Sys2Proof.Machine.execMaskBlock a0 a1 s
  | .chainOutput a0 a1 => Sys2Proof.Machine.execChainOutput a0 a1 s
  | .chainSettled a0 a1 => Sys2Proof.Machine.execChainSettled a0 a1 s
  | .fadeEnd a0 => Sys2Proof.Machine.execFadeEnd a0 s
  | .fcSwap a0 a1 a2 => Sys2Proof.Machine.execFcSwap a0 a1 a2 s
  | .swapStart a0 => Sys2Proof.Machine.execSwapStart a0 s
  | .fcCommit a0 a1 => Sys2Proof.Machine.execFcCommit a0 a1 s
  | .fcCommitApply a0 => Sys2Proof.Machine.execFcCommitApply a0 s
  | .coefWrite a0 a1 a2 a3 => Sys2Proof.Machine.execCoefWrite a0 a1 a2 a3 s
  | .fcAuxDataAccess a0 a1 => Sys2Proof.Machine.execFcAuxDataAccess a0 a1 s
  | .fcSetDirWrite a0 a1 a2 a3 => Sys2Proof.Machine.execFcSetDirWrite a0 a1 a2 a3 s
  | .fcSyncCmd a0 a1 => Sys2Proof.Machine.execFcSyncCmd a0 a1 s
  | .syncRestart a0 a1 => Sys2Proof.Machine.execSyncRestart a0 a1 s
  | .listenWindowOpen a0 => Sys2Proof.Machine.execListenWindowOpen a0 s
  | .listenWindowClose a0 => Sys2Proof.Machine.execListenWindowClose a0 s
  | .halfSymbolEvaluation a0 a1 => Sys2Proof.Machine.execHalfSymbolEvaluation a0 a1 s
  | .symbolBoundary a0 a1 => Sys2Proof.Machine.execSymbolBoundary a0 a1 s
  | .qualifyTimeout a0 => Sys2Proof.Machine.execQualifyTimeout a0 s
  | .qualifyLevelDrop a0 => Sys2Proof.Machine.execQualifyLevelDrop a0 s
  | .strSyncTimeout a0 => Sys2Proof.Machine.execStrSyncTimeout a0 s
  | .levelLost a0 => Sys2Proof.Machine.execLevelLost a0 s
  | .headerVerdict a0 => Sys2Proof.Machine.execHeaderVerdict a0 s
  | .frameSymbolsDelivered a0 a1 => Sys2Proof.Machine.execFrameSymbolsDelivered a0 a1 s
  | .replayStart a0 => Sys2Proof.Machine.execReplayStart a0 s
  | .replayLive a0 => Sys2Proof.Machine.execReplayLive a0 s
  | .strCommit a0 a1 => Sys2Proof.Machine.execStrCommit a0 a1 s
  | .strCommitApply a0 => Sys2Proof.Machine.execStrCommitApply a0 s
  | .strCntClr a0 a1 => Sys2Proof.Machine.execStrCntClr a0 a1 s
  | .deinterleaveDone a0 => Sys2Proof.Machine.execDeinterleaveDone a0 s
  | .viterbiDecodeStart a0 => Sys2Proof.Machine.execViterbiDecodeStart a0 s
  | .viterbiDecodeDone a0 => Sys2Proof.Machine.execViterbiDecodeDone a0 s
  | .ccmVerifyDone a0 => Sys2Proof.Machine.execCcmVerifyDone a0 s
  | .meterPhaseReport => Sys2Proof.Machine.execMeterPhaseReport s
  | .mainsCoastTimeout a0 => Sys2Proof.Machine.execMainsCoastTimeout a0 s
  | .phaseAbsent a0 a1 => Sys2Proof.Machine.execPhaseAbsent a0 a1 s
  | .predictedCycleStart a0 => Sys2Proof.Machine.execPredictedCycleStart a0 s
  | .binEnd a0 a1 => Sys2Proof.Machine.execBinEnd a0 a1 s
  | .mapWindow a0 a1 => Sys2Proof.Machine.execMapWindow a0 a1 s
  | .mnsPortClear a0 a1 a2 => Sys2Proof.Machine.execMnsPortClear a0 a1 a2 s
  | .mnsCommit a0 a1 => Sys2Proof.Machine.execMnsCommit a0 a1 s
  | .mnsCommitApply a0 a1 => Sys2Proof.Machine.execMnsCommitApply a0 a1 s
  | .roundFix a0 a1 => Sys2Proof.Machine.execRoundFix a0 a1 s
  | .roundDelayed a0 => Sys2Proof.Machine.execRoundDelayed a0 s
  | .laterFramesSend a0 => Sys2Proof.Machine.execLaterFramesSend a0 s
  | .readDue a0 => Sys2Proof.Machine.execReadDue a0 s
  | .readOverdue a0 => Sys2Proof.Machine.execReadOverdue a0 s
  | .planOverload a0 => Sys2Proof.Machine.execPlanOverload a0 s
  | .unreachablePollDue a0 => Sys2Proof.Machine.execUnreachablePollDue a0 s
  | .discoverySweepDue a0 a1 a2 => Sys2Proof.Machine.execDiscoverySweepDue a0 a1 a2 s
  | .phasePollDue a0 => Sys2Proof.Machine.execPhasePollDue a0 s
  | .sweepEnd a0 => Sys2Proof.Machine.execSweepEnd a0 s
  | .assocRefuseHoldEnd => Sys2Proof.Machine.execAssocRefuseHoldEnd s
  | .assignTriesExhausted a0 => Sys2Proof.Machine.execAssignTriesExhausted a0 s
  | .plnPinSet a0 a1 => Sys2Proof.Machine.execPlnPinSet a0 a1 s
  | .plnPinClearAll a0 a1 => Sys2Proof.Machine.execPlnPinClearAll a0 a1 s
  | .plnPinRead a0 a1 => Sys2Proof.Machine.execPlnPinRead a0 a1 s
  | .plnCommitGroups a0 a1 => Sys2Proof.Machine.execPlnCommitGroups a0 a1 s
  | .plnCommitRate a0 a1 => Sys2Proof.Machine.execPlnCommitRate a0 a1 s
  | .plnCommitLimits a0 a1 => Sys2Proof.Machine.execPlnCommitLimits a0 a1 s
  | .plnCommitApply => Sys2Proof.Machine.execPlnCommitApply s
  | .plnLimitsApply => Sys2Proof.Machine.execPlnLimitsApply s
  | .sesCmdDelete a0 a1 => Sys2Proof.Machine.execSesCmdDelete a0 a1 s
  | .sesCmdSetPrio a0 a1 => Sys2Proof.Machine.execSesCmdSetPrio a0 a1 s
  | .sesCmdClearPrio a0 a1 => Sys2Proof.Machine.execSesCmdClearPrio a0 a1 s
  | .sesCmdRead a0 a1 => Sys2Proof.Machine.execSesCmdRead a0 a1 s
  | .sesCmdWrite a0 a1 => Sys2Proof.Machine.execSesCmdWrite a0 a1 s
  | .sesCmdFlush a0 a1 => Sys2Proof.Machine.execSesCmdFlush a0 a1 s
  | .sesCmdRestore a0 a1 => Sys2Proof.Machine.execSesCmdRestore a0 a1 s
  | .sesCmdRestoreEnd a0 a1 => Sys2Proof.Machine.execSesCmdRestoreEnd a0 a1 s
  | .leaseRequest a0 a1 => Sys2Proof.Machine.execLeaseRequest a0 a1 s
  | .leaseRelease a0 a1 a2 => Sys2Proof.Machine.execLeaseRelease a0 a1 a2 s
  | .leaseRenew a0 a1 a2 => Sys2Proof.Machine.execLeaseRenew a0 a1 a2 s
  | .leaseExpiry a0 => Sys2Proof.Machine.execLeaseExpiry a0 s
  | .leaseWaitTimeout a0 a1 => Sys2Proof.Machine.execLeaseWaitTimeout a0 a1 s
  | .contextPrefetch a0 => Sys2Proof.Machine.execContextPrefetch a0 s
  | .contextFillDone a0 a1 => Sys2Proof.Machine.execContextFillDone a0 a1 s
  | .contextRebuildDone a0 a1 a2 => Sys2Proof.Machine.execContextRebuildDone a0 a1 a2 s
  | .journalWriteDone => Sys2Proof.Machine.execJournalWriteDone s
  | .journalUpdateResume => Sys2Proof.Machine.execJournalUpdateResume s
  | .writeBackDone a0 => Sys2Proof.Machine.execWriteBackDone a0 s
  | .storeHeaderWrite => Sys2Proof.Machine.execStoreHeaderWrite s
  | .spoolWrite => Sys2Proof.Machine.execSpoolWrite s
  | .recordSend a0 => Sys2Proof.Machine.execRecordSend a0 s
  | .credit a0 => Sys2Proof.Machine.execCredit a0 s
  | .creditStall => Sys2Proof.Machine.execCreditStall s
  | .halAck a0 a1 => Sys2Proof.Machine.execHalAck a0 a1 s
  | .drainRewind a0 => Sys2Proof.Machine.execDrainRewind a0 s
  | .cxlLinkDown => Sys2Proof.Machine.execCxlLinkDown s
  | .cxlRequestTimeout => Sys2Proof.Machine.execCxlRequestTimeout s
  | .cxlLinkUp a0 a1 a2 a3 => Sys2Proof.Machine.execCxlLinkUp a0 a1 a2 a3 s
  | .cxlCacheOnly => Sys2Proof.Machine.execCxlCacheOnly s
  | .cxlRetrainTimer => Sys2Proof.Machine.execCxlRetrainTimer s
  | .cxlRetrain a0 a1 => Sys2Proof.Machine.execCxlRetrain a0 a1 s
  | .cxlMediaPoll a0 => Sys2Proof.Machine.execCxlMediaPoll a0 s
  | .rhLinkUp a0 => Sys2Proof.Machine.execRhLinkUp a0 s
  | .rhLinkDown a0 => Sys2Proof.Machine.execRhLinkDown a0 s
  | .rhLinkInitRetry a0 => Sys2Proof.Machine.execRhLinkInitRetry a0 s
  | .superframeStart => Sys2Proof.Machine.execSuperframeStart s
  | .pairLease => Sys2Proof.Machine.execPairLease s
  | .slotStart => Sys2Proof.Machine.execSlotStart s
  | .phase2Prep => Sys2Proof.Machine.execPhase2Prep s
  | .responderSend => Sys2Proof.Machine.execResponderSend s
  | .slotTail a0 => Sys2Proof.Machine.execSlotTail a0 s
  | .rhScriptLate a0 a1 => Sys2Proof.Machine.execRhScriptLate a0 a1 s
  | .pairRelease a0 => Sys2Proof.Machine.execPairRelease a0 s
  | .radioAssignExpire a0 => Sys2Proof.Machine.execRadioAssignExpire a0 s
  | .radioCmdFailed a0 => Sys2Proof.Machine.execRadioCmdFailed a0 s
  | .parentBeacon => Sys2Proof.Machine.execParentBeacon s
  | .parentLost => Sys2Proof.Machine.execParentLost s
  | .coordIndependent => Sys2Proof.Machine.execCoordIndependent s
  | .macCommit a0 a1 => Sys2Proof.Machine.execMacCommit a0 a1 s
  | .macCommitApply => Sys2Proof.Machine.execMacCommitApply s
  | .macScriptDataAccess a0 a1 => Sys2Proof.Machine.execMacScriptDataAccess a0 a1 s
  | .macCtrlRun a0 a1 => Sys2Proof.Machine.execMacCtrlRun a0 a1 s
  | .macCtrlSubord a0 a1 => Sys2Proof.Machine.execMacCtrlSubord a0 a1 s
  | .routeAgeOut => Sys2Proof.Machine.execRouteAgeOut s
  | .seenExpire => Sys2Proof.Machine.execSeenExpire s
  | .meshResend a0 => Sys2Proof.Machine.execMeshResend a0 s
  | .mshRouteClearOne a0 a1 => Sys2Proof.Machine.execMshRouteClearOne a0 a1 s
  | .mshRouteClearAll a0 a1 => Sys2Proof.Machine.execMshRouteClearAll a0 a1 s
  | .mshCommit a0 a1 => Sys2Proof.Machine.execMshCommit a0 a1 s
  | .mshCommitApply => Sys2Proof.Machine.execMshCommitApply s
  | .anchorProgram a0 a1 => Sys2Proof.Machine.execAnchorProgram a0 a1 s
  | .anchorProgramDone a0 => Sys2Proof.Machine.execAnchorProgramDone a0 s
  | .keyDerivationDone => Sys2Proof.Machine.execKeyDerivationDone s
  | .kcacheFlush a0 a1 => Sys2Proof.Machine.execKcacheFlush a0 a1 s
  | .drbgReseed => Sys2Proof.Machine.execDrbgReseed s
  | .entropyFail => Sys2Proof.Machine.execEntropyFail s
  | .entropyRetest a0 => Sys2Proof.Machine.execEntropyRetest a0 s
  | .vaultWriteDone a0 => Sys2Proof.Machine.execVaultWriteDone a0 s
  | .rawJobStart a0 a1 => Sys2Proof.Machine.execRawJobStart a0 a1 s
  | .rawJobAbort a0 a1 => Sys2Proof.Machine.execRawJobAbort a0 a1 s
  | .rawJobDone a0 => Sys2Proof.Machine.execRawJobDone a0 s
  | .cipSesRead a0 a1 => Sys2Proof.Machine.execCipSesRead a0 a1 s
  | .cipSesRekeyDue a0 a1 => Sys2Proof.Machine.execCipSesRekeyDue a0 a1 s
  | .cipSesReprovision a0 a1 => Sys2Proof.Machine.execCipSesReprovision a0 a1 s
  | .cipCommit a0 a1 => Sys2Proof.Machine.execCipCommit a0 a1 s
  | .chkArm a0 a1 a2 => Sys2Proof.Machine.execChkArm a0 a1 a2 s
  | .chkStop a0 a1 a2 => Sys2Proof.Machine.execChkStop a0 a1 a2 s
  | .chkClrExpect a0 a1 a2 => Sys2Proof.Machine.execChkClrExpect a0 a1 a2 s
  | .chkExpectWrite a0 a1 a2 => Sys2Proof.Machine.execChkExpectWrite a0 a1 a2 s
  | .chkWindowStart a0 => Sys2Proof.Machine.execChkWindowStart a0 s
  | .chkWindowEnd a0 a1 a2 a3 => Sys2Proof.Machine.execChkWindowEnd a0 a1 a2 a3 s
  | .chkCommit a0 a1 => Sys2Proof.Machine.execChkCommit a0 a1 s
  | .chkCommitApply a0 => Sys2Proof.Machine.execChkCommitApply a0 s
  | .laneUp a0 a1 => Sys2Proof.Machine.execLaneUp a0 a1 s
  | .laneDown a0 a1 => Sys2Proof.Machine.execLaneDown a0 a1 s
  | .helloSend a0 => Sys2Proof.Machine.execHelloSend a0 s
  | .linkHello a0 a1 a2 => Sys2Proof.Machine.execLinkHello a0 a1 a2 s
  | .linkConfirm a0 => Sys2Proof.Machine.execLinkConfirm a0 s
  | .linkBringupTimeout a0 => Sys2Proof.Machine.execLinkBringupTimeout a0 s
  | .linkSilenceTimeout a0 => Sys2Proof.Machine.execLinkSilenceTimeout a0 s
  | .linkFrameRejected a0 a1 => Sys2Proof.Machine.execLinkFrameRejected a0 a1 s
  | .ownershipRefresh => Sys2Proof.Machine.execOwnershipRefresh s
  | .ownWatchdogExpiry => Sys2Proof.Machine.execOwnWatchdogExpiry s
  | .spliceStartWaitEnd => Sys2Proof.Machine.execSpliceStartWaitEnd s
  | .takeoverTimeout => Sys2Proof.Machine.execTakeoverTimeout s
  | .claimGuardEnd => Sys2Proof.Machine.execClaimGuardEnd s
  | .ownInFall => Sys2Proof.Machine.execOwnInFall s
  | .splitClaimTimeout => Sys2Proof.Machine.execSplitClaimTimeout s
  | .claimRetryDelayEnd => Sys2Proof.Machine.execClaimRetryDelayEnd s
  | .splSwitchover a0 a1 => Sys2Proof.Machine.execSplSwitchover a0 a1 s
  | .splUnpair a0 a1 => Sys2Proof.Machine.execSplUnpair a0 a1 s
  | .splResync a0 a1 => Sys2Proof.Machine.execSplResync a0 a1 s
  | .splCommit a0 a1 => Sys2Proof.Machine.execSplCommit a0 a1 s
  | .splHeartbeatSend => Sys2Proof.Machine.execSplHeartbeatSend s
  | .splHeartbeat a0 a1 a2 a3 a4 => Sys2Proof.Machine.execSplHeartbeat a0 a1 a2 a3 a4 s
  | .splJrn a0 a1 a2 a3 a4 a5 => Sys2Proof.Machine.execSplJrn a0 a1 a2 a3 a4 a5 s
  | .splVault a0 a1 a2 a3 a4 a5 a6 => Sys2Proof.Machine.execSplVault a0 a1 a2 a3 a4 a5 a6 s
  | .splPlan a0 a1 a2 => Sys2Proof.Machine.execSplPlan a0 a1 a2 s
  | .splRoute a0 a1 a2 a3 a4 a5 a6 => Sys2Proof.Machine.execSplRoute a0 a1 a2 a3 a4 a5 a6 s
  | .splCtx a0 a1 a2 => Sys2Proof.Machine.execSplCtx a0 a1 a2 s
  | .splAck a0 a1 => Sys2Proof.Machine.execSplAck a0 a1 s
  | .splAudit a0 a1 a2 => Sys2Proof.Machine.execSplAudit a0 a1 a2 s
  | .splSwitch a0 => Sys2Proof.Machine.execSplSwitch a0 s
  | .splCtxReq a0 a1 a2 => Sys2Proof.Machine.execSplCtxReq a0 a1 a2 s
  | .mirrorAuditStep => Sys2Proof.Machine.execMirrorAuditStep s
  | .brdKeepaliveSend a0 => Sys2Proof.Machine.execBrdKeepaliveSend a0 s
  | .brdKeepalive a0 => Sys2Proof.Machine.execBrdKeepalive a0 s
  | .walkStart => Sys2Proof.Machine.execWalkStart s
  | .knotWalkTimer => Sys2Proof.Machine.execKnotWalkTimer s
  | .brdWalk a0 a1 a2 => Sys2Proof.Machine.execBrdWalk a0 a1 a2 s
  | .brdTopology a0 a1 a2 a3 a4 => Sys2Proof.Machine.execBrdTopology a0 a1 a2 a3 a4 s
  | .delayExchangeTimer a0 => Sys2Proof.Machine.execDelayExchangeTimer a0 s
  | .brdDelayReq a0 => Sys2Proof.Machine.execBrdDelayReq a0 s
  | .brdDelayResp a0 a1 a2 => Sys2Proof.Machine.execBrdDelayResp a0 a1 a2 s
  | .timeSendTimer => Sys2Proof.Machine.execTimeSendTimer s
  | .brdTime a0 a1 a2 a3 => Sys2Proof.Machine.execBrdTime a0 a1 a2 a3 s
  | .brdMeshRelay a0 a1 a2 a3 a4 a5 a6 => Sys2Proof.Machine.execBrdMeshRelay a0 a1 a2 a3 a4 a5 a6 s
  | .brdBroadcast a0 a1 => Sys2Proof.Machine.execBrdBroadcast a0 a1 s
  | .brdBcastCmd a0 a1 => Sys2Proof.Machine.execBrdBcastCmd a0 a1 s
  | .brdHoCmd a0 a1 => Sys2Proof.Machine.execBrdHoCmd a0 a1 s
  | .brdHoOffer a0 a1 a2 a3 a4 => Sys2Proof.Machine.execBrdHoOffer a0 a1 a2 a3 a4 s
  | .brdHoAccept a0 a1 a2 => Sys2Proof.Machine.execBrdHoAccept a0 a1 a2 s
  | .brdHoRefuse a0 a1 a2 => Sys2Proof.Machine.execBrdHoRefuse a0 a1 a2 s
  | .brdHoDone a0 a1 => Sys2Proof.Machine.execBrdHoDone a0 a1 s
  | .brdHoFail a0 a1 => Sys2Proof.Machine.execBrdHoFail a0 a1 s
  | .hoAckTimeout a0 => Sys2Proof.Machine.execHoAckTimeout a0 s
  | .brdJoinRing a0 a1 => Sys2Proof.Machine.execBrdJoinRing a0 a1 s
  | .bightLane1Open => Sys2Proof.Machine.execBightLane1Open s
  | .bightCutoverQueue => Sys2Proof.Machine.execBightCutoverQueue s
  | .bightCutover => Sys2Proof.Machine.execBightCutover s
  | .bightMember => Sys2Proof.Machine.execBightMember s
  | .bightInsertRetry => Sys2Proof.Machine.execBightInsertRetry s
  | .brdLeave a0 a1 => Sys2Proof.Machine.execBrdLeave a0 a1 s
  | .brdCommit a0 a1 => Sys2Proof.Machine.execBrdCommit a0 a1 s
  | .halLinkUp a0 => Sys2Proof.Machine.execHalLinkUp a0 s
  | .halLinkDown a0 => Sys2Proof.Machine.execHalLinkDown a0 s
  | .halPortReturn => Sys2Proof.Machine.execHalPortReturn s
  | .halFrameReceive a0 a1 => Sys2Proof.Machine.execHalFrameReceive a0 a1 s
  | .halHelloSend => Sys2Proof.Machine.execHalHelloSend s
  | .halNegotiationEnd => Sys2Proof.Machine.execHalNegotiationEnd s
  | .halVersion a0 => Sys2Proof.Machine.execHalVersion a0 s
  | .halCommand a0 a1 a2 => Sys2Proof.Machine.execHalCommand a0 a1 a2 s
  | .cmdMeterCommand => Sys2Proof.Machine.execCmdMeterCommand s
  | .cmdCsrRead => Sys2Proof.Machine.execCmdCsrRead s
  | .cmdCsrWrite => Sys2Proof.Machine.execCmdCsrWrite s
  | .cmdRawJob => Sys2Proof.Machine.execCmdRawJob s
  | .cmdJobStart => Sys2Proof.Machine.execCmdJobStart s
  | .cmdJobCancel => Sys2Proof.Machine.execCmdJobCancel s
  | .cmdReplaceAck => Sys2Proof.Machine.execCmdReplaceAck s
  | .halCommit a0 a1 => Sys2Proof.Machine.execHalCommit a0 a1 s
  | .halMsecInstall a0 a1 a2 => Sys2Proof.Machine.execHalMsecInstall a0 a1 a2 s
  | .halMsecEnable a0 a1 a2 => Sys2Proof.Machine.execHalMsecEnable a0 a1 a2 s
  | .halMsecDisable a0 a1 a2 => Sys2Proof.Machine.execHalMsecDisable a0 a1 a2 s
  | .mgtWrite a0 a1 a2 => Sys2Proof.Machine.execMgtWrite a0 a1 a2 s
  | .mgtRead a0 a1 => Sys2Proof.Machine.execMgtRead a0 a1 s
  | .mgtStatus a0 => Sys2Proof.Machine.execMgtStatus a0 s
  | .mgtId a0 => Sys2Proof.Machine.execMgtId a0 s
  | .mgtInvalidTransaction a0 a1 => Sys2Proof.Machine.execMgtInvalidTransaction a0 a1 s
  | .writeLogEntry => Sys2Proof.Machine.execWriteLogEntry s
  | .eventRecordDue => Sys2Proof.Machine.execEventRecordDue s
  | .evcLatchClear a0 a1 a2 => Sys2Proof.Machine.execEvcLatchClear a0 a1 a2 s
  | .blyStart a0 a1 => Sys2Proof.Machine.execBlyStart a0 a1 s
  | .blyCancel a0 a1 => Sys2Proof.Machine.execBlyCancel a0 a1 s
  | .blyOverrun a0 => Sys2Proof.Machine.execBlyOverrun a0 s
  | .jobStatusReport a0 => Sys2Proof.Machine.execJobStatusReport a0 s
  | .sessionScrubStep a0 a1 => Sys2Proof.Machine.execSessionScrubStep a0 a1 s
  | .rekeySweepStep a0 => Sys2Proof.Machine.execRekeySweepStep a0 s
  | .cxlScrubStep a0 a1 a2 a3 => Sys2Proof.Machine.execCxlScrubStep a0 a1 a2 a3 s
  | .logExportStep a0 => Sys2Proof.Machine.execLogExportStep a0 s
  | .noiseMapExportStep a0 => Sys2Proof.Machine.execNoiseMapExportStep a0 s
  | .cxlAuditStep a0 a1 a2 => Sys2Proof.Machine.execCxlAuditStep a0 a1 a2 s
  | .cipherTestStep a0 a1 => Sys2Proof.Machine.execCipherTestStep a0 a1 s
  | .nvmReadStep a0 a1 a2 => Sys2Proof.Machine.execNvmReadStep a0 a1 a2 s
  | .nvmProgramStep a0 a1 => Sys2Proof.Machine.execNvmProgramStep a0 a1 s
  | .nvmEraseStep a0 => Sys2Proof.Machine.execNvmEraseStep a0 s
  | .nvmStatusPoll a0 a1 => Sys2Proof.Machine.execNvmStatusPoll a0 a1 s
  | .selfTestStep a0 a1 => Sys2Proof.Machine.execSelfTestStep a0 a1 s
  | .testCordMove a0 a1 => Sys2Proof.Machine.execTestCordMove a0 a1 s
  | .selfTestPeriodicStart => Sys2Proof.Machine.execSelfTestPeriodicStart s
  | .bstClearMark a0 a1 => Sys2Proof.Machine.execBstClearMark a0 a1 s
  | .bstReplaceAck a0 a1 => Sys2Proof.Machine.execBstReplaceAck a0 a1 s
  | .bstReplaceClr a0 a1 => Sys2Proof.Machine.execBstReplaceClr a0 a1 s
  | .replaceRequestRepeat => Sys2Proof.Machine.execReplaceRequestRepeat s
  | .logClearProt a0 a1 => Sys2Proof.Machine.execLogClearProt a0 a1 s
  | .logMarkExported a0 a1 => Sys2Proof.Machine.execLogMarkExported a0 a1 s
  | .glbCommit a0 a1 => Sys2Proof.Machine.execGlbCommit a0 a1 s
  | .glbRevert a0 a1 => Sys2Proof.Machine.execGlbRevert a0 a1 s
  | .glbTimeCapture a0 a1 => Sys2Proof.Machine.execGlbTimeCapture a0 a1 s
  | .gpioCapture a0 a1 => Sys2Proof.Machine.execGpioCapture a0 a1 s
  | .wideValueRead a0 a1 => Sys2Proof.Machine.execWideValueRead a0 a1 s
  | .registerWrite a0 a1 a2 => Sys2Proof.Machine.execRegisterWrite a0 a1 a2 s
  | .tapInstructionUpdate a0 => Sys2Proof.Machine.execTapInstructionUpdate a0 s
  | .bightCutoverProposal a0 a1 a2 a3 => Sys2Proof.Machine.execBightCutoverProposal a0 a1 a2 a3 s
  | .braidTimeValidLapse => Sys2Proof.Machine.execBraidTimeValidLapse s
  | .entropyStartupTest a0 => Sys2Proof.Machine.execEntropyStartupTest a0 s

end Sys2Proof.Machine
end

