-- ==== Sys2Proof/Safety.lean ====
section
/-! DEFINITION. The terms in which statements speak: what a command answers, and what the status registers of a
settled state show. -/
namespace Sys2Proof.Machine
open Sys2Proof

/-- The command `c` answers, in state `s`, the state `t` with its status registers following and the queue as it stood. -/
def State.goes (s : State) (c : Instr) (t : State) : Prop := exec c s = .next { t.settle with pending := s.pending }

/-- `t` differs from `s` in live values and shadows of registers only. -/
def State.RegsAndShadowsOnly (s t : State) : Prop := ∃ r h, t = { s with regs := r, shadow := h }

/-! ### What the status registers show -/

/-- Source `e` is latched and enabled (R426). -/
def State.evPends (s : State) (e : Nat) : Bool := s.evLatched e && s.evOn e

/-- Source `e` drives `IRQ_N` (R426). -/
def State.evDrives (s : State) (e : Nat) : Bool := s.evPends e && (s.get F.EVC_ROUTE_IRQ_CLASSES).testBit (s.evClass e)

/-- `EVC_STATUS` shows the event controller (R426). -/
structure State.EventsShown (s : State) : Prop where
  irq : s.bit F.EVC_STATUS_IRQ = (List.range 256).any (fun e => s.evDrives e)
  valid : s.bit F.EVC_STATUS_TOP_VALID = s.bit F.EVC_STATUS_IRQ
  top : s.bit F.EVC_STATUS_IRQ = true →
    s.evDrives (s.get F.EVC_STATUS_TOP) = true ∧ ∀ e, e < 256 → s.evDrives e = true →
      s.evClass (s.get F.EVC_STATUS_TOP) < s.evClass e ∨
        (s.evClass (s.get F.EVC_STATUS_TOP) = s.evClass e ∧ s.get F.EVC_STATUS_TOP ≤ e)
  pending : s.get F.EVC_STATUS_PENDING = ((List.range 256).filter (fun e => s.evPends e)).length

/-- `PWR_DOMAIN_STAT` shows a domain with work as running (R461). -/
structure State.DomainsShown (s : State) : Prop where
  decode : s.decodeWork = true → s.bit F.PWR_DOMAIN_STAT_DECODE = true
  cipher : s.cipherWork = true → s.bit F.PWR_DOMAIN_STAT_CIPHER = true
  radio : s.bit F.PWR_DOMAIN_STAT_RADIO = s.mac.next.isSome
  cxl : s.bit F.PWR_DOMAIN_STAT_CXL_L1 = true → s.cxlWork = false ∧ s.get F.CXL_LINK_STAT_STATE = 2

/-- Belay, the protected log, the command queue and `SERVICE_N` are shown (R431, R492, R440, R488). -/
structure State.QueuesShown (s : State) : Prop where
  busy : ∀ k, k < 16 → s.bitAt F.BLY_STAT_BUSY 0 k = (decide (1 ≤ s.jobState k) && decide (s.jobState k ≤ 4))
  full : s.bit F.LOG_PROT_STAT_FULL = decide (256 ≤ s.get F.LOG_PROT_STAT_COUNT)
  commands : s.get F.HAL_STATUS_CMD_QUEUE = s.cmdQ.length % 128
  service : s.bit F.BST_REPLACE_STAT_SERVICE = (s.get F.BST_REPLACE_STAT_REASONS != 0)

/-- `GLB_STATUS` shows the module (R510). -/
structure State.SummaryShown (s : State) : Prop where
  owner : s.bit F.GLB_STATUS_OWNER = s.own
  noImage : s.bit F.GLB_STATUS_NO_IMAGE = (s.get F.PWR_START_STAT_STEP == 7)
  cacheOnly : s.bit F.GLB_STATUS_CACHE_ONLY = (s.get F.SES_STATUS_MODE == 1)
  fenced : s.bit F.GLB_STATUS_FENCED = s.bit F.CIP_STATUS_FENCED
  service : s.bit F.GLB_STATUS_SERVICE = s.bit F.BST_REPLACE_STAT_SERVICE
  thermal : s.bit F.GLB_STATUS_THERM_STOP = s.bit F.PWR_DOMAIN_STAT_THERM_STOP
  irq : s.bit F.GLB_STATUS_IRQ = s.bit F.EVC_STATUS_IRQ
  switching : s.bit F.GLB_STATUS_SWITCHING = s.profileJob

/-- Every status register that shows other state shows it. -/
structure State.Settled (s : State) : Prop where
  events : s.EventsShown
  domains : s.DomainsShown
  queues : s.QueuesShown
  summary : s.SummaryShown

end Sys2Proof.Machine
end

