-- ==== Sys2Proof/Certificates/Slice0/Obligations.lean ====
section
/-! DEFINITION. The statements for the provers.  The first part says, for every command of the table, the state in which it answers a next state
and what that state is; the conditions are those under which the spec lets the command act.  The second part states the rules of the spec and the
laws of the machine that run through many commands. -/
open Sys2Proof Sys2Proof.Machine

/-! ## Every command completes -/

/-- The commands of resets and the start-up sequence: each answers, under the conditions named, the next state its rule gives, and so leaves all else as it stands.  Clauses
rest on the model's choices of the log entries 3, 17, 34, 37, 38, 39, 40, 41, 84, 92, 136. -/
def Obligations.ResetAndStartUpCommandsComplete : Prop :=
  -- POWER_RESET (R443)
  (∀ (s : State),
    s.up.run = 0 →
    s.goes .powerReset (s.cold)) ∧
  -- VIN_UVLO_FALL (R444)
  (∀ (s : State),
    s.goes .vinUvloFall (
      (if s.up.run = 0 then s
        else { (s.cold.onUp (fun u => { u with run := 0 })) with anchorDip := s.anchorDip || s.cip.blowing.isSome }))) ∧
  -- PIN_RESET (R443)
  (∀ (s : State),
    s.up.run ≠ 0 →
    s.goes .pinReset (s.warm 2)) ∧
  -- SOFT_RESET (R511)
  (∀ (s : State),
    ∀ t, s.up.softAt = some t →
    t ≤ s.tick →
    s.goes .softReset (s.warm 3)) ∧
  -- START_UP (R447)
  (∀ (s : State) (pins : Fin 4),
    s.up.run = 1 →
    s.goes (.startUp pins) (
      let s := s.onUp (fun u => { u with run := 2, tR := s.tick })
      let s := s.put F.PWR_PROF_STAT_PINS 0 pins.val
      let t : State := ((s.vaultLinks).vaultMarks).vaultKeep.startStep 1
      t)) ∧
  -- PERST_RELEASE (R446)
  (∀ (s : State),
    s.up.run ≠ 0 →
    s.up.perst = false →
    s.up.goodAt + msTicks (s.get F.PWR_CXL_CFG_PERST_MIN) ≤ s.tick →
    s.goes .perstRelease ((s.onUp (fun u => { u with perst := true })).cxlTrain)) ∧
  -- PLL_LOCKED (R447)
  (∀ (s : State),
    s.up.run = 2 →
    s.startCode = 1 →
    s.goes .pllLocked (
      let s := (s.putB F.CLK_STATUS_PLL_LOCK 0 true).putB F.CLK_STATUS_REFCLK_OK 0 true
      let s := (s.putB F.PWR_DOMAIN_STAT_FALLBACK 0 false).onUp (fun u => { u with clockLost := false })
      let t : State := s.startStep 2
      t)) ∧
  -- IMAGE_LOAD_DONE (R452)
  (∀ (s : State) (image : Option (List Byte)),
    s.up.run = 2 →
    s.startCode = 2 →
    s.goes (.imageLoadDone image) (
      let r : State × Nat := match image with
        | none => (s, 7)
        | some img => s.loadImageFile img
      if r.2 = 0 then ((r.1.put F.PWR_START_STAT_IMAGE 0 (if s.up.alt then 2 else 1)).imageGo)
      else
        let t := r.1.imageUndo.put F.PWR_START_STAT_FAIL_CAUSE 0 r.2
        if s.up.alt then (((t.put F.PWR_START_STAT_IMAGE 0 3).raise Ev.IMAGE_FAIL r.2).startStep 7)
        else ((t.onUp (fun u => { u with alt := true })).startStep 2))) ∧
  -- QUICK_SELF_TEST (R473)
  (∀ (s : State) (obs : List QuickObs),
    s.get F.PWR_START_STAT_STEP = 3 →
    s.goes (.quickSelfTest obs) (
      let order := 13 :: (List.range 30).filter (· != 13)
      let s := order.foldl (fun (s : State) t => s.quickOne t (obs.getD t ⟨0, 0, true, []⟩)) s
      let t : State := (s.putB F.BST_STATUS_QUICK_DONE 0 true).startStep (if s.cacheOnly || (s.cxlUp && s.storeOpen) then 5 else 4)
      t)) ∧
  -- START_DONE (R447)
  (∀ (s : State),
    s.up.run = 2 →
    s.startCode = 5 →
    s.spl.want.isEmpty = true →
    s.goes .startDone (
      if !s.cacheOnly ∧ s.partnerThere ∧ !s.parkedRest.isEmpty then s.parkedRestore
      else
        let s := (s.restoreRest).putB F.GLB_STATUS_STARTED 0 true
        let s := (List.range 144).foldl (fun (s : State) p =>
          s.portStart p) s
        let s := s.allRestart
        let s := (s.put F.PWR_START_STAT_START_MS 0 (min 65535 ((s.tick - s.up.tR) / 38400))).startStep 6
        let t : State := ((s.raise Ev.START_DONE 0).macStart).serve
        t)) ∧
  -- HEADEND_WAIT_EXPIRY (R252)
  (∀ (s : State),
    ∀ t, s.waitEnd = some t →
    s.classHeld = true →
    t ≤ s.tick →
    s.goes .headendWaitExpiry ({ s with classHeld := false }.serve))

/-- The commands of clocks, PPS and time discipline: each answers, under the conditions named, the next state its rule gives, and so leaves all else as it stands.  Clauses
rest on the model's choices of the log entries 2, 17, 19, 32, 53, 60, 61, 91, 92. -/
def Obligations.ClockCommandsComplete : Prop :=
  -- REFCLK_LOST (R456)
  (∀ (s : State),
    s.up.run = 2 →
    s.bit F.CLK_STATUS_REFCLK_OK = true →
    s.goes .refclkLost (
      let s := (s.putB F.CLK_STATUS_REFCLK_OK 0 false).raise Ev.REFCLK_LOST 0
      let t : State := (if s.up.clockLost then s else s.clockHalt)
      t)) ∧
  -- PLL_UNLOCK (R456)
  (∀ (s : State),
    s.up.run = 2 →
    s.bit F.CLK_STATUS_PLL_LOCK = true →
    s.bit F.CLK_STATUS_REFCLK_OK = true →
    s.goes .pllUnlock ((s.raise Ev.PLL_UNLOCK 0).clockHalt)) ∧
  -- PLL_RELOCK (R456)
  (∀ (s : State) (prev : Option (List Byte)),
    s.up.run = 2 →
    s.up.clockLost = true →
    6 ≤ s.startCode →
    s.goes (.pllRelock prev) (
      let held := s.up.xtBad && !s.bit F.CLK_STATUS_REFCLK_OK
      let s := ((s.putB F.CLK_STATUS_PLL_LOCK 0 true).putB F.CLK_STATUS_REFCLK_OK 0 true).onUp (fun u => { u with clockLost := false })
      let s := s.putB F.PWR_DOMAIN_STAT_FALLBACK 0 false
      let s := if held then (let r := s.draw 16; r.2.raise Ev.TIME_STEP r.1.toNat) else s
      let s := if s.up.reapply then (s.onUp (fun u => { u with reapply := false })).profAgain prev else s
      let s := if s.startCode = 7 then s
        else if s.bit F.SPL_CTRL_EN then
          (s.ownLose.put F.SPL_STATUS_ROLE 0 1).onSpl (fun x => { x with start := some s.tick, was := 1, claimAt := none, retryAt := none })
        else s
      let t : State := (s.linksBack).macStart
      t)) ∧
  -- XT32_CHECK (R457)
  (∀ (s : State) (ok : Bool),
    s.goes (.xt32Check ok) (
      let s' := (s.putB F.CLK_STATUS_XT32_OK 0 ok).onUp (fun u => { u with xtBad := !ok })
      let t : State := s'.raiseIf (!ok && !s.up.xtBad) Ev.XT32_FAIL 0
      t)) ∧
  -- PPS_EDGE (R459)
  (∀ (s : State),
    s.goes .ppsEdge (
      if !s.bit F.CLK_PPS_CFG_EN then ({ s with ppsLast := some s.tick }.syncPps s.tick)
      else
        let glitch := match s.ppsLast with
          | none => false
          | some t => decide (s.tick < t + 38361600) || decide (t + 38438400 < s.tick)
        if glitch then (s.incSat F.CLK_CNT_GLITCHES)
        else
          let e := ppsError s.tick
          let was := s.timeSource
          let s := (s.incWrap F.CLK_CNT_EDGES).putI F.CLK_PPS_ERR_E 0 e
          let s := s.ppsJudge e
          let s := s.sourceShow
          let s := if s.timeSource = 2 then s else s.discipline e 1 (was != 1)
          let t : State := { s with ppsLast := some s.tick }.syncPps s.tick
          t)) ∧
  -- PPS_LOST (R460)
  (∀ (s : State),
    ∀ t, s.ppsLast = some t →
    t + 38400000 + 57600000 ≤ s.tick →
    s.goes .ppsLost (
      let s' := { s with ppsLast := none }
      let t : State := (if s.bit F.CLK_STATUS_PPS_LOCK then s'.ppsLocked false else s'.onUp (fun u => { u with ppsGood := 0, ppsBad := 0 }))
      t)) ∧
  -- PPS_OUT_PULSE (R460)
  (∀ (s : State),
    let m := s.tick / 38400000 * 38400000
    s.bit F.CLK_PPS_OUT_EN = true →
    s.tick < m + 1172 →
    s.goes .ppsOutPulse (s.onUp (fun u => { u with ppsHigh := some (m + msTicks (s.get F.CLK_PPS_OUT_WIDTH_MS)) }))) ∧
  -- CLK_COMMIT (R467)
  (∀ (s : State) (i : Iface) (w : Word),
    s.goes (.clkCommit i w) (s.clkCommit i w)) ∧
  -- BRAID_TIME_VALID_LAPSE (R458)
  (∀ (s : State),
    s.bit F.BRD_TIME_STAT_VALID = true →
    s.brd.timeAt + 4 * sTicks (s.get F.BRD_TIME_CFG_INTERVAL) ≤ s.tick →
    s.goes .braidTimeValidLapse ((s.putB F.BRD_TIME_STAT_VALID 0 false).sourceShow))

/-- The commands of power domains, supply, profile switch and lost cores: each answers, under the conditions named, the next state its rule gives, and so leaves all else as it stands.  Clauses
rest on the model's choices of the log entries 17, 18, 33, 34, 35, 63, 84, 85, 86, 105, 120. -/
def Obligations.PowerProfileAndCoreCommandsComplete : Prop :=
  -- CORD_ENGINE_STOP (R461)
  (∀ (s : State) (e : Fin 10),
    let cords := (List.range 9).filter (fun c => s.engineOf c == e.val)
    s.bit F.PWR_SLEEP_CFG_SLEEP_EN = true →
    s.bitAt F.PWR_DOMAIN_STAT 0 e.val = true →
    cords.any (fun c => s.cordBusy c) = false →
    ¬(e.val = 9 ∧ s.spareTested) →
    s.goes (.cordEngineStop e) (
      let s := s.putBit F.PWR_DOMAIN_STAT 0 e.val false
      let t : State := (cords.foldl (fun (s : State) c =>
        s.cordSleep c) s)
      t)) ∧
  -- CORD_ENGINE_WAKE (R461)
  (∀ (s : State) (cord : Fin 9),
    s.wakeNear cord.val 0 = true →
    s.goes (.cordEngineWake cord) (s.cordWake cord.val false)) ∧
  -- DOMAIN_IDLE_STOP (R461)
  (∀ (s : State) (cipher : Bool),
    s.goes (.domainIdleStop cipher) (
      (if cipher then (if s.cipherWork then s else s.putB F.PWR_DOMAIN_STAT_CIPHER 0 false)
        else if s.decodeWork then s else s.putB F.PWR_DOMAIN_STAT_DECODE 0 false))) ∧
  -- CXL_L1_ENTRY (R461)
  (∀ (s : State),
    s.cxlUp = true →
    s.cxlWork = false →
    s.goes .cxlL1Entry (s.putB F.PWR_DOMAIN_STAT_CXL_L1 0 true)) ∧
  -- SUPPLY_MONITOR (R463)
  (∀ (s : State) (vin : BitVec 11) (temp : BitVec 12),
    s.goes (.supplyMonitor vin temp) (
      let s := (s.put F.PWR_SUPPLY_VIN 0 vin.toNat).put F.PWR_SUPPLY_TEMP 0 temp.toNat
      let t : State := (s.vinTake vin.toNat).tempTake temp
      t)) ∧
  -- GLB_PROFILE_CMD (R512)
  (∀ (s : State) (i : Iface) (w : Word),
    s.goes (.glbProfileCmd i w) (s.profileCmd i w)) ∧
  -- PROFILE_SWITCH_CHECK_STEP (R454)
  (∀ (s : State) (k : Fin 16) (entry : Option (Nat × Word)) (data : List Byte),
    s.jobTurn k.val 7 = true →
    s.profPhase < 2 →
    s.goes (.profileSwitchCheckStep k entry data) (
      match entry with
      | none => (s.profRefuse k.val 2)
      | some (len, crc) =>
        if data.length ≠ min 10000 (len - s.up.sect.length) then s
        else
          let l := s.up.sect ++ data
          let s := { s with profPhase := 1 }.onUp (fun u => { u with sect := l })
          if l.length < len then (s.profStep k.val)
          else
            let r := s.nvmCheck l crc.toNat
            if !r.2 then (r.1.profRefuse k.val 6)
            else if (profWrites l).isNone then (r.1.profRefuse k.val 2)
            else ({ r.1 with profPhase := 2 }.profStep k.val))) ∧
  -- PROFILE_SWITCH_DRAIN_END (R454)
  (∀ (s : State) (k : Fin 16),
    let drained := !profBlocks.any (fun b => s.commitPending b) && s.rounds.isEmpty && s.exchs.isEmpty && s.radioDrained
    s.jobTurn k.val 7 = true →
    s.profPhase = 2 →
    (drained || s.bit F.PWR_DOMAIN_STAT_THERM_STOP) = true →
    s.goes (.profileSwitchDrainEnd k) (
      let s := { s.macStop with profPhase := 3 }.onJob k.val (fun j => { j with deadline := s.tick })
      let t : State := s.profStep k.val
      t)) ∧
  -- PROFILE_SWITCH_WAIT_END (R454)
  (∀ (s : State) (k : Fin 16) (data : List Byte) (prev : Option (List Byte)),
    s.jobTurn k.val 7 = true →
    s.profPhase = 3 →
    s.lineWaited k.val = true →
    s.goes (.profileSwitchWaitEnd k data prev) (
      let p := s.jobParam k.val 0 % 4
      let r := s.nvmCheck data (crc32c s.up.sect).toNat
      match (if r.2 then profWrites data else none) with
      | none => ((((r.1.profAgain prev).jobCount k.val).jobBoundary k.val (some (6, 6))).profOver)
      | some ws =>
        let t := r.1.profPut ws
        if t.2 then
          let s := t.1.put F.GLB_STATUS_PROFILE 0 p
          let t : State := (((s.raise Ev.PROFILE_SWITCHED p).jobCount k.val).jobBoundary k.val (some (5, 1))).profOver
          t
        else ((((t.1.profAgain prev).jobCount k.val).jobBoundary k.val (some (6, 2))).profOver))) ∧
  -- CORE_LOST (R25)
  (∀ (s : State) (core : Fin 4),
    s.up.run = 2 →
    s.up.coresOut.testBit core.val = false →
    s.goes (.coreLost core) (
      let s := if s.marked (26 + core.val) then s else s.markSet (26 + core.val)
      let t : State := ((s.coreMove core.val).ladder).serve
      t)) ∧
  -- LINK_GCM_WAIT_EXPIRY (R27)
  (∀ (s : State) (l : Fin 4),
    let old := fun (m : Msg) => decide (m.sent + usTicks 8 ≤ s.tick)
    s.engineUp = true →
    s.goes (.linkGcmWaitExpiry l) (
      if l.val = 3 then
        (if s.halWaits && s.hal.heldAt.any (fun t => decide (t + usTicks 8 ≤ s.tick)) then
            (if s.bit F.HAL_STATUS_NEGOTIATED then s.recordSend false else s.helloNow)
          else s)
      else if l.val = 0 then (if (s.splicePick true).any old then s.departSplice true else s)
      else (if s.brdOut.any (fun m => m.1 == l.val - 1 && old m.2) then s.departPort (l.val - 1) true else s)))

/-- The commands of line-port commits, gain control and watching: each answers, under the conditions named, the next state its rule gives, and so leaves all else as it stands.  Clauses
rest on the model's choices of the log entries 13, 62, 63, 89, 95, 97, 98, 125. -/
def Obligations.PortGainAndLevelCommandsComplete : Prop :=
  -- LP_COMMIT (R39)
  (∀ (s : State) (i : Iface) (w : Word),
    s.goes (.lpCommit i w) (
      let cords := cordsOf (F.LP_COMMIT_CORDS.of w)
      let t : State := (s.wlogNote i F.LP_COMMIT.addr w).commit i 2 cords (lpRules cords)
      t)) ∧
  -- LP_COMMIT_APPLY (R40)
  (∀ (s : State) (cord : Fin 9),
    let c := cord.val
    s.instPending 2 c = true →
    (s.lpChanged c).any s.exchOn = false →
    s.goes (.lpCommitApply cord) ((List.range 16).foldl (fun (t : State) j => t.lpApplied s (16 * c + j)) (s.applyInst 2 c))) ∧
  -- LP_PGA_WRITE (R34)
  (∀ (s : State) (i : Iface) (p : Fin 144) (w : Word),
    s.goes (.lpPgaWrite i p w) (
      let o := lpO p.val
      let s := s.wlogNote i (F.LP_PGA.addr + o) w
      let keep := s.get F.LP_PGA_GAIN_CODE o
      let s := s.fieldWrite (F.LP_PGA.addr + o) w
      if s.bit F.LP_PGA_MODE o then (s.put F.LP_PGA_GAIN_CODE o keep)
      else (s.pgaRequest p.val (F.LP_PGA_GAIN_CODE.of w) false))) ∧
  -- OVERRANGE_WINDOW (R34)
  (∀ (s : State) (p : Fin 144) (n : Fin 65),
    let o := lpO p.val
    4 ≤ n.val →
    s.pgaAuto p.val = true →
    s.goes (.overrangeWindow p n) (
      let s := (s.incSat F.LP_COUNTS_OVERRANGE o).putB F.LP_FLAGS_OVERRANGE o true
      let s := s.raise Ev.LP_OVERRANGE p.val
      let s := s.onPort p.val (fun x => { x with lastOver := s.tick })
      let cur := s.get F.LP_STATUS_GAIN_CODE o
      let t : State := (if s.pgaMin p.val < cur then s.pgaRequest p.val (cur - 1) true else s)
      t)) ∧
  -- PGA_UP_STEP_REQUEST (R34)
  (∀ (s : State) (p : Fin 144) (peak : Int),
    let cur := s.get F.LP_STATUS_GAIN_CODE (lpO p.val)
    s.pgaAuto p.val = true →
    s.upCond p.val peak = true →
    cur < s.get F.LP_PGA_MAX_CODE (lpO p.val) →
    s.goes (.pgaUpStepRequest p peak) ((s.onPort p.val (fun x => { x with lastDown := s.tick })).pgaRequest p.val (cur + 1) true)) ∧
  -- PGA_STEP_EFFECT (R33)
  (∀ (s : State) (p : Fin 144),
    let o := lpO p.val
    ∀ up t, (s.port p.val).step = some (up, t) →
    t ≤ s.tick →
    s.goes (.pgaStepEffect p) (
      let cur := s.get F.LP_STATUS_GAIN_CODE o
      let s := (s.codesNote p.val).put F.LP_STATUS_GAIN_CODE o (if up then cur + 1 else cur - 1)
      let s := s.onPort p.val (fun x => { x with step := none, lastDown := if up then x.lastDown else s.tick })
      let t : State := (s.refUpdate p.val).pgaJudge p.val (s.port p.val).heldAuto
      t)) ∧
  -- PGA_HELD_GRANT (R98)
  (∀ (s : State) (p : Fin 144),
    ∀ u1, (s.port p.val).held = some u1 →
    s.goes (.pgaHeldGrant p) ((s.refUpdate p.val).pgaJudge p.val (s.port p.val).heldAuto)) ∧
  -- PGA_REQUEST_WITHDRAW (R98)
  (∀ (s : State) (p : Fin 144) (peak : Int),
    let x := s.port p.val
    ∀ up, x.held = some up →
    let due := if up then !s.upCond p.val peak else decide (x.lastOver + 24000 * 32 ≤ s.tick)
    s.bit F.LP_PGA_MODE (lpO p.val) = true →
    due = true →
    s.goes (.pgaRequestWithdraw p peak) (s.onPort p.val (fun x => { x with held := none, target := none }))) ∧
  -- WATCH_WINDOW (R46)
  (∀ (s : State) (p : Fin 144) (a : AdcRun),
    let o := lpO p.val
    let inWatch := s.portSt p.val == 1 || (s.portSt p.val == 4 && !s.cordRuns (p.val / 16))
    inWatch = true →
    a.words.length = 64 →
    s.goes (.watchWindow p a) (
      let x := s.port p.val
      let y := bandRun (s.get F.LP_WATCH_BAND_LOW_KHZ) (s.get F.LP_WATCH_BAND_HIGH_KHZ) x.watchZ (a.words.map adcFrac)
      let pow := 2 * meanSq y.1
      let full : Int := 246 - 12 * (s.get F.LP_STATUS_GAIN_CODE o : Int)
      let level := if dbGe pow 2 (40 - full) then min 255 (dbRound pow 2 + full - 40).toNat else 0
      let reached := dbGe pow 2 (40 + (s.get F.LP_WATCH_THRESH o : Int) - full)
      let run := if reached then x.watchRun + 1 else 0
      let kept := x.watchBuf ++ a.words.mapIdx (fun j v => (v, a.last - 32 * (63 - j)))
      let s := (s.put F.LP_STATUS_WATCH_LEVEL o level).onPort p.val (fun x => { x with
        watchRun := run, watchZ := y.2, watchBuf := kept.drop (kept.length - 512) })
      if s.get F.LP_WATCH_WINDOWS o ≤ run && s.bit F.LP_WATCH_WAKE_EN o then
        ((s.cordWake (p.val / 16) true).raise Ev.LP_WAKE p.val)
      else s)) ∧
  -- MON_BLOCK (R48)
  (∀ (s : State) (p : Fin 144) (adc : List (BitVec 14)),
    let o := lpO p.val
    let n := (s.port p.val).monN
    let due := decide ((s.port p.val).txStart + 4096 * (n + 1) ≤ s.tick) && decide (256 * (n + 1) ≤ s.txSamples p.val)
    s.portSt p.val = 3 →
    due = true →
    adc.length = 128 →
    s.goes (.monBlock p adc) (
      let r := s.monRatio p.val n adc
      let ratio := r.1
      let s := (r.2.putI F.LP_STATUS_MON_RATIO o ratio).onPort p.val (fun x => { x with monN := n + 1 })
      let x := s.port p.val
      match x.monRef with
      | none =>
        let sum := x.monSum + ratio
        let s := s.onPort p.val (fun x => { x with monSum := sum })
        if n + 1 < 4 then s
        else ((s.onPort p.val (fun x => { x with monRef := some sum })).monLow p.val sum)
      | some ref =>
        let far := decide ((s.get F.LP_MON_CFG_STEP_DB o * 40 : Nat) < (4 * ratio - ref).natAbs)
        match far, x.monPrev with
        | false, _ => (s.onPort p.val (fun x => { x with monPrev := none }))
        | true, none => (s.onPort p.val (fun x => { x with monPrev := some ratio }))
        | true, some prev =>
          let ref' := 2 * (prev + ratio)
          let s := s.onPort p.val (fun x => { x with monPrev := none, monRef := some ref' })
          let s := (s.putB F.LP_FLAGS_IMP_STEP o true).incSat F.LP_COUNTS_MON_STEPS o
          let s := s.raiseLogged Ev.IMPEDANCE_STEP (4 * p.val) 0x10 (s.setOf p.val)
            (le p.val 2 ++ le (toSigned 16 (quarter ref)) 2 ++ le (toSigned 16 (quarter ref')) 2)
          let t : State := s.monLow p.val ref'
          t))

/-- The commands of transmissions, references, amplifier enables and the mask: each answers, under the conditions named, the next state its rule gives, and so leaves all else as it stands.  Clauses
rest on the model's choices of the log entries 64, 89, 95, 96, 99, 100, 121, 122, 139. -/
def Obligations.PortTransmissionCommandsComplete : Prop :=
  -- TRANSMISSION_START (R37)
  (∀ (s : State) (p : Fin 144),
    let o := lpO p.val
    let x := s.port p.val
    ∀ u1, x.planned = some u1 →
    ∀ en, x.enabledAt = some en →
    s.goes (.transmissionStart p) (
      let s := s.txClean p.val
      let l := s.burstsOn p.val
      let t0 := firstOf l
      let first := firstSample t0 en (s.get F.LP_AEN_CFG_LEAD)
      if l.isEmpty then ((s.onPort p.val (fun x => { x with planned := none })).aenClear p.val)
      else if s.txMay p.val && decide (first ≤ s.tick) then
        let s := if t0 < first then (s.incSat F.LP_AEN_STAT_LATE_COUNT).raise Ev.AEN_LATE p.val else s
        let late := dacFrom t0 s.tick - t0
        let s := if s.txJoins p.val then s else s.pollsLater p.val late
        let tx := s.txFrames p.val l late
        let s := s.put F.LP_STATUS_STATE o 3
        let s := s.onPort p.val (fun x => { x with
          planned := none, tx := tx, txStart := firstOf tx, clearedAt := none, monitor := true, monN := 0, monSum := 0,
          monRef := none, monPrev := none, maskN := 0, maskRun := 0, maskSeen := false, tailDue := none, step := none,
          refCode := s.get F.LP_STATUS_GAIN_CODE o,
          held := if x.heldAuto then none else x.held, target := if x.heldAuto then none else x.target })
        let s := tx.foldl (fun s b => s.onRx (4 * s.leadOf p.val + b.strand) (fun r => { r with txOn := true })) s
        let t : State := (List.range 4).foldl (fun s k => s.rxForceHold (4 * p.val + k)) s
        t
      else s)) ∧
  -- TRANSMISSION_END (R118)
  (∀ (s : State) (p : Fin 144) (limited : Nat),
    let o := lpO p.val
    let x := s.port p.val
    let done := txOver x.tx
    s.portSt p.val = 3 →
    x.tx.isEmpty = false →
    done ≤ s.tick →
    s.goes (.transmissionEnd p limited) (
      let fault := decide (s.txSamples p.val < 100 * limited)
      let s := (s.txFigures p.val).txCount p.val
      let run := if fault then x.driveRun + 1 else 0
      let s := if fault then (s.putB F.LP_FLAGS_DRIVE_FAULT o true).raise Ev.LP_DRIVE_FAULT p.val else s
      let s := s.onPort p.val (fun x => { x with
        driveRun := run, driveInh := x.driveInh || decide (3 ≤ run), tx := [],
        tailDue := some (done + usTicksUp (s.get F.LP_AEN_CFG_TAIL)) })
      let mine := s.pollsOn p.val
      let s := { s with exchs := s.exchs.map (fun (e : Exch) =>
        if mine.contains e then { e with step := if e.step = 0 then 2 else if e.step = 3 then 4 else e.step } else e) }
      let s := mine.foldl (fun (s : State) e => s.ctxInc e.session 0x304 (s.servant e.session)) s
      let acks := (mine.filter (fun (e : Exch) => e.step == 5)).map (·.session)
      let s := acks.foldl (fun s k => s.exchEnd k 1) s
      let t : State := (if s.inhibited p.val then s.aenClear p.val else s)
      t)) ∧
  -- TX_EXIT (R29)
  (∀ (s : State) (p : Fin 144),
    let x := s.port p.val
    ∀ t, x.clearedAt = some t →
    s.portSt p.val = 3 →
    x.tx.isEmpty = true →
    t + 384 ≤ s.tick →
    s.goes (.txExit p) (
      let s := (s.put F.LP_STATUS_STATE (lpO p.val) 2).portFault p.val
      let s := s.onPort p.val (fun x => { x with
        clearedAt := none, monitor := false, txLeft := s.tick, settleEnd := s.tick + 256, lastOver := s.tick,
        lastDown := s.tick, tailDue := none })
      let s := if s.cordRuns (p.val / 16) then s else s.portSleep p.val
      let t : State := (s.refUpdate p.val).pgaJudge p.val false
      t)) ∧
  -- LREF_FAULT (R49)
  (∀ (s : State) (cord : Fin 9) (mv : Int),
    250 < mv.natAbs →
    s.bitAt F.LP_LREF_STAT 0 cord.val = false →
    s.goes (.lrefFault cord mv) (
      let s := (s.putBit F.LP_LREF_STAT 0 cord.val true).raise Ev.LREF_FAULT cord.val
      let t : State := (List.range 16).foldl (fun s j => s.portInhibit (16 * cord.val + j)) s
      t)) ∧
  -- LREF_CLEAR (R49)
  (∀ (s : State) (cord : Fin 9) (mv : Int),
    mv.natAbs < 200 →
    s.bitAt F.LP_LREF_STAT 0 cord.val = true →
    s.goes (.lrefClear cord mv) (
      let s := s.putBit F.LP_LREF_STAT 0 cord.val false
      let t : State := (List.range 16).foldl (fun s j => s.portFault (16 * cord.val + j)) s
      t)) ∧
  -- LP_FLAGS_CLEAR (R49)
  (∀ (s : State) (i : Iface) (p : Fin 144) (w : Word),
    s.goes (.lpFlagsClear i p w) (
      let a := F.LP_FLAGS.addr + lpO p.val
      let s := (s.wlogNote i a w).fieldWrite a w
      if F.LP_FLAGS_DRIVE_FAULT.on w then
        ((s.onPort p.val (fun x => { x with driveInh := false, driveRun := 0 })).portFault p.val)
      else s)) ∧
  -- AEN_SHIFT_REQUEST (R43)
  (∀ (s : State) (p : Fin 144) (on : Bool) (t0 : Nat),
    s.own = true →
    s.goes (.aenShiftRequest p on t0) (
      if !on then (s.aenClear p.val)
      else if s.inhibited p.val || s.portSt p.val == 0 then (s.endAll (s.pollsOn p.val) 9)
      else if s.askDue p.val t0 then
        let s := s.onPort p.val (fun x => { x with planned := some t0 })
        let t : State := { s with aen := { s.aen with want := s.aen.want ||| ((1 : BitVec 144) <<< p.val), waiting := true } }
        t
      else s)) ∧
  -- AEN_SHIFT (R41)
  (∀ (s : State),
    s.own = true →
    s.aen.shifting.isNone = true →
    s.aen.lastEnd ≤ s.tick →
    (s.aen.waiting || s.aen.zeroOwed) = true →
    s.goes .aenShift (s.aenStart)) ∧
  -- AEN_LATCH (R41)
  (∀ (s : State),
    ∀ word t0, s.aen.shifting = some (word, t0) →
    t0 + 576 ≤ s.tick →
    s.goes .aenLatch (
      let s' := (List.range 144).foldl (fun t p => t.aenLatched word p) s
      let s' := (List.range 5).foldl (fun t n =>
        t.setLive (F.LP_AEN_WORD.addr + 4 * n) ((word >>> (32 * n)).setWidth 32)) s'
      let t : State := { s' with aen := { s'.aen with shifting := none, latched := word, lastEnd := t0 + 592 } }
      t)) ∧
  -- AEN_IDLE_SHIFT (R43)
  (∀ (s : State),
    s.own = true →
    s.aen.shifting.isNone = true →
    s.aen.lastEnd + msTicks 1 ≤ s.tick →
    s.goes .aenIdleShift (s.aenStart)) ∧
  -- AEN_TAIL_EXPIRY (R44)
  (∀ (s : State) (p : Fin 144),
    ∀ t, (s.port p.val).tailDue = some t →
    t ≤ s.tick →
    s.goes (.aenTailExpiry p) ((s.aenClear p.val).onPort p.val (fun x => { x with tailDue := none }))) ∧
  -- MASK_BLOCK (R123)
  (∀ (s : State) (p : Fin 144) (b : Nat),
    let o := lpO p.val
    let n := (s.port p.val).maskN
    let from' := (s.port p.val).txStart + 4096 * n
    s.portSt p.val = 3 →
    b = n →
    from' + 4096 ≤ s.tick →
    256 * (n + 1) ≤ s.txSamples p.val →
    s.goes (.maskBlock p b) (
      let worst := if s.bit F.LP_MASK_CFG_EN o then s.maskWorst p.val n else none
      let s := s.onPort p.val (fun x => { x with maskN := n + 1 })
      match worst with
      | none => (s.onPort p.val (fun x => { x with maskRun := 0 }))
      | some (k, ex) =>
        let excess := min ex.toNat 255
        let first := !(s.port p.val).maskSeen
        let s := (s.incSat F.LP_MASK_STAT_BLOCKS o).onPort p.val (fun x => { x with maskRun := x.maskRun + 1, maskSeen := true })
        let s := if first then
            ((s.put F.LP_MASK_STAT_POINT o k).put F.LP_MASK_STAT_EXCESS o excess).raiseLogged Ev.TX_MASK_VIOLATION
              (4 * p.val) 0x11 (s.setOf p.val) (le p.val 2 ++ le k 1 ++ le excess 1)
          else s
        if s.bit F.LP_MASK_CFG_ACTION o && decide (s.get F.LP_MASK_CFG_COUNT o ≤ (s.port p.val).maskRun) then
          (s.maskCut p.val from')
        else s))

/-- The commands of filter chains, coefficients and synchronisation: each answers, under the conditions named, the next state its rule gives, and so leaves all else as it stands.  Clauses
rest on the model's choices of the log entries 4, 12, 13, 65, 67, 92, 95, 101, 102. -/
def Obligations.FilterChainCommandsComplete : Prop :=
  -- CHAIN_OUTPUT (R55)
  (∀ (s : State) (c : Fin 758) (ins : List ChainIn),
    s.goes (.chainOutput c ins) (s.chainStep c.val ins)) ∧
  -- CHAIN_SETTLED (R68)
  (∀ (s : State) (c : Fin 758) (ins : List ChainIn),
    let x := s.chain c.val
    s.bit F.FC_STATUS_SETTLED (fcO c.val) = false →
    x.held = false →
    x.settleN ≤ x.outs →
    s.goes (.chainSettled c ins) (s.chainStep c.val ins)) ∧
  -- FADE_END (R62)
  (∀ (s : State) (c : Fin 758),
    s.goes (.fadeEnd c) (s.fadeEnd c.val)) ∧
  -- FC_SWAP (R63)
  (∀ (s : State) (i : Iface) (c : Fin 758) (w : Word),
    s.goes (.fcSwap i c w) (
      let o := fcO c.val
      let s := s.wlogNote i (F.FC_SWAP.addr + o) w
      if !F.FC_SWAP_GO.on w then s
      else
        let k := s.get F.FC_BANK_STANDBY_SET o
        let fade := F.FC_SWAP_MODE.on w
        let len := F.FC_SWAP_FADE_LEN.of w
        if !s.setValid c.val k || (fade && (decide (len < 16) || decide (4096 < len)))
            || decide ((loadLimit (engineOfChain c.val) : Rat) < s.loadWith c.val k) then
          let s := (s.putB F.FC_FLAGS_SWAP_REFUSED o true).put F.FC_LAST_SWAP_REFUSED 0 c.val
          let t : State := s.raise Ev.FC_SWAP_REFUSED c.val
          t
        else if s.bit F.FC_BANK_PENDING o then (s.swapDefer c.val ⟨k, fade, len⟩)
        else (s.onChain c.val (fun x => { x with swapReq := some ⟨k, fade, len⟩ })))) ∧
  -- SWAP_START (R64)
  (∀ (s : State) (c : Fin 758),
    s.atBoundary c.val = true →
    (s.chain c.val).swapReq.isNone = true →
    s.goes (.swapStart c) (s.swapJudge c.val)) ∧
  -- FC_COMMIT (R75)
  (∀ (s : State) (i : Iface) (w : Word),
    s.goes (.fcCommit i w) (
      let s := s.wlogNote i F.FC_COMMIT.addr w
      let c := F.FC_COMMIT_CHAIN.of w
      if 758 ≤ c then s
      else
        let chains := if F.FC_COMMIT_SCOPE.on w then chainsOf (engineOfChain c) else [c]
        let t : State := s.commit i 3 chains (fcRules chains)
        t)) ∧
  -- FC_COMMIT_APPLY (R75)
  (∀ (s : State) (c : Fin 758),
    s.atBoundary c.val = true →
    s.goes (.fcCommitApply c) ((s.fadeEnd c.val).fcApply c.val)) ∧
  -- COEF_WRITE (R60)
  (∀ (s : State) (i : Iface) (m : Fin 9) (k : BitVec 16) (w : Word),
    s.goes (.coefWrite i m k w) (
      let s := s.wlogNote i (0x400000 + 0x40000 * m.val + 4 * k.toNat) w
      let t : State := s.coefStore m.val k.toNat (w.setWidth 18)
      t)) ∧
  -- FC_AUX_DATA_ACCESS (R78)
  (∀ (s : State) (i : Iface) (wr : Option Word),
    s.goes (.fcAuxDataAccess i wr) (
      let m := if s.bit F.FC_AUX_ADDR_MEM then 10 else 9
      let n := s.get F.FC_AUX_ADDR_WORD
      let s := match wr with
        | some w => (s.wlogNote i F.FC_AUX_DATA.addr w).coefStore m n (w.setWidth 18)
        | none =>
          let v := tget (fun _ => (0 : BitVec 18)) s.coefs (m * 65536 + n)
          { s with reply := tset (fun _ => 0) s.reply i.id (v.setWidth 32) }
      if s.bit F.FC_AUX_ADDR_AUTO_INC then
        (s.put F.FC_AUX_ADDR_WORD 0 (if n + 1 = (if m = 9 then 4096 else 8192) then 0 else n + 1))
      else s)) ∧
  -- FC_SET_DIR_WRITE (R60)
  (∀ (s : State) (i : Iface) (m : Fin 11) (k : Fin 64) (w : Word),
    s.goes (.fcSetDirWrite i m k w) (
      let a := F.FC_SET_DIR.addr + dirO m.val k.val
      let s := s.wlogNote i a w
      if s.setInUse m.val k.val then (s.coefBusy m.val) else (s.fieldWrite a w))) ∧
  -- FC_SYNC_CMD (R73)
  (∀ (s : State) (i : Iface) (w : Word),
    s.goes (.fcSyncCmd i w) (
      let s := s.wlogNote i F.FC_SYNC_CMD.addr w
      let t : State := (List.range 16).foldl (fun s g => if 1 ≤ g && w.getLsbD g then s.syncTrigger g s.tick else s) s
      t)) ∧
  -- SYNC_RESTART (R74)
  (∀ (s : State) (g : Fin 16) (t : Nat),
    ∀ d, s.syncDue.find? (fun d => d.group == g.val && decide (d.due ≤ t)) = some d →
    t ≤ s.tick →
    d.done = false →
    s.goes (.syncRestart g t) (
      if (s.syncMembers g.val).isEmpty then
        let s := { s with syncDue := s.syncDue.erase d }
        let t : State := s.syncShow g.val (s.getTime F.FC_SYNC_TIME_LO (8 * g.val)) d.late
        t
      else
        let s := { s with syncDue := s.syncDue.map (fun x => if x == d then { x with done := true } else x) }
        let t : State := s.syncShow g.val t d.late
        t))

/-- The commands of strand receivers: each answers, under the conditions named, the next state its rule gives, and so leaves all else as it stands.  Clauses
rest on the model's choices of the log entries 2, 12, 13, 66, 90, 95, 103, 104, 106, 107, 108, 109, 123, 124. -/
def Obligations.StrandCommandsComplete : Prop :=
  -- LISTEN_WINDOW_OPEN (R82)
  (∀ (s : State) (r : Fin 608),
    let n := r.val
    (s.rx n).listen = false →
    s.goes (.listenWindowOpen r) (
      match s.windowNow n with
        | none => s
        | some shut =>
          let s := if n < 576 then
              ((s.putB F.MNS_BLANK_STAT_MODE (mnO n) (s.blankBypass n)).blankLatch n).combFresh n
            else s
          let asked := ((s.exchOfRx n).map (fun e => decide (0 < e.blockRounds))).getD false
          let s := s.onRx n (fun x => { x with listen := true, shutAt := some shut, failed := 0, asked := asked })
          let t : State := s.putB F.STR_STATUS_LISTEN (rxO n) true
          t)) ∧
  -- LISTEN_WINDOW_CLOSE (R83)
  (∀ (s : State) (r : Fin 608),
    let n := r.val
    let x := s.rx n
    let early := match x.shutAt with
      | some t => decide (s.tick < t) && (if n < 576 then (s.exchOfRx n).isSome || (s.sweepSlot n s.tick).isSome
          else (s.radioWindow n).isSome)
      | none => false
    x.listen = true →
    early = false →
    s.goes (.listenWindowClose r) (
      let s := s.onRx n (fun x => { x with listen := false, windowShut := min s.tick (x.shutAt.getD s.tick) })
      let s := s.putB F.STR_STATUS_LISTEN (rxO n) false
      if s.bit F.STR_STATUS_REPLAY (rxO n) || x.replayWait.isSome then s else (s.rxShut n))) ∧
  -- HALF_SYMBOL_EVALUATION (R84)
  (∀ (s : State) (r : Fin 608) (t : Nat),
    let n := r.val
    let x := s.rx n
    x.replayWait.isSome = false →
    s.evalDue n t = true →
    s.rxTxStarts n = false →
    ¬(s.rxSt n != 1 && s.rxSt n != 2) →
    s.goes (.halfSymbolEvaluation r t) (
      if s.rxSt n == 1 && s.rxLate n t then ((s.putB F.STR_STATUS_REPLAY (rxO n) false).rxShut n)
      else match s.symAt n 0 t with
        | none => s
        | some o =>
          let s := s.onRx n (fun x => { x with halfAt := t, power := o.power })
          if s.rxSt n = 1 then
            let s := s.onRx n (fun x => { x with pos := t })
            if s.levelGe n o.power (s.thresh n) then
              (((s.incSat F.STR_CNT_DET_DETECT (rxO n)).rxQualify n o.power).refUpdateRx n)
            else s
          else ((s.onRx n (fun x => { x with halfSyms := x.halfSyms + 1 })).agcCorrect n o.power))) ∧
  -- SYMBOL_BOUNDARY (R85)
  (∀ (s : State) (r : Fin 608) (t : Nat),
    let n := r.val
    2 ≤ s.rxSt n →
    s.boundaryAt n t = true →
    s.rxReads n t = true →
    s.frameFull n = false →
    s.rxTxStarts n = false →
    s.goes (.symbolBoundary r t) (
      if s.rxLate n t then ((s.putB F.STR_STATUS_REPLAY (rxO n) false).rxShut n)
      else match s.symAt n 0 t with
        | none => s
        | some o =>
          match s.rxSt n with
          | 2 => ((s.symQualify n o).refUpdateRx n)
          | 3 => ((s.symHunt n o).refUpdateRx n)
          | _ => ((s.symData n o).refUpdateRx n))) ∧
  -- QUALIFY_TIMEOUT (R85)
  (∀ (s : State) (r : Fin 608),
    let n := r.val
    s.rxSt n = 2 →
    s.get F.STR_DET_QUAL_M (rxO n) + 16 ≤ (s.rx n).symbols →
    s.goes (.qualifyTimeout r) (s.rxAfter n)) ∧
  -- QUALIFY_LEVEL_DROP (R85)
  (∀ (s : State) (r : Fin 608),
    let n := r.val
    s.rxSt n = 2 →
    4 ≤ (s.rx n).lowRun →
    s.goes (.qualifyLevelDrop r) (s.rxAfter n)) ∧
  -- STR_SYNC_TIMEOUT (R86)
  (∀ (s : State) (r : Fin 608),
    let n := r.val
    s.rxSt n = 3 →
    s.get F.STR_SYNC_CFG_WINDOW (rxO n) ≤ (s.rx n).symbols →
    s.goes (.strSyncTimeout r) (
      let again := s.ctrlBit n F.STR_CTRL_REPLAY_SYNC
      let s := (s.rxEnd n 3).raise Ev.STR_SYNC_TIMEOUT n
      let t : State := (if again then s.replayAsk n false else s.rxAfter n)
      t)) ∧
  -- LEVEL_LOST (R107)
  (∀ (s : State) (r : Fin 608),
    let n := r.val
    4 ≤ s.rxSt n →
    8 ≤ (s.rx n).lowRun →
    s.goes (.levelLost r) (
      let s := ((s.rxEnd n 7).incSat F.STR_CNT_MISC_LEVEL_LOST (rxO n)).raise Ev.LEVEL_LOST n
      let t : State := (((s.blankLast n).combDrop n).rxAfter n).rxOutcome n 5
      t)) ∧
  -- HEADER_VERDICT (R88)
  (∀ (s : State) (r : Fin 608),
    let n := r.val
    s.rxSt n = 4 →
    88 ≤ (s.frameSoft n 88).length →
    s.rxTxStarts n = false →
    s.goes (.headerVerdict r) (
      let d := hdrDecode (s.frameSoft n 88)
      let members : List Nat := match s.combOf n with
        | some c => (c.members.map (fun m => m.rx)).filter (fun x => s.rxSt x == 4 && (s.rx x).member)
        | none => [n]
      if d.2 && s.hdrFieldsOk n d.1 then (members.foldl (fun s x => (s.setRxSt x 5).pairHeard x) s)
      else
        let s := match s.combOf n with
          | some c => s.combSet c { c with done := true }
          | none => s
        let t : State := members.foldl (fun s x => s.hdrFail x (if d.2 then 4 else 3)) s
        t)) ∧
  -- FRAME_SYMBOLS_DELIVERED (R88)
  (∀ (s : State) (r : Fin 608) (t : Nat),
    let n := r.val
    s.frameFull n = true →
    t = (s.rx n).pos →
    s.rxTxStarts n = false →
    s.goes (.frameSymbolsDelivered r t) (
      let h := s.rxHdr n
      let s := (s.rxEnd n 1).blankLast n
      match s.combOf n with
      | none =>
        let s := s.handOver n [] h (((s.rx n).soft.drop 88).take h.bodyLen) (s.getI F.STR_LAST_LEVEL_SNR (rxO n))
        let t : State := s.rxAfter n
        t
      | some c =>
        if c.done || c.kept.any (fun k => k.1 == n) then (s.rxAfter n)
        else
          let c' : CombS := { c with kept := c.kept ++ [(n, (s.rx n).soft)] }
          let t : State := ((s.combSet c c').combFinish c').rxAfter n
          t)) ∧
  -- REPLAY_START (R100)
  (∀ (s : State) (r : Fin 608),
    let n := r.val
    ∀ cap, (s.rx n).replayWait = some cap →
    s.replayDue n = true →
    s.goes (.replayStart r) (s.replayGo n cap)) ∧
  -- REPLAY_LIVE (R101)
  (∀ (s : State) (r : Fin 608),
    let n := r.val
    s.bit F.STR_STATUS_REPLAY (rxO n) = true →
    2 * s.rxNow n < 2 * (s.rx n).pos + s.symT n →
    s.goes (.replayLive r) (
      let s := (s.putB F.STR_STATUS_REPLAY (rxO n) false).onRx n (fun x => { x with replayCap := false })
      if (s.rx n).listen then (s.refUpdateRx n) else ((s.rxShut n).refUpdateRx n))) ∧
  -- STR_COMMIT (R111)
  (∀ (s : State) (i : Iface) (w : Word),
    s.goes (.strCommit i w) (
      let s := s.wlogNote i F.STR_COMMIT.addr w
      let r := F.STR_COMMIT_RECEIVER.of w
      let sc := F.STR_COMMIT_SCOPE.of w
      if 608 ≤ r ∨ sc = 3 then s else (s.commit i 4 (strScope r sc) (strRules (strScope r sc))))) ∧
  -- STR_COMMIT_APPLY (R111)
  (∀ (s : State) (r : Fin 608),
    s.goes (.strCommitApply r) (s.strTake r.val)) ∧
  -- STR_CNT_CLR (R110)
  (∀ (s : State) (i : Iface) (w : Word),
    s.goes (.strCntClr i w) (
      let s := s.wlogNote i F.STR_CNT_CLR.addr w
      let r := F.STR_CNT_CLR_RECEIVER.of w
      if F.STR_CNT_CLR_ALL.on w then
        let s := { s with regs := s.regs.filter (fun e => !rxCounterAddr none e.1) }
        let t : State := s.put F.STR_VIT_STAT_QUEUED_MAX 0 (s.get F.STR_VIT_STAT_QUEUED)
        t
      else if 608 ≤ r then s
      else { s with regs := s.regs.filter (fun e => !rxCounterAddr (some r) e.1) }))

/-- The commands of frame decoding and the mains: each answers, under the conditions named, the next state its rule gives, and so leaves all else as it stands.  Clauses
rest on the model's choices of the log entries 2, 5, 20, 23, 24, 25, 68, 70, 73, 83, 90, 92, 95, 110, 112, 116, 126, 128, 139. -/
def Obligations.FrameAndMainsCommandsComplete : Prop :=
  -- DEINTERLEAVE_DONE (R139)
  (∀ (s : State) (r : Fin 608),
    ∀ b0, s.delivered.find? (fun b => b.rx == r.val) = some b0 →
    s.goes (.deinterleaveDone r) (
      let s := { s with delivered := s.delivered.erase b0 }
      if s.blocksLate b0 then s
      else
      let counts := b0.units.map (fun u => unitCount b0.hdr u.2)
      let e := counts.foldl (fun (a : Nat) c => a + c.1) 0
      let n := counts.foldl (fun (a : Nat) c => a + c.2) 0
      let b := { b0 with prio := s.bodyPrio b0.rx, tick := s.tick, erasedPct := if n = 0 then 0 else 100 * e / n }
      let put := fun (s : State) (u : Option Nat × List (Int × Nat)) =>
        { s with bodies := s.bodies ++ [{ b with blockNo := u.1, vals := unitVals b.hdr u.2 }] }
      if !b.hdr.block then
        if unitErased b.hdr b.vals then ((s.put F.STR_FRM_LAST2_BLOCKS_GOOD (rxO b.rx) 0).frameBad b 5)
        else (((put s (none, b.vals)).vitShow).put F.STR_FRM_LAST2_BLOCKS_GOOD (rxO b.rx) 0)
      else
        let clash := match s.blocksOf b.rx with
          | some k => k.hdr.length != b.hdr.length || k.hdr.coding != b.hdr.coding || k.hdr.version != b.hdr.version
          | none => false
        if clash then (s.frameBad b 4)
        else
          let s := match s.blocksOf b.rx with
            | some _ => s
            | none => { s with blockStore := s.blockStore ++ [(⟨b.rx, b.hdr, []⟩ : BlockStore)] }
          let good := ((s.blocksOf b.rx).map (fun k => k.blocks.map (·.1))).getD []
          let need := b.units.filter (fun u => !good.contains (u.1.getD 8) && !unitErased b.hdr u.2)
          let s := (((need.foldl put s).vitShow).showHdr b.rx b.hdr).blocksShow b.rx
          let t : State := s.blocksEnd b
          t)) ∧
  -- VITERBI_DECODE_START (R23)
  (∀ (s : State) (u : Fin 2),
    ¬((tget (fun _ => none) s.viterbi u.val).isSome) →
    s.vitMarked u.val = false →
    s.goes (.viterbiDecodeStart u) (
      match nextBody s.bodies with
        | none => s
        | some b =>
          { s with bodies := s.bodies.erase b, viterbi := tset (fun _ => none) s.viterbi u.val (some b) }.vitShow)) ∧
  -- VITERBI_DECODE_DONE (R141)
  (∀ (s : State) (u : Fin 2),
    ∀ b, tget (fun _ => none) s.viterbi u.val = some b →
    s.goes (.viterbiDecodeDone u) (
      let s := { s with viterbi := tset (fun _ => none) s.viterbi u.val none }.vitShow
      let bits := viterbi b.vals
      match b.blockNo with
      | none =>
        let mpdu := bytesOfBits bits b.hdr.length
        let t : State := (s.snoop 2 b.rx mpdu).judge b mpdu
        t
      | some j =>
        let s := if blockGood b bits then
            let data := bytesOfBits bits (blockLen b.hdr.length)
            ({ s with blockStore := s.blockStore.map (fun (k : BlockStore) =>
              if (s.blockPeers b.rx).contains k.rx ∧ !k.blocks.any (fun x => x.1 == j) then
                { k with blocks := k.blocks ++ [(j, data)] } else k) }).blocksShow b.rx
          else s
        let t : State := s.blocksEnd b
        t)) ∧
  -- CCM_VERIFY_DONE (R322)
  (∀ (s : State) (mismatch : Bool),
    s.workUp 1 = true →
    ∀ w, s.macNext = some w →
    s.goes (.ccmVerifyDone mismatch) (
      if mismatch then
        let r := s.cipherFault w.tries
        if r.2 then r.1
        else { r.1 with macWait := r.1.macWait.map (fun x => if x = w then { x with tries := x.tries + 1 } else x) }
      else
        let s := { s with macWait := s.macWait.erase w, cip := { s.cip with flight := 0 } }
        let m := macOf w.mpdu
        let b := w.body
        match s.rxEpoch m.src m with
        | none => ((s.incSat F.CIP_CNT_B_EPOCH_MISS).micBad b)
        | some (epoch, prov) =>
          let t := s.rxTag m epoch prov
          let key := s.keyOf t
          let s := (s.keyUse t).agentTouch m.src
          let rt := if m.routed then (match rtOf (payloadOf w.mpdu) with | some r => r.len | none => 0) else 0
          let data := (payloadOf w.mpdu).drop rt
          let tag := (w.mpdu.drop (w.mpdu.length - 12)).take 8
          let nonce := frameNonce m.src m.counter epoch (if m.dir then 1 else 0)
          let r := ccmDec key nonce (w.mpdu.take 10) data tag
          if !r.2 then
            (((s.incSat F.CIP_CNT_A_MIC_FAIL).raise Ev.AUTH_FAIL m.src).micBad b)
          else
            let s := s.verdict b (if w.fcsOk then 1 else 2)
            let t : State := s.accepted ⟨b, w.mpdu, r.1, m.src, 0, 0, !w.fcsOk, epoch, prov⟩
            t)) ∧
  -- METER_PHASE_REPORT (R168)
  (∀ (s : State),
    s.goes .meterPhaseReport (
      match s.phaseReps.find? (fun e => e.judged.isNone && s.phaseReady e) with
      | some e =>
        let r := match e.rep with
          | .delay d start => s.phaseOf (s.setOf e.port) d start (e.at_ + msTicks 100)
          | .triple a b c => s.phaseTriple e.port [a, b, c]
        let s := ((s.put F.MNS_PHASE_LAST_SESSION 0 e.session).put F.MNS_PHASE_LAST_RESULT 0 r.result).put
          F.MNS_PHASE_LAST_CONF 0 r.conf
        let t : State := (s.putI F.MNS_PHASE_LAST_DELTA 0 r.delta).phaseCount e r
        t
      | none =>
        match s.phaseReps.find? (fun e => e.judged.isSome && (s.leaseTry e.session (plannerOf (e.port / 16))).2) with
        | none => s
        | some e =>
          let r := e.judged.getD (0, 0)
          let t : State := s.phaseCount e ⟨r.1, r.2, 0⟩
          t)) ∧
  -- MAINS_COAST_TIMEOUT (R155)
  (∀ (s : State) (a : Fin 2),
    let o := setO a.val
    let p := s.get F.MNS_PERIOD_TICKS o
    ∀ z, (s.mset a.val).prevZ = some z →
    s.get F.MNS_SET_STAT_STATE o = 1 →
    2 * z + 3 * p ≤ 2 * s.tick →
    s.goes (.mainsCoastTimeout a) ((s.onSet a.val (fun m => { m with cycleZ := z + (s.tick - z) / p * p, cycleP := p })).mnsCoast a.val)) ∧
  -- PHASE_ABSENT (R154)
  (∀ (s : State) (a : Fin 2) (ph : Fin 3),
    let o := setO a.val
    let p0 := s.get F.MNS_PERIOD_TICKS o
    let p := if p0 = 0 then 853333 else p0
    ∀ t, (s.mset a.val).lastX.getD ph.val none = some t →
    s.bitAt F.MNS_SET_STAT o (2 + ph.val) = true →
    t + 3 * p ≤ s.tick →
    s.goes (.phaseAbsent a ph) (
      let s := (s.putBit F.MNS_SET_STAT o (2 + ph.val) false).put F.MNS_SET_STAT_ROTATION o 0
      let t : State := s.onSet a.val (fun m => { m with lastRot := 0 })
      t)) ∧
  -- PREDICTED_CYCLE_START (R156)
  (∀ (s : State) (a : Fin 2),
    let o := setO a.val
    let p := s.get F.MNS_PERIOD_TICKS o
    ∀ z, (s.mset a.val).prevZ = some z →
    let t := nextPredicted z p (s.mset a.val).cycleZ
    s.get F.MNS_SET_STAT_STATE o = 2 →
    0 < p →
    t ≤ s.tick →
    s.goes (.predictedCycleStart a) ((s.onSet a.val (fun m => { m with cycleZ := t, cycleP := p })).incSat F.MNS_SET_STAT_COAST_CYCLES o)) ∧
  -- BIN_END (R159)
  (∀ (s : State) (p : Fin 144) (b : Fin 128),
    s.goes (.binEnd p b) (
      let a := s.setOf p.val
      if s.get F.MNS_SET_STAT_STATE (setO a) ≠ 1 then (s.setAcc p.val { s.acc p.val with n := 0, sum := 0, impulsive := false })
      else
        let x := s.acc p.val
        let k := mapKey p.val b.val
        let m := s.mapBin p.val b.val
        let store := fun (s : State) (m : MapBin) => { s with maps := tset (fun _ => MapBin.init) s.maps k m }
        if x.n = 0 ∨ x.bin ≠ b.val then (store s { m with age := min 4095 (m.age + 1) })
        else
          let s := store s (m.update (s.get F.MNS_MAP_CFG_TAU_LOG2) (x.sum / x.n) x.impulsive)
          let cyc := (s.mset a).cycleZ
          let s := if x.cyc = cyc then s else s.incSat F.MNS_PORT_STAT_CYCLES (mnO p.val)
          let t : State := s.setAcc p.val ⟨b.val, 0, 0, false, cyc⟩
          t)) ∧
  -- MAP_WINDOW (R158)
  (∀ (s : State) (p : Fin 144) (a : AdcRun),
    let n := p.val
    let st := s.portSt n
    a.words.length = 64 →
    (st == 1 || st == 2 || st == 4) = true →
    s.goes (.mapWindow p a) (
      let first := a.last - 32 * 63
      let z := a.words.mapIdx (fun j (v : BitVec 14) =>
        (((s.portSample n ⟨v.setWidth 18 <<< 4, 0, true, first + 32 * j⟩).re.toInt : Rat)) / 2 ^ 17)
      let y := bandRun (s.get F.LP_WATCH_BAND_LOW_KHZ) (s.get F.LP_WATCH_BAND_HIGH_KHZ) (s.port n).mapZ z
      let used := s.mapUses n first a.last
      let s := s.onPort n (fun x => { x with mapZ := y.2 })
      let peak := y.1.foldl (fun (m : Rat) v => max m (v * v)) 0
      let t : State := (if used then s.mapTake n (a.last - 32 * 31) (s.codesAt n a.last).2 (2 * meanSq y.1) (2 * peak) else s)
      t)) ∧
  -- MNS_PORT_CLEAR (R162)
  (∀ (s : State) (i : Iface) (p : Fin 144) (w : Word),
    s.goes (.mnsPortClear i p w) (
      let a := F.MNS_PORT_CTL.addr + mnO p.val
      let s := (s.wlogNote i a w).fieldWrite a w
      let t : State := (if F.MNS_PORT_CTL_CLEAR.on w then s.mapClear p.val else s)
      t)) ∧
  -- MNS_COMMIT (R180)
  (∀ (s : State) (i : Iface) (w : Word),
    s.goes (.mnsCommit i w) (
      let cords := cordsOf (F.MNS_COMMIT_CORDS.of w)
      let insts := cords.flatMap (fun c => (List.range 16).map (fun g => 16 * c + g))
      let t : State := (s.wlogNote i F.MNS_COMMIT.addr w).commit i 5 insts (mnsRules cords)
      t)) ∧
  -- MNS_COMMIT_APPLY (R180)
  (∀ (s : State) (c : Fin 9) (g : Fin 16),
    let n := 16 * c.val + g.val
    let a := F.MNS_COMB_GRP.addr + mnO n
    s.instPending 5 n = true →
    let mem := wordMembers c.val (s.live a) ++ wordMembers c.val (s.after (s.pendingCells 5) a)
    mem.any s.frozen = false →
    s.goes (.mnsCommitApply c g) (s.applyInst 5 n))

/-- The commands of the planner's rounds, reads, polls and sweeps: each answers, under the conditions named, the next state its rule gives, and so leaves all else as it stands.  Clauses
rest on the model's choices of the log entries 15, 22, 25, 26, 27, 28, 29, 69, 70, 71, 105, 113, 114, 127, 130, 131, 132. -/
def Obligations.PlannerRoundCommandsComplete : Prop :=
  -- ROUND_FIX (R193)
  (∀ (s : State) (cord : Fin 9) (members : List (BitVec 16 × Fin 6)),
    s.goes (.roundFix cord members) (
      let c := cord.val
      let s := (List.range 9).foldl (fun s k => if s.instPending 6 k then s.applyInst 6 k else s) s
      let reqs := members.filterMap (fun m => s.planQ.find? (fun q => q.session == m.1.toNat && q.cls == m.2.val))
      let s := reqs.foldl (fun s q => s.pinReport q.session) s
      let ms := (reqs.map s.memberOf).foldl (fun (l : List Member) m => rankIn m l) []
      let others := (s.planQ.filter (fun q => !reqs.contains q && s.planCan c q)).map s.memberOf
      let better := others.any (fun x => ms.any (fun m =>
          x.slot == m.slot && (s.roundPorts x).any (s.roundPorts m).contains && x.before m))
        || ms.any (fun m => decide (4 < m.req.cls) && m.ports.any (fun p => s.sweepCan c p m.slot))
      let fits := reqs.length == members.length && decide (1 ≤ ms.length) && decide (ms.length ≤ 4)
        && decide ((ms.map (·.slot)).Nodup) && decide ((ms.map (·.req.session)).Nodup)
        && ms.all (fun m => s.planCan c m.req && (s.roundPorts m).all s.portFree) && !s.modesWait (ms.flatMap s.memberModes)
      let cold := (ms.map (fun m => m.req.session)).filter (fun k => !s.cached k)
      if !s.cordPlans c || !fits || better then s
      else if !cold.isEmpty then (cold.foldl (fun (s : State) k => s.prefetch k) s)
      else match s.roundTimes ms with
        | none => s
        | some (e, t0) => (s.roundStart c ms e t0))) ∧
  -- ROUND_DELAYED (R193)
  (∀ (s : State) (cord : Fin 9),
    let waits := fun (ports : List Nat) (t : Nat) => (ports.flatMap s.withTriple).any (fun p => s.instPending 4 (4 * p + t))
    let late := fun (r : Round) =>
      r.cord == cord.val && decide (r.t0 ≤ s.tick + 3840)
        && (s.exchs.any (fun e => e.round == r.num && e.step == 0 && waits e.ports e.slot)
          || s.sweeps.any (fun w => w.round == r.num && decide (s.tick < w.e) && waits w.ports w.slot))
    ∀ r, s.rounds.find? late = some r →
    s.goes (.roundDelayed cord) (
      let xs := s.exchs.filter (fun e => e.round == r.num)
      let rates := xs.map (fun (e : Exch) => e.txMode.rate)
        ++ (s.sweeps.filter (fun w => w.round == r.num)).map (fun _ => s.joinMode.rate)
      let d := rates.foldl (fun (n : Nat) i => max n (symTicks true i)) 0
      let s := { s with
        rounds := s.rounds.map (fun (x : Round) =>
          if x.num = r.num then { x with t0 := x.t0 + d, e := x.e + d, start := x.start + d } else x),
        exchs := s.exchs.map (fun (e : Exch) =>
          if e.round = r.num then { e with openAt := e.openAt + d, closeAt := e.closeAt + d, pollS := e.pollS + d } else e),
        sweeps := s.sweeps.map (fun (w : Sweep) => if w.round = r.num then { w with e := w.e + d, ends := w.ends + d } else w) }
      let t : State := s.raise Ev.ROUND_DELAYED ((xs.head?.map (fun (e : Exch) => e.session)).getD 0xFFFF)
      t)) ∧
  -- LATER_FRAMES_SEND (R192)
  (∀ (s : State) (cord : Fin 9),
    let ready := fun (r : Round) =>
      let xs := s.exchs.filter (fun e => e.round == r.num)
      r.cord == cord.val && !xs.isEmpty && xs.all (fun e => e.step == 6 || e.step == 7)
    ∀ r, s.rounds.find? ready = some r →
    let xs := s.exchs.filter (fun e => e.round == r.num)
    let len := fun (e : Exch) => s.frameTicks ((e.strands).headD 0) e.txMode (s.laterFrame e).length
    let longest := xs.foldl (fun (n : Nat) e => max n (len e)) 0
    let t0 := s.tick + msTicks 2
    let en := t0 + longest
    let guard := usTicks (100 * s.get F.PLN_TIMING_TA_GUARD)
    let next := fun (e : Exch) =>
      let turn := s.ctxNum e.session 0x04C 4
      let q := (e.strands).headD 0
      let d := e.mode.ticks true (s.preBits q) + e.mode.ticks true (s.syncLen q)
      if e.step = 6 then
        { e with step := 3, tx := s.laterFrame e, blockRounds := e.blockRounds + 1, openAt := en + turn - guard,
                 closeAt := en + turn + d + guard }
      else { e with step := 5, tx := s.laterFrame e }
    let clear := xs.all (fun e =>
      let x := next e
      x.step != 3 || x.strands.all (fun q => s.winClear r.ports q x.openAt x.closeAt))
    clear = true →
    s.goes (.laterFramesSend cord) (
      { xs.foldl (fun (s : State) e => s.agentTouch e.session) s with
        exchs := s.exchs.map (fun e => if e.round = r.num then next e else e),
        rounds := s.rounds.map (fun x => if x.num = r.num then { x with t0 := t0, e := en } else x) })) ∧
  -- READ_DUE (R189)
  (∀ (s : State) (sess : BitVec 16),
    let k := sess.toNat
    let due := s.ctxNum k 0x054 8
    s.lineActive k = true →
    s.reach k ≠ 2 →
    due ≤ s.tick →
    s.readOn k = false →
    s.goes (.readDue sess) (s.planAdd k (if (s.slot k).prio then 2 else 3) 0 due)) ∧
  -- READ_OVERDUE (R189)
  (∀ (s : State) (sess : BitVec 16),
    let k := sess.toNat
    let h := s.servant k
    let late := fun (q : PReq) => q.session == k && (q.cls == 2 || q.cls == 3) && !q.missed
      && decide (q.due + s.intervalOf k ≤ s.tick)
    s.planQ.any late = true →
    s.goes (.readOverdue sess) (
      let l := s.leaseTry k h
      if !l.2 then (s.leaseAsk k h)
      else
        let s := { l.1 with planQ := s.planQ.map (fun q => if late q then { q with missed := true } else q) }
        let n := min 255 (s.ctxNum k 0x04A 1 + 1)
        let s := s.ctxPut k 0x04A 1 n h
        let s : State := if s.overdue.contains k then s else { s with overdue := s.overdue ++ [k] }.raise Ev.READ_OVERDUE k
        let t : State := (if s.lostNow k n then s.goLost k h else s)
        t)) ∧
  -- PLAN_OVERLOAD (R214)
  (∀ (s : State) (cord : Fin 9),
    s.goes (.planOverload cord) (
      let iv := sTicks (60 * s.get F.PLN_GRP_A_INTERVAL)
      let old := s.planQ.filter (fun q => (q.cls == 2 || q.cls == 3) && s.cordOf q.session == cord.val
        && decide (q.due + iv < s.tick))
      match old with
      | [] => { s with overload := s.overload.filter (· != cord.val) }
      | q :: t =>
        if s.overload.contains cord.val then s
        else
          let k := (t.foldl (fun (b : PReq) x => if x.due < b.due then x else b) q).session
          let t : State := { s with overload := s.overload ++ [cord.val] }.raise Ev.PLAN_OVERLOAD k
          t)) ∧
  -- UNREACHABLE_POLL_DUE (R204)
  (∀ (s : State) (sess : BitVec 16),
    let k := sess.toNat
    let last := tget (fun _ => 0) s.unrPoll k / 16
    s.lineActive k = true →
    s.reach k = 2 →
    s.readOn k = false →
    (last == 0 || decide (last + sTicks (s.get F.PLN_DISC_PERIOD) ≤ s.tick)) = true →
    s.goes (.unreachablePollDue sess) (s.planAdd k 3 0 s.tick)) ∧
  -- DISCOVERY_SWEEP_DUE (R205)
  (∀ (s : State) (cord : Fin 9) (slot : Fin 4) (mask : BitVec 16),
    let c := cord.val
    let t := slot.val
    let ports := ((List.range 16).filter (fun j => mask.getLsbD j)).map (16 * c + ·)
    let all := (ports.flatMap s.withTriple).eraseDups
    let modes := all.map (fun p => (4 * p + t, s.joinMode, s.joinMode))
    let before := s.planQ.any (fun q => decide (q.cls < 4) && s.planCan c q
      && (let x := s.memberOf q; x.slot == t && (s.roundPorts x).any all.contains))
    s.cordPlans c = true →
    ports.isEmpty = false →
    ports.all (fun p => s.sweepCan c p t) = true →
    before = false →
    s.modesWait modes = false →
    let m := s.joinMode
    let r0 := 4 * ports.headD 0 + t
    let guard := usTicks (100 * s.get F.PLN_TIMING_TA_GUARD)
    let gap := usTicks (100 * s.get F.PLN_TIMING_GAP)
    let free := all.foldl (fun (n : Nat) p => max n (tget (fun _ => 0) s.roundEnd p + gap)) 0
    let t0 := max (s.tick + msTicks 2) free
    let e := t0 + s.frameTicks r0 m 20
    let join := s.frameTicks r0 m 28 + 2 * guard
    let slotLen := (join + msTicks 1 - 1) / msTicks 1 * msTicks 1
    let n0 := tget (fun _ => 0) s.sweepSize (sweepKey t ports)
    let n := if n0 = 0 then s.get F.PLN_DISC_SLOTS_MIN else n0
    let num := (s.sweepNum + 1) % 65536
    let rn := s.roundNum + 1
    let w : Sweep := ⟨c, t, ports, num, n, [], [], [], e, slotLen, e + msTicks 10 + n * slotLen, rn⟩
    ports.all (fun p => s.winClear all (4 * p + t) (e + msTicks 10 : Nat) w.ends) = true →
    s.goes (.discoverySweepDue cord slot mask) (
      let s := { s with
        sweepNum := num, sweeps := s.sweeps ++ [w], roundNum := rn, rounds := s.rounds ++ [(⟨rn, c, all, t0, e, t0⟩ : Round)] }
      let t : State := s.commitModes modes
      t)) ∧
  -- PHASE_POLL_DUE (R211)
  (∀ (s : State) (sess : BitVec 16),
    let k := sess.toNat
    let iv := s.get F.PLN_PHASE_INTERVAL
    let last := tget (fun _ => 0) s.phaseAt k
    s.lineActive k = true →
    s.reach k ≠ 2 →
    iv ≠ 0 →
    s.ctxNum k 0x080 1 / 16 % 4 < 3 →
    last + sTicks (3600 * iv) ≤ s.tick →
    s.planQ.any (fun q => q.session == k && q.cls == 5) = false →
    s.goes (.phasePollDue sess) ({ s with phaseAt := tset (fun _ => 0) s.phaseAt k s.tick }.planAdd k 5 2 s.tick)) ∧
  -- SWEEP_END (R206)
  (∀ (s : State) (cord : Fin 9),
    ∀ w, s.sweeps.find? (fun w => w.cord == cord.val && decide (w.ends ≤ s.tick)) = some w →
    s.roleWaits assocHolder = false →
    s.goes (.sweepEnd cord) (
      let collided := (w.used.filter (fun j => !w.good.contains j)).length
      let mx := s.get F.PLN_DISC_SLOTS_MAX
      let grow := decide (w.slots ≤ 4 * collided)
      let n := if grow then min mx (2 * w.slots)
        else if 10 * w.used.length < w.slots then max (s.get F.PLN_DISC_SLOTS_MIN) (w.slots / 2) else w.slots
      let s := s.raiseIf (grow && decide (mx ≤ w.slots)) Ev.DISC_SLOTS_MAX 0xFFFF
      let s := { s with
        sweeps := s.sweeps.erase w, sweepSize := tset (fun _ => 0) s.sweepSize (sweepKey w.slot w.ports) n,
        sweepAt := w.ports.foldl (fun t p => tset (fun _ => 0) t (4 * p + w.slot) s.tick) s.sweepAt }
      let s := s.lineUsed w.cord 4 w.ports w.round
      let t : State := (w.joins.foldl (fun s j => s.joinAnswer w j) s).roundOver w.round
      t)) ∧
  -- ASSOC_REFUSE_HOLD_END (R207)
  (∀ (s : State),
    s.goes .assocRefuseHoldEnd ({ s with refused := s.refused.filter (fun x => decide (s.tick < x.2)) })) ∧
  -- ASSIGN_TRIES_EXHAUSTED (R208)
  (∀ (s : State) (sess : BitVec 16),
    let k := sess.toNat
    ∀ a, s.assocs.find? (fun a => a.session == k) = some a →
    let busy := s.exchs.any (fun e => e.session == k) || s.planQ.any (fun q => q.session == k && q.request == 7)
    busy = false →
    s.get F.PLN_ASSOC_ASSIGN_TRIES ≤ a.tries →
    s.goes (.assignTriesExhausted sess) (
      let s := { s with assocs := s.assocs.filter (fun x => x.session != k) }
      let t : State := (if a.opened then s.slotFree k assocHolder else s)
      t))

/-- The commands of the planner's pins and commits: each answers, under the conditions named, the next state its rule gives, and so leaves all else as it stands.  Clauses
rest on the model's choices of the log entries 15, 72, 73, 129. -/
def Obligations.PlannerPinAndCommitCommandsComplete : Prop :=
  -- PLN_PIN_SET (R209)
  (∀ (s : State) (i : Iface) (w : Word),
    s.goes (.plnPinSet i w) (
      let s := s.wlogNote i F.PLN_PIN_CMD.addr w
      let kinds := F.PLN_PIN_CMD_SET.of w
      if kinds = 0 then s
      else (s.pinStart ⟨s.get F.PLN_PIN_SESSION_SESSION, false, kinds, s.live F.PLN_PIN_PLACE.addr, s.live F.PLN_PIN_MODE.addr⟩))) ∧
  -- PLN_PIN_CLEAR_ALL (R213)
  (∀ (s : State) (i : Iface) (w : Word),
    s.goes (.plnPinClearAll i w) (
      let s := s.wlogNote i F.PLN_PIN_CMD.addr w
      if F.PLN_PIN_CMD_CLEAR_ALL.on w then (s.pinStart ⟨s.get F.PLN_PIN_SESSION_SESSION, true, 0, 0, 0⟩) else s)) ∧
  -- PLN_PIN_READ (R213)
  (∀ (s : State) (i : Iface) (w : Word),
    s.goes (.plnPinRead i w) (
      let s := s.wlogNote i F.PLN_PIN_CMD.addr w
      if !F.PLN_PIN_CMD_READ.on w then s
      else
        let k := s.get F.PLN_PIN_SESSION_SESSION
        let mask := (s.portsOf k).foldl (fun (m : Nat) p => m ||| 2 ^ (p % 16)) 0
        let pl := s.ctxNum k 0x041 1
        let s := ((s.put F.PLN_PIN_PLACE_PORT_MASK 0 mask).put F.PLN_PIN_PLACE_CORD 0 (s.cordOf k)).put F.PLN_PIN_PLACE_SLOT 0
          (pl / 16 % 4)
        let m := modeOf (s.ctxNum k 0x046 1)
        let s := ((s.put F.PLN_PIN_MODE_RATE 0 m.rate).put F.PLN_PIN_MODE_LEVELS 0 m.levels).put F.PLN_PIN_MODE_CODING 0 m.coding
        let s := (s.put F.PLN_PIN_MODE_WIN_FIRST 0 (s.ctxNum k 0x050 1 % 128)).put F.PLN_PIN_MODE_WIN_LAST 0 (s.ctxNum k 0x051 1 % 128)
        let t : State := s.pinShow k
        t)) ∧
  -- PLN_COMMIT_GROUPS (R212)
  (∀ (s : State) (i : Iface) (w : Word),
    s.goes (.plnCommitGroups i w) (s.plnCommit i w)) ∧
  -- PLN_COMMIT_RATE (R212)
  (∀ (s : State) (i : Iface) (w : Word),
    s.goes (.plnCommitRate i w) (s.plnCommit i w)) ∧
  -- PLN_COMMIT_LIMITS (R212)
  (∀ (s : State) (i : Iface) (w : Word),
    s.goes (.plnCommitLimits i w) (s.plnCommit i w)) ∧
  -- PLN_COMMIT_APPLY (R212)
  (∀ (s : State),
    s.goes .plnCommitApply ((List.range 9).foldl (fun s k => if s.instPending 6 k then s.applyInst 6 k else s) s)) ∧
  -- PLN_LIMITS_APPLY (R212)
  (∀ (s : State),
    let radio := (List.range 32).any (fun n => s.frozen (576 + n) || (s.rx (576 + n)).txOn)
    s.instPending 6 9 = true →
    s.rounds.isEmpty = true →
    radio = false →
    s.goes .plnLimitsApply (s.applyInst 6 9))

/-- The commands of session commands and leases: each answers, under the conditions named, the next state its rule gives, and so leaves all else as it stands.  Clauses
rest on the model's choices of the log entries 11, 21, 59, 75, 137, 138, 140, 141, 142, 146. -/
def Obligations.SessionCommandAndLeaseCommandsComplete : Prop :=
  -- SES_CMD_DELETE (R218)
  (∀ (s : State) (i : Iface) (w : Word),
    s.goes (.sesCmdDelete i w) (s.sesWrite i w 1)) ∧
  -- SES_CMD_SET_PRIO (R218)
  (∀ (s : State) (i : Iface) (w : Word),
    s.goes (.sesCmdSetPrio i w) (s.sesWrite i w 2)) ∧
  -- SES_CMD_CLEAR_PRIO (R218)
  (∀ (s : State) (i : Iface) (w : Word),
    s.goes (.sesCmdClearPrio i w) (s.sesWrite i w 3)) ∧
  -- SES_CMD_READ (R218)
  (∀ (s : State) (i : Iface) (w : Word),
    s.goes (.sesCmdRead i w) (s.sesWrite i w 4)) ∧
  -- SES_CMD_WRITE (R218)
  (∀ (s : State) (i : Iface) (w : Word),
    s.goes (.sesCmdWrite i w) (s.sesWrite i w 5)) ∧
  -- SES_CMD_FLUSH (R218)
  (∀ (s : State) (i : Iface) (w : Word),
    s.goes (.sesCmdFlush i w) (s.sesWrite i w 6)) ∧
  -- SES_CMD_RESTORE (R218)
  (∀ (s : State) (i : Iface) (w : Word),
    s.goes (.sesCmdRestore i w) (s.sesWrite i w 7)) ∧
  -- SES_CMD_RESTORE_END (R218)
  (∀ (s : State) (i : Iface) (w : Word),
    s.goes (.sesCmdRestoreEnd i w) (s.sesWrite i w 8)) ∧
  -- LEASE_REQUEST (R232)
  (∀ (s : State) (sess : BitVec 16) (holder : Fin 25),
    let k := sess.toNat
    s.hasCtx k = true →
    holder.val ≠ 4 →
    holder.val ≠ 5 →
    s.goes (.leaseRequest sess holder) ((s.leaseAsk k holder.val).serve)) ∧
  -- LEASE_RELEASE (R232)
  (∀ (s : State) (sess : BitVec 16) (id : BitVec 16) (holder : Fin 25),
    s.leaseIs sess.toNat id.toNat holder.val = true →
    s.goes (.leaseRelease sess id holder) ((s.leaseEnd sess.toNat).serve)) ∧
  -- LEASE_RENEW (R232)
  (∀ (s : State) (sess : BitVec 16) (id : BitVec 16) (holder : Fin 25),
    s.leaseIs sess.toNat id.toNat holder.val = true →
    s.goes (.leaseRenew sess id holder) (s.leaseTouch sess.toNat)) ∧
  -- LEASE_EXPIRY (R234)
  (∀ (s : State) (sess : BitVec 16),
    let k := sess.toNat
    ∀ l, s.leaseOf k = some l →
    let queued := s.jq.any (fun u => u.session == k && u.lease == some l.id)
    l.expires ≤ s.tick →
    queued = false →
    s.releaseWaits k = false →
    s.goes (.leaseExpiry sess) (((s.revoke k).exchEnd k 5).serve)) ∧
  -- LEASE_WAIT_TIMEOUT (R233)
  (∀ (s : State) (sess : BitVec 16) (holder : Fin 25),
    let k := sess.toNat
    ∀ q, s.leaseQ.find? (fun q => q.session == k && q.holder == holder.val) = some q →
    q.since + msTicks (s.get F.SES_LEASE_CFG_WAIT_MAX) ≤ s.tick →
    s.goes (.leaseWaitTimeout sess holder) (
      let s := ({ s with leaseQ := s.leaseQ.erase q }.incSat F.SES_LEASE_CNT_REFUSED).raise Ev.LEASE_REFUSED holder.val
      let t : State := (s.leaseRefused k holder.val).serve
      t))

/-- The commands of contexts, the journal, the spool and credits: each answers, under the conditions named, the next state its rule gives, and so leaves all else as it stands.  Clauses
rest on the model's choices of the log entries 21, 30, 69, 74, 75, 76, 138, 145, 146. -/
def Obligations.ContextJournalAndSpoolCommandsComplete : Prop :=
  -- CONTEXT_PREFETCH (R229)
  (∀ (s : State) (sess : BitVec 16),
    s.hasCtx sess.toNat = true →
    s.goes (.contextPrefetch sess) (s.prefetch sess.toNat)) ∧
  -- CONTEXT_FILL_DONE (R229)
  (∀ (s : State) (sess : BitVec 16) (poison : Bool),
    let k := sess.toNat
    s.fillCan k = true →
    s.cxlHeld 1 = false →
    s.goes (.contextFillDone sess poison) (
      let s := { s with fills := s.fills.filter (· != k) }.incWrap F.SES_CACHE_CNT_FILLS
      if poison then ((s.cxlPoison (homeAddr k) k).startRebuild k)
      else
        let img := s.homeImage k
        if imageGood img k then
          (((s.loadImage k img false).keysAhead k).grantNext k).serve
        else (s.startRebuild k))) ∧
  -- CONTEXT_REBUILD_DONE (R238)
  (∀ (s : State) (sess : BitVec 16) (homePoison : Bool) (jrnPoison : Bool),
    let k := sess.toNat
    let flight := match s.jq with | u :: _ => u.session == k && !u.waits | [] => false
    s.rebuilds.contains k = true →
    flight = false →
    s.goes (.contextRebuildDone sess homePoison jrnPoison) (
      let s := { s with rebuilds := s.rebuilds.filter (· != k) }
      let s := if homePoison then s.cxlPoison (homeAddr k) k else s
      let reads := s.rebuildReads k homePoison
      match s.rebuildBase k homePoison with
      | none => (if jrnPoison && !reads.isEmpty then s.walkPoison k reads else s.ctxLost k).serve
      | some base =>
        if jrnPoison && !reads.isEmpty then (s.walkPoison k reads).serve
        else
          let img := s.rebuildImage k base
          let s := ((s.loadImage k img true).slotOfImage k img).incSat F.SES_JRN_STAT_REBUILDS
          let t : State := (((s.raise Ev.CTX_REBUILT k).keysAhead k).grantNext k).serve
          t)) ∧
  -- JOURNAL_WRITE_DONE (R235)
  (∀ (s : State),
    ∀ u rest, s.jq = u :: rest →
    u.waits = false →
    s.cxlUp = true →
    s.journals = true →
    s.goes .journalWriteDone (
      if !s.jrnRoom u.bytes.length then { s with jq := { u with waits := true } :: rest }
      else
        let k := u.session
        let bytes := if u.kind = 1 then sealImage u.bytes (s.nextSeq u.bytes.length) else u.bytes
        let seq := s.nextSeq u.bytes.length
        let s := { s with jq := rest }.jrnAppend u.kind k u.holder u.offset bytes
        let s := s.entryApply u bytes seq
        let s := { s with outq := s.outq ++ u.follow }
        let cur := (s.leaseOf k).map (·.id)
        let s := if cur.isSome && u.lease == cur then s.leaseTouch k else s
        s.jrnHigh.serve)) ∧
  -- JOURNAL_UPDATE_RESUME (R237)
  (∀ (s : State),
    ∀ u rest, s.jq = u :: rest →
    u.waits = true →
    s.jrnRoom u.bytes.length = true →
    s.goes .journalUpdateResume ({ s with jq := { u with waits := false } :: rest.map (fun (x : JUpd) => { x with waits := false }) })) ∧
  -- WRITE_BACK_DONE (R236)
  (∀ (s : State) (sess : BitVec 16),
    let k := sess.toNat
    s.backCan k = true →
    s.cxlHeld 2 = false →
    s.goes (.writeBackDone sess) (
      let seq := s.nextSeq ctxSize
      let img := sealImage (s.ctxImage k) seq
      let t : State := ((s.backStored k seq img).flushEnd k).returnGo.serve
      t)) ∧
  -- STORE_HEADER_WRITE (R222)
  (∀ (s : State),
    ∀ h, s.store = some h →
    let t := s.jrnTail
    s.journals = true →
    s.cxlUp = true →
    s.hdrTail ≠ t →
    s.hdrAt + sTicks 1 ≤ s.tick →
    s.goes .storeHeaderWrite (s.hdrWrite { h with jrnTail := t })) ∧
  -- SPOOL_WRITE (R239)
  (∀ (s : State),
    s.outq.isEmpty = false →
    (s.queueSpools || (s.cxlUp && !s.cxlHeld 3)) = true →
    s.goes .spoolWrite (((s.spoolStep [] [] s.outq).spoolFullEnd).creditWatch)) ∧
  -- RECORD_SEND (R245)
  (∀ (s : State) (poison : Bool),
    s.bit F.HAL_STATUS_NEGOTIATED = true →
    s.halCan = true →
    s.get F.SES_CREDIT_BALANCE ≠ 0 →
    s.goes (.recordSend poison) (if s.halHeld && s.nextRec.isSome then s.halWait else s.recordSend poison)) ∧
  -- CREDIT (R244)
  (∀ (s : State) (n : BitVec 32),
    s.goes (.credit n) (s.halCredit n.toNat)) ∧
  -- CREDIT_STALL (R244)
  (∀ (s : State),
    ∀ t, s.creditZero = some t →
    t + sTicks (s.get F.SES_DRAIN_CFG_STALL) ≤ s.tick →
    s.stallRaised = false →
    s.goes .creditStall (({ s with stallRaised := true }.incSat F.SES_DRAIN_CNT_STALLS).raise Ev.CREDIT_STALL 0)) ∧
  -- HAL_ACK (R246)
  (∀ (s : State) (cls : Fin 5) (seq : BitVec 64),
    s.goes (.halAck cls seq) (s.halAck cls.val seq.toNat)) ∧
  -- DRAIN_REWIND (R246)
  (∀ (s : State) (cls : Fin 5),
    s.goes (.drainRewind cls) (
      let s := s.acksNow cls.val
      match s.spool.find? (fun r => r.rc.cls == cls.val) with
      | none => s
      | some r => match r.sent with
        | none => s
        | some t =>
          (if t + msTicks (s.get F.SES_DRAIN_CFG_ACK_TIMEOUT) < s.tick
            then ((s.rewind cls.val).incSat F.SES_DRAIN_CNT_REWINDS).raise Ev.DRAIN_REWIND cls.val |>.creditWatch else s)))

/-- The commands of the CXL store and radio head links: each answers, under the conditions named, the next state its rule gives, and so leaves all else as it stands.  Clauses
rest on the model's choices of the log entries 41, 74, 81, 87, 92, 137, 141, 143, 144. -/
def Obligations.CxlAndRadioLinkCommandsComplete : Prop :=
  -- CXL_LINK_DOWN (R247)
  (∀ (s : State),
    s.cxlUp = true →
    s.goes .cxlLinkDown (s.cxlFall)) ∧
  -- CXL_REQUEST_TIMEOUT (R247)
  (∀ (s : State),
    s.cxlUp = true →
    s.goes .cxlRequestTimeout (s.cxlFall)) ∧
  -- CXL_LINK_UP (R247)
  (∀ (s : State) (lanes : Fin 5) (speed : Fin 3) (mib : Nat) (kept : Bool),
    let step := s.get F.PWR_START_STAT_STEP
    s.up.run = 2 →
    s.up.perst = true →
    s.cxlUp = false →
    4 ≤ step →
    step ≠ 7 →
    lanes.val ≠ 0 →
    lanes.val ≠ 3 →
    s.goes (.cxlLinkUp lanes speed mib kept) (
      let s := s.cxlRise lanes.val speed.val mib
      let cap := min mib 262144
      if cap < 4096 then { s with cxlMib := cap }
      else if s.cacheOnly then
        let s := ({ s with cxlMib := cap }.raise Ev.CXL_RETURNED 0).storeNew
        let s := s.put F.SES_STATUS_MODE 0 2
        let s := (s.cache.filter (·.filled)).foldl (fun (s : State) e => (s.onCache e.session (fun x => { x with dirty := true })).writeBack e.session) s
        let t : State := (s.returnGo).serve
        t
      else if !s.storeOpen then
        let s := { s with cxlMib := cap }
        let s := if s.storeKept kept then s.storeKeep else s.storeFresh
        let t : State := ((if step = 4 then s.startStep 5 else s)).serve
        t
      else s.fillsGo.serve)) ∧
  -- CXL_CACHE_ONLY (R248)
  (∀ (s : State),
    s.cacheOnly = false →
    s.cacheOnlyDue = true →
    s.goes .cxlCacheOnly (
      let s := if s.get F.PWR_START_STAT_STEP = 4 then s.enterCacheOnly.startStep 5 else s.enterCacheOnly
      s.serve)) ∧
  -- CXL_RETRAIN_TIMER (R249)
  (∀ (s : State),
    s.cacheOnly = true →
    s.bit F.SES_CTRL_AUTO_RETURN = true →
    s.retrainAt + sTicks 10 ≤ s.tick →
    s.goes .cxlRetrainTimer ({ s with retrainAt := s.tick }.cxlRetrain)) ∧
  -- CXL_RETRAIN (R256)
  (∀ (s : State) (i : Iface) (w : Word),
    s.goes (.cxlRetrain i w) (
      let s := s.wlogNote i F.CXL_CTRL.addr w
      let t : State := (if F.CXL_CTRL_RETRAIN.on w ∧ !s.bit F.CXL_CTRL_RETRAIN then (s.putB F.CXL_CTRL_RETRAIN 0 true).cxlRetrain else s)
      t)) ∧
  -- CXL_MEDIA_POLL (R220)
  (∀ (s : State) (ce : Nat),
    s.cxlUp = true →
    s.goes (.cxlMediaPoll ce) (
      let old := s.get F.CXL_ERR_CNT_CE
      let l := (s.tick, ce) :: s.ceHour.filter (fun e => decide (s.tick < e.1 + sTicks 3600))
      let n := l.foldl (fun (n : Nat) e => n + e.2) 0
      let s := { s with ceHour := l.filter (fun e => e.2 != 0) }.put F.CXL_ERR_CNT_CE 0 (min 65535 n)
      let max := s.get F.CXL_ERR_CFG_CE_THRESH
      if max < n then
        let s := { s with ceAbove := s.tick }
        let t : State := (if max < old then s else (s.raise Ev.CXL_CE_RATE 0).setReason 6)
        t
      else (if s.ceAbove + sTicks 86400 ≤ s.tick then s.clearReason 6 else s))) ∧
  -- RH_LINK_UP (R260)
  (∀ (s : State) (head : Fin 4),
    let h := head.val
    s.bit F.RFS_HEAD_CFG_ENABLE (rhO h) = true →
    s.get F.RFS_HEAD_STAT_LINK (rhO h) = 1 →
    s.goes (.rhLinkUp head) (((s.put F.RFS_HEAD_STAT_LINK (rhO h) 2).headListens h true).raise Ev.RH_LINK_UP h)) ∧
  -- RH_LINK_DOWN (R260)
  (∀ (s : State) (head : Fin 4),
    let h := head.val
    s.get F.RFS_HEAD_STAT_LINK (rhO h) = 2 →
    s.goes (.rhLinkDown head) (
      let s := (s.headDown h).incSat F.RFS_HEAD_STAT_LINK_ERRS (rhO h)
      let s := s.onMac (fun m => { m with linkRetry := tset (fun _ => 0) m.linkRetry h s.tick })
      let t : State := s.raise Ev.RH_LINK_DOWN h
      t)) ∧
  -- RH_LINK_INIT_RETRY (R260)
  (∀ (s : State) (head : Fin 4),
    let h := head.val
    let due := tget (fun _ => 0) s.mac.linkRetry h + msTicks 100
    s.bit F.RFS_HEAD_CFG_ENABLE (rhO h) = true →
    s.get F.RFS_HEAD_STAT_LINK (rhO h) ≠ 2 →
    due ≤ s.tick →
    s.goes (.rhLinkInitRetry head) (s.linkInit h))

/-- The commands of the superframe, its slots and radio sessions: each answers, under the conditions named, the next state its rule gives, and so leaves all else as it stands.  Clauses
rest on the model's choices of the log entries 25, 79, 81, 82, 95, 115, 118. -/
def Obligations.SuperframeCommandsComplete : Prop :=
  -- SUPERFRAME_START (R266)
  (∀ (s : State),
    ∀ b, s.mac.next = some b →
    let ends := match s.mac.slot with
      | some (63, _) => s.mac.phase == 3
      | some _ => false
      | none => s.mac.fresh
    s.own = true →
    s.macCan = true →
    b ≤ s.tick →
    ends = true →
    s.goes .superframeStart (
      let s := if s.macDue b then s.macApply else s
      let s := if s.commitPending 8 then s.applyInst 8 0 else s
      let s := match s.mac.moveTo with
        | some o => s.put F.MAC_STATUS_OFFSET 0 o
        | none => s
      let s := s.onMac (fun m => { m with sfs := m.sfs + 1, airMark := (m.dwell, m.duty, m.dutyTo) })
      let s := s.put F.MAC_SFN_SFN 0 (if s.mac.fresh then 0 else s.sfn + 1)
      let s := (s.put F.MAC_SF_START_LO_TICK 0 b).put F.MAC_SF_START_HI_TICK 0 (b / 2 ^ 32)
      let independent := s.get F.MAC_STATUS_MODE == 1
      let s := s.onMac (fun m => { m with
        fresh := false, slot := some (0, b), phase := 0, moveTo := none, heardParent := false, pairs := [], nextPairs := [],
        leasedFor := none })
      let s := s.onMac (fun m => { m with
        next := some (if independent then s.gridFrom (b + s.sfLen) else b + s.sfLen) })
      let s := s.mac.holds.foldl (fun (s : State) x =>
        let l := s.leaseTry x.1 3
        if l.2 then (l.1.ctxPut x.1 0x0C7 1 (8 - min 8 (s.mac.sfs - x.2)) 3).macRelease x.1 else s) s
      let s := s.listenStart 0
      let t : State := s.beaconHeads.foldl (fun (s : State) h => s.beaconSend h b) s
      t)) ∧
  -- PAIR_LEASE (R270)
  (∀ (s : State),
    ∀ j st, s.mac.slot = some (j, st) →
    let start := st + s.slotLen
    let n := j + 1
    n < 64 →
    s.mac.leasedFor ≠ some n →
    start ≤ s.tick + msTicks 2 →
    s.tick < start →
    s.noDecoder = false →
    s.goes .pairLease (
      let lease := fun (a : State × List PairNow) (p : PairNow) =>
        let h := if a.1.leasedBy p.session 7 then 7 else 3
        (if s.bit F.SES_STATUS_SPOOL_FULL then a.1 else a.1.leaseAsk p.session h, a.2 ++ [p])
      let r := (s.pairsIn n s.sfn).foldl lease (s, [])
      let t : State := r.1.onMac (fun m => { m with leasedFor := some n, nextPairs := r.2 })
      t)) ∧
  -- SLOT_START (R267)
  (∀ (s : State),
    ∀ j st0, s.mac.slot = some (j, st0) →
    let st := st0 + s.slotLen
    let n := j + 1
    n < 64 →
    s.mac.phase = 3 →
    st ≤ s.tick →
    s.goes .slotStart (
      let ps := if s.mac.leasedFor = some n then s.mac.nextPairs
        else (s.pairsIn n s.sfn).map (fun p => { p with outcome := 5 })
      let ps := ps.map (fun (p : PairNow) =>
        let h := headOf p.rx
        let dead := !s.headUp h || s.mac.headFail.contains (h, true) || !s.leasedBy p.session (s.radioHolder p.session)
        s.pairWindow (if dead then { p with outcome := 5 } else p) st)
      let s := ps.foldl (fun (s : State) p => s.macWithdraw p.session) s
      let s := s.onMac (fun m => { m with slot := some (n, st), phase := 0, pairs := ps, nextPairs := [], leasedFor := none })
      let t : State := s.listenStart n
      t)) ∧
  -- PHASE2_PREP (R267)
  (∀ (s : State),
    ∀ j st, s.mac.slot = some (j, st) →
    j ≠ 0 →
    s.mac.phase = 0 →
    st + s.p2Ticks ≤ s.tick + halfMs →
    s.goes .phase2Prep (
      let listen := beaconRx (s.get F.MAC_SUB_LISTEN_HEAD)
      let late := (List.range 32).map (· + 576)
      let s := late.foldl (fun (s : State) r =>
        if decide (4 ≤ s.rxSt r) && !(s.listenSlot j && r == listen) then
          let k := ((s.pairOf r).map (·.session)).getD 0
          (s.rxForceHold r).raise Ev.SLOT_OVERRUN k
        else s) s
      let s := s.onMac (fun m => { m with phase := 1 })
      let s := s.mac.pairs.foldl (fun (s : State) p => s.respBuild p) s
      let s := if s.contSlot j then
          let s := s.joinsAnswer
          (s.radioSessions.filter s.relayed).foldl (fun (s : State) k => s.meshStart k) s
        else s
      let sends := fun (s : State) h => s.mac.pairs.any (fun p => headOf p.rx == h && p.tx != [])
        || (s.contSlot j && s.mac.downQ.any (fun d => d.heads.contains h))
      let t : State := (List.range 4).foldl (fun (s : State) h => if sends s h then s.sendScript h else s) s
      t)) ∧
  -- RESPONDER_SEND (R272)
  (∀ (s : State),
    ∀ j st, s.mac.slot = some (j, st) →
    j ≠ 0 →
    s.mac.phase = 1 →
    st + s.p2Ticks ≤ s.tick →
    s.goes .responderSend (
      let s := s.onMac (fun m => { m with phase := 2 })
      let s := s.mac.pairs.foldl (fun (s : State) p => s.respSend p st) s
      let t : State := (if s.contSlot j then
          ((List.range 4).filter s.headSends).foldl (fun (s : State) h => s.downSend h st) s
        else s)
      t)) ∧
  -- SLOT_TAIL (R267)
  (∀ (s : State) (slot : Nat),
    ∀ j st, s.mac.slot = some (j, st) →
    let ready := (j == 0 && s.mac.phase == 0) || s.mac.phase == 2
    ready = true →
    slot = j →
    st + s.slotLen ≤ s.tick + halfMs →
    s.goes (.slotTail slot) (
      let s := (List.range 4).foldl (fun (s : State) h => s.airEnd h (st + s.slotLen - halfMs)) s
      let s := s.onMac (fun m => { m with air := [] })
      let ps := s.mac.pairs
      let s := ps.foldl (fun (s : State) p => (s.pairOutcome p st).pairShow p j) s
      let held := fun (s : State) (k : Nat) => s.accWait.any (fun w => w.session == k)
        || (s.mac.leasedFor.isSome && s.mac.nextPairs.any (fun p => p.session == k))
      let s := ps.foldl (fun (s : State) p => if held s p.session then s else s.macRelease p.session) s
      let s := (List.range 4).foldl (fun (s : State) h =>
        if s.headUp h then (s.headListens h false).headListens h true else s) s
      let s := s.parentMissed j
      let s := s.onMac (fun m => { m with pairs := [], headFail := [], phase := 3 })
      let n := (j + 1) % 64
      let sf := if n = 0 then s.sfn + 1 else s.sfn
      let s := if n = 0 then (List.range 4).foldl (fun (s : State) h => s.tuneScript h sf) s else s
      let t : State := (s.gainsSet n sf).serve
      t)) ∧
  -- RH_SCRIPT_LATE (R262)
  (∀ (s : State) (head : Fin 4) (rx : Bool),
    s.bit F.RFS_HEAD_CFG_ENABLE (rhO head.val) = true →
    s.goes (.rhScriptLate head rx) (s.headFails head.val rx)) ∧
  -- PAIR_RELEASE (R278)
  (∀ (s : State) (sess : BitVec 16),
    let k := sess.toNat
    ∀ u1 sf, s.mac.holds.find? (fun x => x.1 == k) = some (u1, sf) →
    let l := s.leaseTry k 3
    sf + 9 ≤ s.mac.sfs →
    l.2 = true →
    s.goes (.pairRelease sess) ((((l.1.pairFree k 3).raise Ev.PAIR_RELEASED k).macRelease k).serve)) ∧
  -- RADIO_ASSIGN_EXPIRE (R282)
  (∀ (s : State) (sess : BitVec 16),
    let k := sess.toNat
    ∀ a, s.rassoc k = some a →
    let n := s.get F.PLN_ASSOC_ASSIGN_TRIES
    let past := if a.mesh then decide (n ≤ a.sent) && decide (a.lastSf + s.get F.MSH_TIMING_RESEND_SF ≤ s.mac.sfs)
      else decide (n ≤ a.active)
    let l := s.leaseTry k 3
    a.ho.isSome = false →
    past = true →
    l.2 = true →
    s.goes (.radioAssignExpire sess) (
      let s := l.1.onMac (fun m => { m with
        assocs := m.assocs.filter (fun x => x.session != k), downQ := m.downQ.filter (fun d => !(d.session == k && d.rank == 0)) })
      let s := if a.opened then s.slotFree k 3
        else if a.again then match l.1.roldPair k with
          | some (sl, ch, f) => (s.setPair k sl ch (s.rper k) f 3).ctxPut k 0x0E8 2 0 3
          | none => s
        else s.pairFree k 3
      let t : State := (s.macRelease k).serve
      t)) ∧
  -- RADIO_CMD_FAILED (R273)
  (∀ (s : State) (sess : BitVec 16),
    let k := sess.toNat
    let l := s.leaseTry k 3
    s.mac.cmdOut.contains k = true →
    s.get F.MAC_ASSOC_CMD_TRIES ≤ s.ctxNum k 0x0D6 2 →
    l.2 = true →
    s.goes (.radioCmdFailed sess) (
      let s := (l.1.onMac (fun m => { m with cmdOut := m.cmdOut.filter (· != k) })).raise Ev.RADIO_CMD_FAILED k
      let t : State := ((s.cmdFail k 3).macRelease k).serve
      t)) ∧
  -- PARENT_BEACON (R283)
  (∀ (s : State),
    s.goes .parentBeacon (
      match s.mac.parentRx, s.mac.next with
      | some (tb, payload), some nx =>
        if !s.bit F.MAC_CTRL_SUBORD || s.get F.MAC_STATUS_MODE == 1 then (s.onMac (fun m => { m with parentRx := none }))
        else
          let r := s.mac.parentHead
          let m := s.chanMode r 0
          let g : Int := 3840 * (payload.getD 6 0).toNat
          let b : Int := (tb : Int) - m.ticks false (s.syncLen r) - m.ticks false (s.preBits r) - symTicks false m.rate / 2 - g
          let lf : Int := max 1 s.sfLen
          let raw : Int := (b + s.get F.MAC_SUB_OFFSET_SLOTS * s.slotLen - nx) % lf
          let err := if lf < 2 * raw then raw - lf else raw
          let slew : Int := usTicks (s.get F.MAC_SUB_SLEW)
          let step := max (-slew) (min slew err)
          let lost := s.get F.MAC_STATUS_MODE == 3
          let s := (s.put F.MAC_STATUS_MODE 0 2).put F.MAC_STATUS_PARENT_MISS 0 0
          let s := s.onMac (fun x => { x with next := some ((nx : Int) + step).toNat, parentRx := none, heardParent := true })
          let t : State := s.raiseIf lost Ev.PARENT_FOUND (s.get F.MAC_SUB_PARENT_ID)
          t
      | _, _ => s)) ∧
  -- PARENT_LOST (R284)
  (∀ (s : State),
    s.get F.MAC_STATUS_MODE = 2 →
    3 ≤ s.get F.MAC_STATUS_PARENT_MISS →
    s.goes .parentLost (
      let s := (s.put F.MAC_STATUS_MODE 0 3).onMac (fun m => { m with lostSf := s.mac.sfs })
      let t : State := s.raise Ev.PARENT_LOST (s.get F.MAC_SUB_PARENT_ID)
      t)) ∧
  -- COORD_INDEPENDENT (R284)
  (∀ (s : State),
    s.get F.MAC_STATUS_MODE = 3 →
    s.mac.lostSf + 64 ≤ s.mac.sfs →
    s.goes .coordIndependent (
      let obs := s.gridObs
      let near := obs.any (fun o => o % 64 ≤ 1 || o % 64 == 63)
      let here := s.get F.MAC_SUB_OFFSET_SLOTS
      let goal := if near then clearOffset here obs else here
      let s := (s.put F.MAC_STATUS_MODE 0 1).put F.MAC_STATUS_OFFSET 0 here
      let t := s.put F.MAC_STATUS_OFFSET 0 goal
      let s := s.onMac (fun m => { m with
        next := m.next.map t.gridFrom, moveTo := if near then some goal else none, parentRx := none })
      let t : State := s.raise Ev.COORD_INDEPENDENT (s.get F.MAC_SUB_PARENT_ID)
      t))

/-- The commands of MAC control, scripts and the mesh: each answers, under the conditions named, the next state its rule gives, and so leaves all else as it stands.  Clauses
rest on the model's choices of the log entries 81, 82, 83, 91, 105, 118. -/
def Obligations.MacAndMeshCommandsComplete : Prop :=
  -- MAC_COMMIT (R291)
  (∀ (s : State) (i : Iface) (w : Word),
    s.goes (.macCommit i w) (
      let s := s.wlogNote i F.MAC_COMMIT.addr w
      if !F.MAC_COMMIT_GO.on w then s
      else
        let was := s.commitPending 7
        let s := s.commit i 7 [0] macRules
        let t : State := (if !was && s.commitPending 7 then s.onMac (fun m => { m with commitAt := s.tick }) else s)
        t)) ∧
  -- MAC_COMMIT_APPLY (R291)
  (∀ (s : State),
    s.goes .macCommitApply (
      match s.mac.next with
      | none => (if s.commitPending 7 then s.macApply else s)
      | some b => (if s.macDue b && decide (b ≤ s.tick) then s.macApply else s))) ∧
  -- MAC_SCRIPT_DATA_ACCESS (R290)
  (∀ (s : State) (i : Iface) (wr : Option Word),
    s.goes (.macScriptDataAccess i wr) (
      let a := s.get F.MAC_SCRIPT_ADDR_BYTE / 4 * 4
      match wr with
      | some w =>
        let s := s.wlogNote i F.MAC_SCRIPT_DATA.addr w
        let t : State := (s.onMac (fun m => { m with scripts := vaultStore m.scripts a (le w.toNat 4) })).scriptNext
        t
      | none =>
        let w := BitVec.ofNat 32 (ofLe ((List.range 4).map (fun j => tget (fun _ => (0 : Byte)) s.mac.scripts (a + j))))
        let t : State := { s with reply := tset (fun _ => 0) s.reply i.id w }.scriptNext
        t)) ∧
  -- MAC_CTRL_RUN (R266)
  (∀ (s : State) (i : Iface) (w : Word),
    s.goes (.macCtrlRun i w) (s.macCtrlWrite i w)) ∧
  -- MAC_CTRL_SUBORD (R283)
  (∀ (s : State) (i : Iface) (w : Word),
    F.MAC_CTRL_SUBORD.on w = true →
    s.goes (.macCtrlSubord i w) (s.macCtrlWrite i w)) ∧
  -- ROUTE_AGE_OUT (R298)
  (∀ (s : State),
    s.goes .routeAgeOut ((s.mac.routes.filter (fun e => !s.routeValid e)).foldl (fun (s : State) e => s.routeDrop e) s)) ∧
  -- SEEN_EXPIRE (R304)
  (∀ (s : State),
    s.goes .seenExpire (s.onMac (fun m => { m with seen := m.seen.filter (fun e => decide (s.tick < e.at_ + sTicks 60)) }))) ∧
  -- MESH_RESEND (R301)
  (∀ (s : State) (sess : BitVec 16),
    s.goes (.meshResend sess) (
      let k := sess.toNat
      let s := s.assignResend k
      match s.mac.sends.find? (fun m => m.session == k) with
      | none => s
      | some m =>
        let l := s.leaseTry k 3
        if s.mac.sfs < m.lastSf + s.get F.MSH_TIMING_RESEND_SF || !l.2 || s.roleWaits 3 then s
        else if m.sends < s.get F.MAC_ASSOC_CMD_TRIES then
          let s := if m.source then l.1.ctxPut k 0x201 1 (l.1.ctxNum k 0x201 1 / 4 * 4 + 1) 3 else l.1
          let t : State := ((s.meshSendOne m m.source).macRelease k).serve
          t
        else
          let s := (l.1.onMac (fun x => { x with sends := x.sends.filter (fun y => y.session != k) })).raise Ev.RADIO_CMD_FAILED k
          let t : State := ((if m.ftype = 2 then s.cmdFail k 3 else s.rekeySpent k 3).macRelease k).serve
          t)) ∧
  -- MSH_ROUTE_CLEAR_ONE (R311)
  (∀ (s : State) (i : Iface) (w : Word),
    F.MSH_ROUTE_CMD_CLEAR_ONE.on w = true →
    s.goes (.mshRouteClearOne i w) (
      let s := s.wlogNote i F.MSH_ROUTE_CMD.addr w
      let t : State := s.routeForget (F.MSH_ROUTE_CMD_DEST.of w)
      t)) ∧
  -- MSH_ROUTE_CLEAR_ALL (R311)
  (∀ (s : State) (i : Iface) (w : Word),
    F.MSH_ROUTE_CMD_CLEAR_ALL.on w = true →
    s.goes (.mshRouteClearAll i w) (
      let s := s.wlogNote i F.MSH_ROUTE_CMD.addr w
      let t : State := s.mac.routes.foldl (fun (s : State) e => s.routeDrop e) s
      t)) ∧
  -- MSH_COMMIT (R313)
  (∀ (s : State) (i : Iface) (w : Word),
    s.goes (.mshCommit i w) (
      let s := s.wlogNote i F.MSH_COMMIT.addr w
      let t : State := (if F.MSH_COMMIT_GO.on w then s.commit i 8 [0] mshRules else s)
      t)) ∧
  -- MSH_COMMIT_APPLY (R313)
  (∀ (s : State),
    s.goes .mshCommitApply (
      match s.mac.next with
      | none => (s.applyInst 8 0)
      | some b => (if b ≤ s.tick then s.applyInst 8 0 else s)))

/-- The commands of the cipher engine, the Vault and raw jobs: each answers, under the conditions named, the next state its rule gives, and so leaves all else as it stands.  Clauses
rest on the model's choices of the log entries 2, 11, 20, 38, 77, 78, 79, 91, 116, 134. -/
def Obligations.CipherCommandsComplete : Prop :=
  -- ANCHOR_PROGRAM (R316)
  (∀ (s : State) (i : Iface) (w : Word),
    s.goes (.anchorProgram i w) (
      let s := s.wlogNote i F.CIP_ANCHOR_CMD.addr w
      if !F.CIP_ANCHOR_CMD_PROGRAM.on w ∨ s.bit F.CIP_ANCHOR_STAT_BUSY then s
      else
        let ka := s.staged
        if s.anchorTried then (s.anchorEnd 2)
        else if F.CIP_ANCHOR_CMD_KEY.of w ≠ 0xA9 ∨ ka = List.replicate 32 0 ∨ ka = List.replicate 32 0xFF then (s.anchorEnd 3)
        else
          let s := { s with anchorTried := true }.onCip (fun c => { c with blowing := some ka })
          let t : State := s.putB F.CIP_ANCHOR_STAT_BUSY 0 true
          t)) ∧
  -- ANCHOR_PROGRAM_DONE (R316)
  (∀ (s : State) (good : Bool),
    ∀ ka, s.cip.blowing = some ka →
    s.goes (.anchorProgramDone good) (
      let s := s.onCip (fun c => { c with blowing := none })
      if good then (({ s with anchor := some (s.share ka) }.maskUse.anchorShow).maskUse.anchorEnd 1) else (s.anchorEnd 4))) ∧
  -- KEY_DERIVATION_DONE (R321)
  (∀ (s : State),
    ∀ t rest, s.keyq = t :: rest →
    ((s.cipherUp && !s.keysHeld) || s.cip.flight == 2) = true →
    s.goes .keyDerivationDone ({ s with cip := { s.cip with flight := 0 }, keyq := rest, keys := ((⟨t, (s.deriveKey t).sh⟩ : KeyE) :: s.keys.filter (fun e => e.tag != t)).take 1024 }.maskUse)) ∧
  -- KCACHE_FLUSH (R321)
  (∀ (s : State) (i : Iface) (w : Word),
    s.goes (.kcacheFlush i w) (
      let s := s.wlogNote i F.CIP_KCACHE_CMD.addr w
      let t : State := (if F.CIP_KCACHE_CMD_FLUSH.on w then s.keysErase else s)
      t)) ∧
  -- DRBG_RESEED (R332)
  (∀ (s : State),
    s.cip.entropy = 1 →
    (s.cip.drbgAt + msTicks 1 ≤ s.tick ∨ 65536 ≤ s.cip.drbgUsed) →
    s.goes .drbgReseed ((s.draw 8).2.onCip (fun c => { c with drbgAt := s.tick, drbgUsed := 0 }))) ∧
  -- ENTROPY_FAIL (R332)
  (∀ (s : State),
    s.cip.entropy = 1 →
    s.goes .entropyFail (s.entropyFail)) ∧
  -- ENTROPY_RETEST (R332)
  (∀ (s : State) (pass : Bool),
    s.cip.entropy = 2 →
    s.goes (.entropyRetest pass) (if pass then s.entropyGood else s.entropyFail)) ∧
  -- VAULT_WRITE_DONE (R336)
  (∀ (s : State) (good : Bool),
    ∀ w rest, s.vaultq = w :: rest →
    s.goes (.vaultWriteDone good) (
      let s := s.wearCount w
      if good then (s.vaultDone w).serve
      else if !w.retried then { s with vaultq := { w with retried := true } :: rest }
      else
        let d := s.draw 1
        let s := if d.1 = 1 then { d.2 with vault := vaultStore d.2.vault w.addr w.bytes } else d.2
        let faults := s.tick :: s.vaultFaults.filter (fun t => decide (s.tick < t + sTicks 86400))
        let s := { s with vaultFaults := faults }.put F.CIP_VAULT_STAT_WRITE_FAULTS 0 (min 255 faults.length)
        let s := s.raise Ev.VAULT_FAULT ((w.sessionOf).getD 0)
        let s := if 3 ≤ faults.length then s.setReason 4 else s
        let t : State := (s.vaultLost w).serve
        t)) ∧
  -- RAW_JOB_START (R328)
  (∀ (s : State) (i : Iface) (w : Word),
    s.goes (.rawJobStart i w) (
      let s := s.wlogNote i F.CIP_RAW_CMD.addr w
      if !F.CIP_RAW_CMD_GO.on w ∨ s.bit F.CIP_RAW_STAT_BUSY then s
      else
        let len := s.live F.CIP_RAW_LEN.addr
        let words := fun (a n : Nat) => (List.range n).flatMap (fun k => le (s.live (a + 4 * k)).toNat 4)
        let n := min 16384 (F.CIP_RAW_LEN_AAD_LEN.of len + F.CIP_RAW_LEN_DATA_LEN.of len)
        let j : RawJob := ⟨none, s.live F.CIP_RAW_CFG.addr, len, s.live F.CIP_RAW_SESSION.addr, words F.CIP_RAW_IV.addr 4,
          words F.CIP_RAW_TAG.addr 4, s.share (words F.CIP_RAW_KEY.addr 8), s.rawBytes 0 n, 0⟩
        let t : State := (s.maskUse.putB F.CIP_RAW_STAT_BUSY 0 true).rawJoin j
        t)) ∧
  -- RAW_JOB_ABORT (R348)
  (∀ (s : State) (i : Iface) (w : Word),
    s.goes (.rawJobAbort i w) (
      let s := s.wlogNote i F.CIP_RAW_CMD.addr w
      if !F.CIP_RAW_CMD_ABORT.on w then s
      else match s.cip.raw.find? (fun j => j.cmd.isNone) with
      | none => s
      | some j => (s.rawEnd j 7 (List.replicate (F.CIP_RAW_LEN_DATA_LEN.of j.len) 0) []))) ∧
  -- RAW_JOB_DONE (R330)
  (∀ (s : State) (mismatch : Bool),
    ∀ j rest, s.cip.raw = j :: rest →
    ((s.engineUp && !s.rawHeld) || s.cip.flight == 3) = true →
    s.goes (.rawJobDone mismatch) (
      if mismatch then
        let r := s.cipherFault j.tries
        if r.2 then r.1 else (r.1.onCip (fun c => { c with raw := { j with tries := j.tries + 1 } :: rest }))
      else
        let r := rawCompute j (s.rawKey j)
        let t : State := (s.rawUse j).rawEnd j r.1 r.2.1 r.2.2
        t)) ∧
  -- CIP_SES_READ (R348)
  (∀ (s : State) (i : Iface) (w : Word),
    s.goes (.cipSesRead i w) (s.cipWrite i w 1)) ∧
  -- CIP_SES_REKEY_DUE (R348)
  (∀ (s : State) (i : Iface) (w : Word),
    s.goes (.cipSesRekeyDue i w) (s.cipWrite i w 2)) ∧
  -- CIP_SES_REPROVISION (R348)
  (∀ (s : State) (i : Iface) (w : Word),
    s.goes (.cipSesReprovision i w) (s.cipWrite i w 3)) ∧
  -- CIP_COMMIT (R349)
  (∀ (s : State) (i : Iface) (w : Word),
    s.goes (.cipCommit i w) (
      let s := s.wlogNote i F.CIP_COMMIT.addr w
      let t : State := (if F.CIP_COMMIT_GO.on w then (s.commit i 9 [0] cipRules).applyInst 9 0 else s)
      t)) ∧
  -- ENTROPY_STARTUP_TEST (R332)
  (∀ (s : State) (pass : Bool),
    s.cip.entropy = 0 →
    s.up.run = 2 →
    s.goes (.entropyStartupTest pass) (if pass then s.entropyGood else s.entropyFail))

/-- The commands of check units and the secured links: each answers, under the conditions named, the next state its rule gives, and so leaves all else as it stands.  Clauses
rest on the model's choices of the log entries 48, 49, 80, 91, 119, 135. -/
def Obligations.CheckUnitAndSecuredLinkCommandsComplete : Prop :=
  -- CHK_ARM (R355)
  (∀ (s : State) (i : Iface) (u : Fin 16) (w : Word),
    F.CHK_CMD_ARM.on w = true →
    s.goes (.chkArm i u w) (s.chkCmd i u.val w)) ∧
  -- CHK_STOP (R355)
  (∀ (s : State) (i : Iface) (u : Fin 16) (w : Word),
    F.CHK_CMD_STOP.on w = true →
    s.goes (.chkStop i u w) (s.chkCmd i u.val w)) ∧
  -- CHK_CLR_EXPECT (R356)
  (∀ (s : State) (i : Iface) (u : Fin 16) (w : Word),
    F.CHK_CMD_CLR_EXPECT.on w = true →
    s.goes (.chkClrExpect i u w) (s.chkCmd i u.val w)) ∧
  -- CHK_EXPECT_WRITE (R356)
  (∀ (s : State) (i : Iface) (u : Fin 16) (w : Word),
    s.goes (.chkExpectWrite i u w) (
      let s := s.wlogNote i (F.CHK_EXPECT.addr + chkO u.val) w
      let t : State := (if 2 ≤ s.get F.CHK_STATUS_OWNER (chkO u.val) ∧ i ≠ .module then s else s.chkExpect u.val w)
      t)) ∧
  -- CHK_WINDOW_START (R355)
  (∀ (s : State) (u : Fin 16),
    let o := chkO u.val
    let stream := s.get F.CHK_CFG_STREAM o
    s.get F.CHK_STATUS_STATE o = 1 →
    stream ≠ 0 →
    s.instPending 10 u.val = false →
    (readsItself stream || fromOutside stream || !(s.chkTaken u.val).isEmpty) = true →
    s.goes (.chkWindowStart u) ((s.put F.CHK_STATUS_STATE o 2).chkCount u.val)) ∧
  -- CHK_WINDOW_END (R356)
  (∀ (s : State) (u : Fin 16) (data : List Byte) (tooFast : Bool) (poison : Bool),
    let o := chkO u.val
    let stream := s.get F.CHK_CFG_STREAM o
    s.get F.CHK_STATUS_STATE o = 2 →
    s.goes (.chkWindowEnd u data tooFast poison) (
      if poison && readsItself stream then
        ((s.cxlPoison (if stream = 4 then s.get F.CHK_ADDR_LO o + 2 ^ 32 * s.get F.CHK_ADDR_HI_ADDR o
          else homeAddr (s.get F.CHK_SEL_SELECT o)) 0xFFFF).chkAbort u.val 1)
      else if tooFast && stream == 3 && [0, 3].contains (s.get F.CHK_SEL_SELECT o) then
        (((s.chkVoid u.val 3 0).chkNext u.val).raise Ev.CHK_OVERRUN u.val)
      else if stream = 12 then match s.auditBytes u.val with
        | none => (s.chkAbort u.val 2)
        | some l => (s.chkDone u.val l [])
      else if fromOutside stream then
        (if s.get F.CHK_CFG_WIN_MODE o = 0 ∧ data.length ≠ s.get F.CHK_WINDOW_WINDOW o then s else s.chkDone u.val data [])
      else match s.chkCut u.val with
        | none => s
        | some (l, rest) => (s.chkDone u.val l rest))) ∧
  -- CHK_COMMIT (R363)
  (∀ (s : State) (i : Iface) (w : Word),
    s.goes (.chkCommit i w) (
      let s := s.wlogNote i F.CHK_COMMIT.addr w
      let units := (List.range 16).filter (fun u => w.getLsbD u)
      let t : State := (if units.isEmpty then s else (s.commit i 10 units (chkRules units)).chkApply units)
      t)) ∧
  -- CHK_COMMIT_APPLY (R363)
  (∀ (s : State) (u : Fin 16),
    s.goes (.chkCommitApply u) (s.chkApply [u.val])) ∧
  -- LANE_UP (R365)
  (∀ (s : State) (l : Fin 3) (lane : Fin 2),
    s.goes (.laneUp l lane) (
      let s := s.onLink l.val (fun x => { x with lanes := x.lanes ||| 2 ^ lane.val })
      let t : State := (s.linkRefresh l.val).tapsRefresh
      t)) ∧
  -- LANE_DOWN (R365)
  (∀ (s : State) (l : Fin 3) (lane : Fin 2),
    s.goes (.laneDown l lane) (
      let s := s.onLink l.val (fun x => { x with lanes := x.lanes &&& (3 - 2 ^ lane.val) })
      let t : State := (s.linkRefresh l.val).tapsRefresh
      t)) ∧
  -- HELLO_SEND (R368)
  (∀ (s : State) (l : Fin 3),
    s.goes (.helloSend l) (
      let x := s.link l.val
      let st := s.linkSt l.val
      if (st ≠ 1 ∧ st ≠ 3) ∨ x.refused ∨ !s.linkEnabled l.val ∨ !(decide (x.lastTx < x.firstAt) || decide (x.lastTx + msTicks 1 ≤ s.tick)) then
        (if st = 2 ∧ 2 ^ 48 ≤ s.linkSeq l.val + 2 ^ 16 then s.linkLeave l.val
          else if l.val = 0 then s else s.insertGo (l.val - 1))
      else
        let s := (s.linkFrame l.val 1 (s.insertFlag l.val) (s.helloBytes l.val)).onLink l.val (fun y => { y with lastTx := s.tick })
        let t : State := s.linkGo l.val
        t)) ∧
  -- LINK_HELLO (R368)
  (∀ (s : State) (l : Fin 3) (insertion : Bool) (h : HelloS),
    let n := l.val
    let st := s.linkSt n
    s.linkEnabled n = true →
    s.goes (.linkHello l insertion h) (
      let s := if n = 0 ∨ st = 0 then s else s.snoop 9 (n - 1) (helloPayload h)
      if st = 2 then (if n ≠ 0 ∧ insertion ∧ s.get F.BRD_BIGHT_STAT_STATE = 2 then s.insertHello n h else s)
      else if st = 0 then s
      else if (s.link n).hello.isSome ∧ !(s.link n).refused then s
      else match s.helloCause n h with
        | some k => ((s.causeShow n k).onLink n (fun x => { x with refused := true, hello := none }))
        | none =>
          let k := (max (s.vaultSoonNum (linkKeyAt n) 4) h.keyIdx + 1) % 2 ^ 32
          let s := s.onLink n (fun x => { x with hello := some h, refused := false, keyIdx := k })
          let s := if n = 0 then
              (s.put F.SPL_PARTNER_LO_SERIAL 0 h.serial).put F.SPL_PARTNER_HI_SERIAL 0 (h.serial / 2 ^ 32)
            else s
          let t : State := s.vaultWrite (linkKeyAt n) (le k 4)
          t)) ∧
  -- LINK_CONFIRM (R368)
  (∀ (s : State) (l : Fin 3),
    let n := l.val
    let st := s.linkSt n
    s.engineUp = true →
    s.goes (.linkConfirm l) (
      if st = 2 ∧ n ≠ 0 then
        ((s.onBrd (fun b => { b with ins := b.ins.map (fun e => if e.1 = n - 1 then (e.1, e.2.1, true) else e) })).insertGo (n - 1))
      else if (st ≠ 1 ∧ st ≠ 3) ∨ (s.link n).hello.isNone ∨ (s.link n).refused then s
      else ((s.onLink n (fun x => { x with confirmed := true })).linkGo n))) ∧
  -- LINK_BRINGUP_TIMEOUT (R368)
  (∀ (s : State) (l : Fin 3),
    let n := l.val
    let st := s.linkSt n
    ¬(st ≠ 1 ∧ st ≠ 3) →
    (s.link n).firstAt + msTicks 50 ≤ s.tick →
    s.goes (.linkBringupTimeout l) (
      if st = 3 then
        if s.brd.cut.isSome ∨ (s.link n).rxSeq.isSome then s
        else if s.brd.openAt + msTicks 200 ≤ s.tick then s.insertFail
        else (s.linkRest n)
      else (s.linkRest n))) ∧
  -- LINK_SILENCE_TIMEOUT (R368)
  (∀ (s : State) (l : Fin 3),
    let n := l.val
    let x := s.link n
    let st := s.linkSt n
    let limit := if n = 0 then msTicks 4 else msTicks 1
    x.noDownTo ≤ s.tick →
    s.goes (.linkSilenceTimeout l) (
      if st = 2 ∧ x.lastRx + limit ≤ s.tick then ((s.onLink n (fun x => { x with noDownTo := 0 })).linkLeave n)
      else if n ≠ 0 ∧ st ≠ 2 ∧ st ≠ 3 ∧ x.noDownTo ≠ 0 then
        ((s.onLink n (fun x => { x with noDownTo := 0 })).brdPortDown (n - 1))
      else s)) ∧
  -- LINK_FRAME_REJECTED (R367)
  (∀ (s : State) (l : Fin 3) (tagFail : Bool),
    let n := l.val
    tagFail = true →
    s.goes (.linkFrameRejected l tagFail) (
      let s := if n = 0 then s.incSat F.SPL_CNT_A_TAG_FAILS else s.incSat F.BRD_CNT_A_TAG_FAILS
      let due : Bool := match (s.link n).tagEvAt with | none => true | some t => decide (t + sTicks 1 ≤ s.tick)
      let s := if due then (s.raise Ev.LINK_TAG_FAIL 0).onLink n (fun x => { x with tagEvAt := some s.tick }) else s
      let s := s.onLink n (fun x => { x with tagFails := x.tagFails.filter (fun t => decide (s.tick < t + sTicks 1)) ++ [s.tick] })
      if (s.link n).tagFails.length < 16 then s
      else
        let s := if n = 0 then s.put F.SPL_STATUS_CAUSE 0 4 else s
        let s := s.onLink n (fun x => { x with tagFails := [] })
        let t : State := (if s.linkSt n = 3 then s.insertFail else if s.linkSt n = 0 then s else s.linkLeave n)
        t))

/-- The commands of Splice roles and claims: each answers, under the conditions named, the next state its rule gives, and so leaves all else as it stands.  Clauses
rest on the model's choices of the log entries 2, 43, 44, 50, 58, 91, 111. -/
def Obligations.SpliceRoleCommandsComplete : Prop :=
  -- OWNERSHIP_REFRESH (R371)
  (∀ (s : State),
    s.imageIn = true →
    s.up.dead = false →
    s.spl.refreshAt + msTicks 1 ≤ s.tick →
    s.goes .ownershipRefresh (
      let s := s.onSpl (fun x => { x with refreshAt := s.tick, expired := false })
      let t : State := (if s.role = 0 then s.ownGain else s)
      t)) ∧
  -- OWN_WATCHDOG_EXPIRY (R371)
  (∀ (s : State),
    s.up.run = 2 →
    s.spl.expired = false →
    s.spl.refreshAt + msTicks 4 ≤ s.tick →
    s.goes .ownWatchdogExpiry (
      let s := (s.onSpl (fun x => { x with expired := true })).ownLose
      let s := if s.spl.claimAt.isSome then s.withdraw else s
      let t : State := (if s.role = 2 then s.put F.SPL_STATUS_ROLE 0 5 else s).driveOwnOut false
      t)) ∧
  -- SPLICE_START_WAIT_END (R373)
  (∀ (s : State),
    ∀ t, s.spl.start = some t →
    s.role = 1 →
    s.spl.claimAt.isSome = false →
    t + msTicks (10 * s.get F.SPL_CFG_START_WAIT) ≤ s.tick →
    s.goes .spliceStartWaitEnd (
      if s.ownIn then ((s.onSpl (fun x => { x with start := none })).put F.SPL_STATUS_ROLE 0 5)
      else s.claim)) ∧
  -- TAKEOVER_TIMEOUT (R373)
  (∀ (s : State),
    s.takesOver = true →
    s.spl.retryAt.isNone = true →
    s.goes .takeoverTimeout (s.claim)) ∧
  -- CLAIM_GUARD_END (R373)
  (∀ (s : State),
    ∀ t, s.spl.claimAt = some t →
    s.spl.split = false →
    t + msTicks 2 ≤ s.tick →
    s.goes .claimGuardEnd (
      if !s.ownIn then s.becomeOwner
      else
        let s := s.incSat F.SPL_CNT_A_SPLIT_CLAIMS
        if s.partner = 0 then s.withdraw
        else if s.serialNum < s.partner then (s.withdraw.raise Ev.SPLIT_CLAIM 0)
        else (s.onSpl (fun x => { x with split := true })))) ∧
  -- OWN_IN_FALL (R373)
  (∀ (s : State),
    s.goes .ownInFall (
      let s := (s.putB F.SPL_STATUS_OWN_IN 0 false).onUp (fun u => { u with gpio := tset (fun _ => 0) u.gpio 15 0 })
      if s.spl.claimAt.isSome && s.spl.split then s.becomeOwner
      else if s.role == 4 && s.spl.switchTo then (s.onSpl (fun x => { x with switchTo := false })).claim
      else s)) ∧
  -- SPLIT_CLAIM_TIMEOUT (R373)
  (∀ (s : State),
    ∀ t, s.spl.claimAt = some t →
    s.spl.split = true →
    t + msTicks 6 ≤ s.tick →
    s.goes .splitClaimTimeout (s.withdraw)) ∧
  -- CLAIM_RETRY_DELAY_END (R373)
  (∀ (s : State),
    ∀ t, s.spl.retryAt = some t →
    t ≤ s.tick →
    s.goes .claimRetryDelayEnd (
      let s := s.onSpl (fun x => { x with retryAt := none })
      let up := s.get F.SPL_STATUS_LINK == 2
      if s.role ≠ 1 then (if s.takesOver then s.claim else s)
      else if up && !s.claimsFirst then (s.put F.SPL_STATUS_ROLE 0 3)
      else if s.ownIn then (if up then s else s.put F.SPL_STATUS_ROLE 0 5)
      else s.claim)) ∧
  -- SPL_SWITCHOVER (R375)
  (∀ (s : State) (i : Iface) (w : Word),
    s.goes (.splSwitchover i w) (if F.SPL_CMD_SWITCHOVER.on w then s.splCmd i w else s.wlogNote i F.SPL_CMD.addr w)) ∧
  -- SPL_UNPAIR (R377)
  (∀ (s : State) (i : Iface) (w : Word),
    s.goes (.splUnpair i w) (if F.SPL_CMD_UNPAIR.on w then s.splCmd i w else s.wlogNote i F.SPL_CMD.addr w)) ∧
  -- SPL_RESYNC (R378)
  (∀ (s : State) (i : Iface) (w : Word),
    s.goes (.splResync i w) (if F.SPL_CMD_RESYNC.on w then s.splCmd i w else s.wlogNote i F.SPL_CMD.addr w)) ∧
  -- SPL_COMMIT (R399)
  (∀ (s : State) (i : Iface) (w : Word),
    s.goes (.splCommit i w) (
      let s := s.wlogNote i F.SPL_COMMIT.addr w
      let t : State := (if F.SPL_COMMIT_GO.on w then s.commit i 11 [0] splRules else s)
      t))

/-- The commands of Splice messages: each answers, under the conditions named, the next state its rule gives, and so leaves all else as it stands.  Clauses
rest on the model's choices of the log entries 27, 42, 44, 55, 58, 120, 137. -/
def Obligations.SpliceMessageCommandsComplete : Prop :=
  -- SPL_HEARTBEAT_SEND (R376)
  (∀ (s : State),
    s.get F.SPL_STATUS_LINK = 2 →
    (s.link 0).lastTx + msTicks 1 ≤ s.tick →
    s.goes .splHeartbeatSend (
      let s := s.onLink 0 (fun x => { x with lastTx := s.tick })
      let s := s.splSend 0x10 (le s.role 1 ++ le (s.get F.SPL_OWN_TERM_TERM) 4 ++ le s.sfStart 8 ++ le s.sfn 2 ++ le (s.jrnSeq - 1) 8
        ++ le s.splApplied 8)
      let s := (if s.splOwnerUp then s.bulkImages 610 else s).oweSend s.spl.owe
      let t : State := (s.wantLate.switchGo).serve
      t)) ∧
  -- SPL_HEARTBEAT (R376)
  (∀ (s : State) (seq : BitVec 64) (role : Fin 6) (term : BitVec 32) (start : BitVec 64) (sfn : BitVec 16),
    ∀ s₁, s.linkTake 0 seq.toNat = some s₁ →
    s.goes (.splHeartbeat seq role term start sfn) (
      let s := s₁
      let s := s.onSpl (fun x => { x with term := term.toNat, peerRole := role.val })
      if role.val ≠ 2 then s
      else
        let s := s.onSpl (fun x => { x with grid := some (start.toNat, sfn.toNat) })
        let claims := s.spl.claimAt.isSome || s.spl.retryAt.isSome
        let s := if claims then
            let was := s.spl.was
            let s := s.onSpl (fun x => { x with claimAt := none, split := false, retryAt := none, start := none })
            (s.put F.SPL_STATUS_ROLE 0 (if was = 4 then 4 else 3)).driveOwnOut false
          else s
        let t : State := (if s.role = 5 then s.put F.SPL_STATUS_ROLE 0 3 else s)
        t)) ∧
  -- SPL_JRN (R377)
  (∀ (s : State) (seq : BitVec 64) (jseq : BitVec 64) (sess : BitVec 16) (kind : Fin 3) (offset : Fin 2048) (data : List Byte),
    ∀ s₁, s.linkTake 0 seq.toNat = some s₁ →
    s.goes (.splJrn seq jseq sess kind offset data) (
      let s := s₁
      let k := sess.toNat
      if !s.standsBy then s
      else
        let s := { s with jrnSeq := max s.jrnSeq (jseq.toNat + 1) }
        let s := if kind.val = 1 then
            let r := s.imagePut k (sealImage (padTo 2048 data) jseq.toNat)
            r.1.gotSet k (r.2 && r.1.hasCtx k)
          else if s.spl.got.contains k then
            let s := s.imageEdit k jseq.toNat [(offset.val, data)]
            if s.hasCtx k then s else (s.imagePut k []).1.gotSet k false
          else s
        s.splAck)) ∧
  -- SPL_VAULT (R377)
  (∀ (s : State) (seq : BitVec 64) (sess : BitVec 16) (txc : BitVec 32) (rxm : BitVec 32) (epoch : BitVec 16) (prov : BitVec 16) (sent : Fin 4096),
    ∀ s₁, s.linkTake 0 seq.toNat = some s₁ →
    s.goes (.splVault seq sess txc rxm epoch prov sent) (
      let s := s₁
      let k := sess.toNat
      if !s.standsBy then s
      else
        let s := s.vaultWrite (8 * k) (le txc.toNat 4 ++ le rxm.toNat 4) (.mirror seq.toNat)
        let s := s.vaultWrite (0x080000 + 8 * k) (keyStateBytes epoch.toNat prov.toNat sent.val 1) (.mirror seq.toNat)
        let t : State := (if k = 0xFFFF ∧ s.role = 3 then s.onSpl (fun x => { x with bulkTo := some (seq.toNat, 0) }) else s)
        t)) ∧
  -- SPL_PLAN (R379)
  (∀ (s : State) (seq : BitVec 64) (members : List PlanMember) (ended : Option (BitVec 16)),
    ∀ s₁, s.linkTake 0 seq.toNat = some s₁ →
    s.goes (.splPlan seq members ended) (
      let s := s₁
      if !s.standsBy then s
      else
        let new := members.map (fun (m : PlanMember) =>
          (⟨m.session.toNat, m.cls.val, m.request.val, m.attempt.val, m.ports.map (·.val), m.t0, m.t1⟩ : MirPlan))
        let kept := s.mirPlans.filter (fun m => !new.any (fun x => x.session == m.session) && ended.map (·.toNat) != some m.session)
        let t : State := { s with mirPlans := kept ++ new }.splAck
        t)) ∧
  -- SPL_ROUTE (R376)
  (∀ (s : State) (seq : BitVec 64) (dest : BitVec 16) (next : BitVec 16) (metric : BitVec 8) (hops : Fin 16) (valid : Bool) (age : BitVec 16),
    ∀ s₁, s.linkTake 0 seq.toNat = some s₁ →
    s.goes (.splRoute seq dest next metric hops valid age) (
      let s := s₁
      if !s.standsBy then s
      else
        let e : RouteE := ⟨dest.toNat, next.toNat, metric.toNat, hops.val, s.tick - sTicks age.toNat⟩
        let s := s.onMac (fun m => { m with
          routes := m.routes.filter (fun x => x.dest != e.dest) ++ (if valid then [e] else []) })
        s.splAck)) ∧
  -- SPL_CTX (R378)
  (∀ (s : State) (seq : BitVec 64) (sess : BitVec 16) (image : List Byte),
    ∀ s₁, s.linkTake 0 seq.toNat = some s₁ →
    s.goes (.splCtx seq sess image) (
      let s := s₁
      let k := sess.toNat
      let st := (image.getD 0 0).toNat % 4
      if s.standsBy then
        let r := s.imagePut k (padTo 2048 image)
        let s := r.1.gotSet k (r.2 && (st == 1 || st == 2))
        let s := if s.role = 3 then s.put F.SPL_SYNC_STAT_CONTEXTS 0 (k + 1) else s
        let s := s.splAck
        let t : State := (if k = 65535 ∧ s.role = 3 then (s.put F.SPL_STATUS_ROLE 0 4).raise Ev.SPL_SYNCED 0 else s)
        t
      else if (s.slot k).st = 3 ∧ (st = 1 ∨ st = 2) then
        let missed := s.spl.want.filter (fun x => decide (x < k))
        let s := s.onSpl (fun x => { x with want := x.want.filter (fun y => decide (k ≤ y)) })
        let s := if missed.isEmpty then s
          else if s.cacheOnly then missed.foldl (fun (s : State) k => s.ctxLost k) s
          else s.headendRestore missed
        let t : State := ((s.ctxBack k image).restoreEnd).serve
        t
      else s)) ∧
  -- SPL_ACK (R377)
  (∀ (s : State) (seq : BitVec 64) (upTo : BitVec 64),
    ∀ s₁, s.linkTake 0 seq.toNat = some s₁ →
    s.goes (.splAck seq upTo) (
      let s := s₁
      let n := upTo.toNat
      let acked := s.splOut.filter (fun m => m.kind == 0x12 && decide (m.seq ≤ n))
      let ks : List Nat := (acked.map (fun m => ofLe (m.body.take 2))).filter s.hasCtx
      let s := { s with splOut := s.splOut.filter (fun m => !(decide (0x11 ≤ m.kind) && decide (m.kind ≤ 0x15) && decide (m.seq ≤ n))) }
      let s := s.bulkAcked n
      let s := ks.foldl (fun (s : State) k =>
        if s.txLow k (s.ctxNum k 0x188 4) then s.txReserve k else s) s
      let t : State := (s.serve).switchGo
      t)) ∧
  -- SPL_AUDIT (R380)
  (∀ (s : State) (seq : BitVec 64) (first : Fin 1024) (result : BitVec 32),
    ∀ s₁, s.linkTake 0 seq.toNat = some s₁ →
    s.goes (.splAudit seq first result) (
      let s := s₁
      let f := 64 * first.val
      if !s.splV2 then s
      else if s.standsBy then
        let r := s.auditReady
        match r.2 with
        | none => r.1
        | some (k, u) =>
          let s := r.1.auditResult u f
          let res := s.live (F.CHK_RESULT.addr + chkO u)
          let s := (s.setLive (F.CHK_EXPECT.addr + chkO u) result).chkCompare u
          let s := s.splSend 0x17 (le f 2 ++ le (s.jrnSeq - 1) 8 ++ [1] ++ le res.toNat 4)
          let t : State := s.auditCount k (res != result)
          t
      else match s.spl.audit, s.auditJob with
        | some (g, mine), some k =>
          if g ≠ f then s
          else
            let u := (s.job k).deadline - 1
            let s := (s.setLive (F.CHK_EXPECT.addr + chkO u) result).chkCompare u
            let bad := mine != result.toNat
            let s := if bad then
                let s := (s.incSat F.SPL_CNT_B_AUDIT_MISMATCH).raise Ev.MIRROR_RESYNC f
                (auditSessions f).foldl (fun (s : State) n => s.splSend 0x15 (s.ctxMsg n)) s
              else s
            let s := (auditSessions f).foldl (fun (s : State) n => if s.leasedBy n 6 then s.leaseEnd n else s) s
            let t : State := ((s.onSpl (fun x => { x with audit := none })).auditCount k bad).serve
            t
        | _, _ => s)) ∧
  -- SPL_SWITCH (R375)
  (∀ (s : State) (seq : BitVec 64),
    ∀ s₁, s.linkTake 0 seq.toNat = some s₁ →
    s.goes (.splSwitch seq) (
      let s := s₁
      if s.role ≠ 4 ∨ !s.splV2 then s
      else if s.ownIn then (s.onSpl (fun x => { x with switchTo := true }))
      else s.claim)) ∧
  -- SPL_CTX_REQ (R381)
  (∀ (s : State) (seq : BitVec 64) (first : BitVec 16) (last : BitVec 16),
    ∀ s₁, s.linkTake 0 seq.toNat = some s₁ →
    s.goes (.splCtxReq seq first last) (
      let s := s₁
      let ks := (List.range (last.toNat + 1 - first.toNat)).map (· + first.toNat)
      let s := s.onSpl (fun x => { x with owe := x.owe.filter (fun k => !ks.contains k) ++ ks })
      let t : State := (s.oweSend s.spl.owe).serve
      t)) ∧
  -- MIRROR_AUDIT_STEP (R380)
  (∀ (s : State),
    s.auditTurn = true →
    s.goes .mirrorAuditStep (
      let r := s.auditReady
      match r.2 with
      | none => r.1
      | some (k, u) =>
        let s := r.1
        if (s.job k).cancel then (s.jobBoundary k none)
        else
          let first := 64 * ((s.job k).cursor % 1024)
          let ks := (auditSessions first).filter (fun n => n != 0 && s.hasCtx n)
          let l := ks.foldl (fun (a : State × Bool) n => let x := a.1.mirrorLease n; (x.1, a.2 && x.2)) (s, true)
          if !l.2 then l.1.serve
          else
            let s := l.1.onSpl (fun x => { x with auditAt := l.1.tick })
            if (auditSessions first).any (fun n => (s.slot n).st == 3) then
              let s := ks.foldl (fun (s : State) n => if s.leasedBy n 6 then s.leaseEnd n else s) s
              let t : State := ((s.chkVoid u 4 2).auditCount k false).serve
              t
            else
              let s := s.auditResult u first
              let res := s.live (F.CHK_RESULT.addr + chkO u)
              let s := s.splSend 0x17 (le first 2 ++ le (s.jrnSeq - 1) 8 ++ [1] ++ le res.toNat 4)
              let t : State := s.onSpl (fun x => { x with audit := some (first, res.toNat) })
              t))

/-- The commands of Braid messages and timers: each answers, under the conditions named, the next state its rule gives, and so leaves all else as it stands.  Clauses
rest on the model's choices of the log entries 45, 53, 54, 55, 61, 88. -/
def Obligations.BraidMessageCommandsComplete : Prop :=
  -- BRD_KEEPALIVE_SEND (R368)
  (∀ (s : State) (p : Fin 2),
    let x := s.link (p.val + 1)
    s.linkSt (p.val + 1) = 2 →
    x.lastTx + usTicks 250 ≤ s.tick →
    s.brdOut.any (fun m => m.1 == p.val && m.2.kind == 0x20) = false →
    s.goes (.brdKeepaliveSend p) (s.brdQueue p.val (brdHdr 0x20 0 0 s.nodeId 1 0))) ∧
  -- BRD_KEEPALIVE (R384)
  (∀ (s : State) (h : BHdr),
    ∀ s₁, s.brdTake h 0x20 [] = some s₁ →
    s.goes (.brdKeepalive h) (
      let s := s₁
      let t : State := s.put F.BRD_PORT_STAT_NEIGHBOUR (bpO h.port.val) h.src.toNat
      t)) ∧
  -- WALK_START (R386)
  (∀ (s : State),
    s.brd.walkOwed.isSome = true →
    s.goes .walkStart (s.walkStart)) ∧
  -- KNOT_WALK_TIMER (R386)
  (∀ (s : State),
    s.bit F.BRD_STATUS_KNOT = true →
    s.brd.walkAt + sTicks 10 ≤ s.tick →
    s.goes .knotWalkTimer (s.walkStart)) ∧
  -- BRD_WALK (R386)
  (∀ (s : State) (h : BHdr) (entries : List WalkE) (split : Option Nat),
    ∀ s₁, s.brdTake h 0x21 (walkBytes entries split) = some s₁ →
    s.goes (.brdWalk h entries split) (
      let s := s₁
      let t : State := s.walkTake h entries split
      t)) ∧
  -- BRD_TOPOLOGY (R386)
  (∀ (s : State) (h : BHdr) (nodes : List NodeE) (broken : Option Nat) (knot : Nat) (master : Option Nat),
    ∀ s₁ here, s.brdIn h 0x22 (topoBytes nodes broken knot master) = some (s₁, here) →
    s.goes (.brdTopology h nodes broken knot master) (
      let s := s₁
      let t : State := (if here then s.topoApply nodes broken knot master else s)
      t)) ∧
  -- DELAY_EXCHANGE_TIMER (R388)
  (∀ (s : State) (p : Fin 2),
    let n := p.val
    s.brdTakes n 0x23 = true →
    tget (fun _ => 0) s.brd.delayAt n + s.brdInterval ≤ s.tick →
    s.goes (.delayExchangeTimer p) (
      let s := s.onBrd (fun b => { b with delayAt := tset (fun _ => 0) b.delayAt n s.tick, reqs := tset (fun _ => none) b.reqs n none })
      let t : State := s.brdQueue n (brdHdr 0x23 0 0 s.nodeId 1 0 ++ le 0 1)
      t)) ∧
  -- BRD_DELAY_REQ (R388)
  (∀ (s : State) (h : BHdr),
    ∀ s₁, s.brdTake h 0x23 (le 0 1) = some s₁ →
    s.goes (.brdDelayReq h) (
      let s := s₁
      let t : State := s.brdQueue h.port.val (brdHdr 0x23 0 h.src.toNat s.nodeId 1 0 ++ le 1 1 ++ le s.tick 8)
      t)) ∧
  -- BRD_DELAY_RESP (R388)
  (∀ (s : State) (h : BHdr) (t2 : BitVec 64) (t3 : BitVec 64),
    let p := h.port.val
    ∀ s₁, s.brdTake h 0x23 (le 1 1 ++ le t2.toNat 8 ++ le t3.toNat 8) = some s₁ →
    s.goes (.brdDelayResp h t2 t3) (
      let s := s₁
      match tget (fun _ => none) s.brd.reqs p with
      | none => s
      | some t1 =>
        let d : Int := ((s.tick : Int) - t1) - ((t3.toNat : Int) - t2.toNat)
        let l := (tget (fun _ => []) s.brd.delays p ++ [d])
        let l := l.drop (l.length - 8)
        let mean := roundAway (((l.foldl (· + ·) 0 : Int) : Rat) / (2 * (l.length : Rat)))
        let s := s.onBrd (fun b => { b with delays := tset (fun _ => []) b.delays p l, reqs := tset (fun _ => none) b.reqs p none })
        let t : State := s.put F.BRD_PORT_STAT_DELAY (bpO p) (min 65535 mean.toNat)
        t)) ∧
  -- TIME_SEND_TIMER (R388)
  (∀ (s : State),
    s.bit F.BRD_TIME_STAT_IS_MASTER = true →
    s.bit F.BRD_CTRL_TIME_EN = true →
    s.brd.timeAt + s.brdInterval ≤ s.tick →
    s.goes .timeSendTimer (
      let s := s.onBrd (fun b => { b with timeAt := s.tick })
      let t : State := ([0, 1].foldl (fun (s : State) p =>
        if s.brdTakes p 0x24 then
          s.brdQueue p (brdHdr 0x24 0 0 s.nodeId 64 0 ++ timeBytes 0 0 (s.bit F.CLK_STATUS_PPS_LOCK))
        else s) s)
      t)) ∧
  -- BRD_TIME (R388)
  (∀ (s : State) (h : BHdr) (value : BitVec 64) (corr : BitVec 64) (pps : Bool),
    let p := h.port.val
    ∀ s₁, s.brdTake h 0x24 (timeBytes value.toNat corr.toInt pps) = some s₁ →
    s.goes (.brdTime h value corr pps) (
      let s := s₁
      if h.src.toNat = s.nodeId then s
      else
        let delay := s.get F.BRD_PORT_STAT_DELAY (bpO p)
        let ofs : Int := s.tick - ((value.toNat : Int) + corr.toInt + delay)
        let fwd := s.bit F.BRD_CTRL_TIME_EN
        let s := if fwd then s.brdForward h 0x24 (timeBytes value.toNat (corr.toInt + delay) pps) else s
        let t : State := (if !s.bit F.BRD_TIME_STAT_IS_MASTER && s.timeUses p h.wrapped then s.timeUse ofs (65 - h.hops.toNat) pps else s)
        t)) ∧
  -- BRD_MESH_RELAY (R307)
  (∀ (s : State) (h : BHdr) (site : BitVec 6) (rfs : Fin 32) (rssi : BitVec 16) (snr : BitVec 16) (time : BitVec 64) (mpdu : List Byte),
    let body := le site.toNat 1 ++ le rfs.val 1 ++ le rssi.toNat 2 ++ le snr.toNat 2 ++ le time.toNat 8 ++ le mpdu.length 2 ++ mpdu
    ∀ s₁ here, s.brdIn h 0x26 body = some (s₁, here) →
    s.goes (.brdMeshRelay h site rfs rssi snr time mpdu) (
      let s := s₁
      if !here then s
      else
        let m := macOf mpdu
        let s := s.incSat F.MSH_CNT_OUT_HANDOFF_RCVD
        let s := if fcsGood mpdu && m.secured then s.hoWatch m.src site.toNat rssi.toInt else s
        let b : Body := {
          rx := 576 + rfs.val, group := [], hdr := ⟨mpdu.length, 0, 0, 0, s.verOf m.src, false, 0⟩, prio := (s.slot m.src).prio, tick := s.tick
          blockNo := none, vals := [], collided := [], snr := snr.toInt, sync := time.toNat, syncs := [], erasedPct := 0, rssi := rssi.toInt
          via := some site.toNat }
        let t : State := (s.judge b mpdu).serve
        t)) ∧
  -- BRD_BROADCAST (R391)
  (∀ (s : State) (h : BHdr) (record : List Byte),
    ∀ s₁ here, s.brdIn h 0x27 record = some (s₁, here) →
    s.goes (.brdBroadcast h record) (
      let s := s₁
      let t : State := (if here then s.fabricRecord record else s)
      t))

/-- The commands of handover, fabric commands, the Bight and Braid membership: each answers, under the conditions named, the next state its rule gives, and so leaves all else as it stands.  Clauses
rest on the model's choices of the log entries 45, 46, 51, 52, 55, 88, 91. -/
def Obligations.HandoverFabricAndBightCommandsComplete : Prop :=
  -- BRD_BCAST_CMD (R391)
  (∀ (s : State) (i : Iface) (w : Word),
    s.goes (.brdBcastCmd i w) (
      let s := s.wlogNote i F.BRD_BCAST_CMD.addr w
      if !F.BRD_BCAST_CMD_GO.on w then s
      else
        let n := F.BRD_BCAST_CMD_LENGTH.of w
        let r := s.rawBytes 0 n
        let t : State := (s.brdCast 0x27 r).fabricRecord r
        t)) ∧
  -- BRD_HO_CMD (R389)
  (∀ (s : State) (i : Iface) (w : Word),
    s.goes (.brdHoCmd i w) (
      let s := s.wlogNote i F.BRD_HO_CMD.addr w
      let node := F.BRD_HO_CMD_TARGET.of w
      let t : State := (if F.BRD_HO_CMD_GO.on w ∧ node ≠ s.nodeId then s.hoAsk (F.BRD_HO_CMD_SESSION.of w) node else s)
      t)) ∧
  -- BRD_HO_OFFER (R390)
  (∀ (s : State) (h : BHdr) (eui : BitVec 64) (addr : BitVec 16) (image : List Byte) (entry : List Byte),
    s.goes (.brdHoOffer h eui addr image entry) (
      (s.hoIn h (hoBytes 0 addr.toNat (le eui.toNat 8 ++ entry ++ image)) (fun (s : State) n =>
        s.hoJudge n addr.toNat eui.toNat image entry)))) ∧
  -- BRD_HO_ACCEPT (R390)
  (∀ (s : State) (h : BHdr) (addr : BitVec 16) (payload : List Byte),
    s.goes (.brdHoAccept h addr payload) (
      (s.hoIn h (hoBytes 1 addr.toNat payload) (fun (s : State) n =>
        match s.hoOf addr.toNat n with
        | none => s
        | some x =>
          let x := { x with payload := payload }
          let s := { s with hoOut := s.hoOut.map (fun (y : HoOut) => if y.session = x.session then x else y) }
          if s.holdsPair x.session then s else s.hoAssign x)))) ∧
  -- BRD_HO_REFUSE (R390)
  (∀ (s : State) (h : BHdr) (addr : BitVec 16) (cause : Fin 4),
    s.goes (.brdHoRefuse h addr cause) (
      (s.hoIn h (hoBytes 2 addr.toNat (le cause.val 1)) (fun (s : State) n =>
        match s.hoOf addr.toNat n with
        | none => s
        | some x => (s.put F.BRD_HO_STAT_REFUSE_CAUSE 0 cause.val).hoEnd x 2)))) ∧
  -- BRD_HO_DONE (R390)
  (∀ (s : State) (h : BHdr) (addr : BitVec 16),
    s.goes (.brdHoDone h addr) (
      (s.hoIn h (hoBytes 3 addr.toNat []) (fun (s : State) n =>
        match s.hoOf addr.toNat n with
        | none => s
        | some x => ((s.hoDelete x.session).incSat F.BRD_CNT_B_HANDOVERS).hoEnd x 1)))) ∧
  -- BRD_HO_FAIL (R390)
  (∀ (s : State) (h : BHdr) (addr : BitVec 16),
    s.goes (.brdHoFail h addr) (
      (s.hoIn h (hoBytes 4 addr.toNat []) (fun (s : State) n =>
        match s.hoOf addr.toNat n with
        | none => s
        | some x => s.hoEnd x 3)))) ∧
  -- HO_ACK_TIMEOUT (R390)
  (∀ (s : State) (sess : BitVec 16),
    let k := sess.toNat
    ∀ a, s.rassoc k = some a →
    ∀ node addr, a.ho = some (node, addr) →
    s.get F.PLN_ASSOC_ASSIGN_TRIES ≤ a.active →
    s.goes (.hoAckTimeout sess) (
      let s := s.onMac (fun m => { m with assocs := m.assocs.filter (fun x => x.session != k) })
      let s := ((s.slotFree k 7).brdSend 0x25 node (hoBytes 4 addr [])).1
      let t : State := (((s.hoShow k node 3).raise Ev.HANDOVER_END k).hoServe).serve
      t)) ∧
  -- BRD_JOIN_RING (R394)
  (∀ (s : State) (i : Iface) (w : Word),
    s.goes (.brdJoinRing i w) (s.brdCtrl i w)) ∧
  -- BIGHT_LANE1_OPEN (R394)
  (∀ (s : State),
    ∀ t, s.brd.taps = some t →
    s.get F.BRD_BIGHT_STAT_STATE = 0 →
    s.bit F.BRD_CTRL_EN = true →
    s.bit F.BRD_CTRL_LEAVE = false →
    s.brd.retryAt.isSome = false →
    t + msTicks 100 ≤ s.tick →
    s.up.clockLost = false →
    s.up.tap ≠ 1 →
    s.goes .bightLane1Open (
      let s := (s.put F.BRD_BIGHT_STAT_STATE 0 1).bightOp 1
      let s := s.onBrd (fun b => { b with taps := none, openAt := s.tick, cut := none, agreed := [], lane0 := false })
      let t : State := (s.linkRest 1).linkRest 2
      t)) ∧
  -- BIGHT_CUTOVER_QUEUE (R394)
  (∀ (s : State),
    s.goes .bightCutoverQueue (
      let due := fun (c : Nat) => decide (c ≤ s.tick + msTicks 1)
      let ps := (s.brd.cuts.filter (fun x => !x.2.2 && due x.2.1)).map (·.1)
      let s := s.onBrd (fun b => { b with held := b.held ++ ps.filter (fun p => !b.held.contains p) })
      match s.brd.cut with
      | some c => (if s.get F.BRD_BIGHT_STAT_STATE = 1 ∧ !s.brd.lane0 ∧ due c ∧ !s.cutAgreed then s.insertFail else s)
      | none => s)) ∧
  -- BIGHT_CUTOVER (R394)
  (∀ (s : State),
    s.goes .bightCutover (
      let s := (s.brd.cuts.filter (fun x => decide (x.2.1 ≤ s.tick))).foldl (fun (s : State) x => s.cutHere x) s
      match s.brd.cut with
      | none => s
      | some c =>
        if s.tick < c then s
        else if s.brd.leaving then s.ringLeft.serve
        else if s.get F.BRD_BIGHT_STAT_STATE ≠ 1 ∨ s.brd.lane0 then s
        else if !s.cutAgreed then s.insertFail
        else
          let s := s.onBrd (fun b => { b with lane0 := true })
          let t : State := (s.lanesShow 1).lanesShow 2
          t)) ∧
  -- BIGHT_MEMBER (R394)
  (∀ (s : State),
    ∀ c, s.brd.cut = some c →
    s.get F.BRD_BIGHT_STAT_STATE = 1 →
    s.brd.lane0 = true →
    s.goes .bightMember (
      if c + msTicks 5 < s.tick then s.insertFail
      else
        let sides := s.insertSides
        if !sides.all (fun p => ((s.link (p + 1)).lanes).testBit 0) then s
        else
          let s := (s.put F.BRD_BIGHT_STAT_STATE 0 2).bightOp 1
          let s := s.onBrd (fun b => { b with cut := none, agreed := [], lane0 := false, backoff := 1 })
          let s := sides.foldl (fun (s : State) p =>
            let s := s.onLink (p + 1) (fun x => { x with lastRx := s.tick, lastTx := s.tick })
            (s.setLinkSt (p + 1) 2).brdPortUp p) s
          let t : State := ((s.lanesShow 1).lanesShow 2).onBrd (fun b => { b with walkOwed := some s.tick })
          t)) ∧
  -- BIGHT_INSERT_RETRY (R394)
  (∀ (s : State),
    ∀ t, s.brd.retryAt = some t →
    t ≤ s.tick →
    s.goes .bightInsertRetry ((s.onBrd (fun b => { b with retryAt := none })).tapsRefresh)) ∧
  -- BRD_LEAVE (R395)
  (∀ (s : State) (i : Iface) (w : Word),
    s.goes (.brdLeave i w) (s.brdCtrl i w)) ∧
  -- BRD_COMMIT (R401)
  (∀ (s : State) (i : Iface) (w : Word),
    s.goes (.brdCommit i w) (
      let s := s.wlogNote i F.BRD_COMMIT.addr w
      let t : State := (if F.BRD_COMMIT_GO.on w then s.commit i 12 [0, 1] brdRules else s)
      t)) ∧
  -- BIGHT_CUTOVER_PROPOSAL (R394)
  (∀ (s : State) (p : Fin 2) (cut : BitVec 64) (kind : Fin 3) (leaving : Bool),
    s.goes (.bightCutoverProposal p cut kind leaving) (
      let n := p.val
      let c := cut.toNat
      let st := s.get F.BRD_BIGHT_STAT_STATE
      match kind.val with
      | 0 =>
        let ready : Bool := match s.insertionAt n with | some e => e.2.2 | none => false
        let ok := s.linkSt (n + 1) == 2 && st == 2 && decide (s.tick < c) && (leaving || ready) && !s.brd.cuts.any (fun x => x.1 == n)
        let s := if ok then s.onBrd (fun b => { b with cuts := b.cuts ++ [(n, c, leaving)] }) else s
        let t : State := s.cutSend n (if ok then 1 else 2) c leaving
        t
      | 1 => (if s.brd.cut = some c then s.onBrd (fun b => { b with agreed := if b.agreed.contains n then b.agreed else b.agreed ++ [n] }) else s)
      | _ => (if st = 1 ∧ s.brd.cut = some c ∧ !s.brd.lane0 then s.insertFail else s)))

/-- The commands of Halyard: each answers, under the conditions named, the next state its rule gives, and so leaves all else as it stands.  Clauses
rest on the model's choices of the log entries 20, 31, 56, 57, 91, 116. -/
def Obligations.HalyardCommandsComplete : Prop :=
  -- HAL_LINK_UP (R403)
  (∀ (s : State) (p : Fin 2),
    let n := p.val
    s.halRuns = true →
    s.halUp n = false →
    s.goes (.halLinkUp p) (
      let s := (s.putBit F.HAL_STATUS_LINK 0 n true).onHal (fun h => if n = 0 then { h with h0At := s.tick } else h)
      let s := (s.raise Ev.HAL_LINK_UP n).halChoose
      let t : State := (if s.halPort = some n ∧ !s.bit F.HAL_STATUS_NEGOTIATED then s.halHello else s)
      t)) ∧
  -- HAL_LINK_DOWN (R403)
  (∀ (s : State) (p : Fin 2),
    s.goes (.halLinkDown p) (s.halDown p.val)) ∧
  -- HAL_PORT_RETURN (R404)
  (∀ (s : State),
    s.get F.HAL_CFG_PORTS = 2 →
    s.get F.HAL_STATUS_SENDING = 1 →
    s.halUp 0 = true →
    s.hal.h0At + sTicks 10 ≤ s.tick →
    s.goes .halPortReturn ((s.onHal (fun h => { h with back := true })).halChoose)) ∧
  -- HAL_FRAME_RECEIVE (R406)
  (∀ (s : State) (p : Fin 2) (frame : List Byte),
    let n := p.val
    s.halUp n = true →
    s.goes (.halFrameReceive p frame) (
      if !s.halNames n then (s.incSat F.HAL_CNT_DROP_FILTER)
      else
        let r := if s.msecOn n then s.msecTake n frame else (s, some frame)
        match r.2 with
        | none => r.1
        | some f =>
          let s := r.1.snoop 5 n f
          match s.halFilter f with
          | none => (s.incSat F.HAL_CNT_DROP_FILTER)
          | some l => (s.halPayloadTake n l).serve)) ∧
  -- HAL_HELLO_SEND (R409)
  (∀ (s : State),
    s.bit F.HAL_STATUS_NEGOTIATED = false →
    s.halPort.isNone = false →
    s.hal.helloAt + sTicks 1 ≤ s.tick →
    s.goes .halHelloSend (s.halHello)) ∧
  -- HAL_NEGOTIATION_END (R409)
  (∀ (s : State),
    ∀ t, s.hal.downAt = some t →
    s.bit F.HAL_STATUS_NEGOTIATED = true →
    t + sTicks 1 ≤ s.tick →
    s.goes .halNegotiationEnd (s.negotiationEnd)) ∧
  -- HAL_VERSION (R409)
  (∀ (s : State) (version : BitVec 8),
    s.halRuns = true →
    s.goes (.halVersion version) (((s.incWrap F.HAL_CNT_RX_RECORDS).halVersion version.toNat).serve)) ∧
  -- HAL_COMMAND (R417)
  (∀ (s : State) (p : Fin 2) (flags : BitVec 8) (body : List Byte),
    s.halUp p.val = true →
    s.goes (.halCommand p flags body) (
      if !s.halNames p.val then (s.incSat F.HAL_CNT_DROP_FILTER)
      else if !s.bit F.HAL_STATUS_NEGOTIATED then (s.incSat F.HAL_CNT_DROP_NOT_NEGOTIATED)
      else if body.length < 8 then (s.incSat F.HAL_CNT_DROP_FORMAT)
      else ((s.incWrap F.HAL_CNT_RX_RECORDS).halCommand (if p.val = 0 then .h0 else .h1) flags.toNat body))) ∧
  -- HAL_COMMIT (R439)
  (∀ (s : State) (i : Iface) (w : Word),
    s.goes (.halCommit i w) (
      let s := s.wlogNote i F.HAL_COMMIT.addr w
      let t : State := (if F.HAL_COMMIT_GO.on w then (s.commit i 13 [0] halRules).halApply else s)
      t)) ∧
  -- HAL_MSEC_INSTALL (R414)
  (∀ (s : State) (i : Iface) (p : Fin 2) (w : Word),
    s.goes (.halMsecInstall i p w) (s.msecCmd i p.val w)) ∧
  -- HAL_MSEC_ENABLE (R414)
  (∀ (s : State) (i : Iface) (p : Fin 2) (w : Word),
    s.goes (.halMsecEnable i p w) (s.msecCmd i p.val w)) ∧
  -- HAL_MSEC_DISABLE (R414)
  (∀ (s : State) (i : Iface) (p : Fin 2) (w : Word),
    s.goes (.halMsecDisable i p w) (s.msecCmd i p.val w))

/-- The commands of head-end commands, the management port and events: each answers, under the conditions named, the next state its rule gives, and so leaves all else as it stands.  Clauses
rest on the model's choices of the log entries 36, 47, 57, 88, 117. -/
def Obligations.HostCommandAndManagementCommandsComplete : Prop :=
  -- CMD_METER_COMMAND (R228)
  (∀ (s : State),
    ∀ s₁ u1 b, s.cmdHead 1 = some (s₁, u1, b) →
    s.goes .cmdMeterCommand (
      let s := s₁
      let k := cmdSesOf b
      if (s.slot k).st ≠ 2 ∨ k = 0 ∨ 0xFFFE ≤ k then (s.cmdAnswer b 9 [])
      else
        let m : MeterCmd := ⟨cmdIdOf b, k, cmdFlagsOf b, cmdDataOf b, false, 0⟩
        let t : State := ({ s with meterCmds := s.meterCmds ++ [m] }.leaseAsk k 24).serve
        t)) ∧
  -- CMD_CSR_READ (R415)
  (∀ (s : State),
    ∀ s₁ i b, s.cmdHead 2 = some (s₁, i, b) →
    s.goes .cmdCsrRead (
      let s := s₁
      let (a, n) := cmdBurst b
      if burstBad a n then (s.cmdAnswer b 5 [])
      else
        let r := s.burstRead (ifaceOf i) a n
        let t : State := r.1.cmdAnswer b 0 r.2
        t)) ∧
  -- CMD_CSR_WRITE (R415)
  (∀ (s : State),
    ∀ s₁ i b, s.cmdHead 3 = some (s₁, i, b) →
    s.goes .cmdCsrWrite (
      let s := s₁
      let (a, n) := cmdBurst b
      if burstBad a n then (s.cmdAnswer b 5 [])
      else
        let had := s.up.softAt.isSome
        let s := s.burstWrite (ifaceOf i) a n b
        let t : State := (if s.up.softAt.isSome && !had then s else s.cmdAnswer b 0 (le n 2))
        t)) ∧
  -- CMD_RAW_JOB (R415)
  (∀ (s : State),
    ∀ s₁ u1 b, s.cmdHead 4 = some (s₁, u1, b) →
    s.goes .cmdRawJob (
      let s := s₁
      let d := cmdDataOf b
      let word := fun (off : Nat) => BitVec.ofNat 32 (cmdNum b off 4)
      let part := fun (off n : Nat) => (d.drop off).take n
      let t : State := s.maskUse.rawJoin ⟨some (cmdIdOf b), word 0, word 4, word 8, part 12 16, part 28 16, s.share (part 44 32), d.drop 76, 0⟩
      t)) ∧
  -- CMD_JOB_START (R415)
  (∀ (s : State),
    ∀ s₁ i b, s.cmdHead 5 = some (s₁, i, b) →
    s.goes .cmdJobStart (
      let s := s₁
      let p := (List.range 4).map (fun j => cmdNum b (4 + 4 * j) 4)
      let r := s.jobRequest (cmdNum b 0 1) (cmdNum b 1 1) i (cmdIdOf b) p
      let s := r.1.respond (cmdIdOf b) 5 r.2.2 0 (match r.2.1 with | some k => le k 1 | none => [])
      let t : State := (if r.2.2 = 2 then s.raise Ev.CMD_REJECT (cmdIdOf b % 65536) else s)
      t)) ∧
  -- CMD_JOB_CANCEL (R415)
  (∀ (s : State),
    ∀ s₁ u1 b, s.cmdHead 6 = some (s₁, u1, b) →
    s.goes .cmdJobCancel (
      let s := s₁
      let k := cmdNum b 0 1
      if 16 ≤ k then ((s.respond (cmdIdOf b) 6 2 0 []).raise Ev.CMD_REJECT (cmdIdOf b % 65536))
      else ((s.jobCancel k).respond (cmdIdOf b) 6 1 0 []))) ∧
  -- CMD_REPLACE_ACK (R487)
  (∀ (s : State),
    ∀ s₁ u1 b, s.cmdHead 7 = some (s₁, u1, b) →
    s.goes .cmdReplaceAck (
      let s := s₁
      let t : State := (s.replaceAck (cmdNum b 0 4)).cmdAnswer b 0 []
      t)) ∧
  -- MGT_WRITE (R420)
  (∀ (s : State) (a : BitVec 24) (data : List Byte) (cut : Bool),
    s.up.run = 2 →
    s.goes (.mgtWrite a data cut) (s.mgtBegin.mgtWrite a.toNat data cut)) ∧
  -- MGT_READ (R420)
  (∀ (s : State) (a : BitVec 24) (bits : Nat),
    s.up.run = 2 →
    s.goes (.mgtRead a bits) (s.mgtBegin.mgtRead a.toNat bits)) ∧
  -- MGT_STATUS (R420)
  (∀ (s : State) (n : Nat),
    s.up.run = 2 →
    s.goes (.mgtStatus n) ({ s.mgtBegin with sdo := List.replicate n s.mgtStatusByte })) ∧
  -- MGT_ID (R420)
  (∀ (s : State) (n : Nat),
    s.up.run = 2 →
    s.goes (.mgtId n) ({ s.mgtBegin with sdo := ([0x4B#8, 0x4E#8, 0x14#8, 0x40#8] ++ List.replicate (n - 4) 0).take n })) ∧
  -- MGT_INVALID_TRANSACTION (R421)
  (∀ (s : State) (bytes : List Byte) (cut : Bool),
    s.up.run = 2 →
    s.goes (.mgtInvalidTransaction bytes cut) (
      match bytes with
      | [] => s.mgtBegin
      | c :: rest =>
        if c = 0x05 ∨ c = 0x9F then s
        else if c ≠ 0x02 ∧ c ≠ 0x03 then ({ s.mgtBegin with sdo := List.replicate rest.length 0 }.mgtError 1)
        else match rest with
        | a2 :: a1 :: a0 :: data =>
          let a := ofLe [a0, a1, a2]
          if c = 0x02 then (s.mgtBegin.mgtWrite a data cut) else (s.mgtBegin.mgtRead a (8 * data.length))
        | _ => (s.mgtBegin.mgtError 6))) ∧
  -- WRITE_LOG_ENTRY (R423)
  (∀ (s : State),
    s.goes .writeLogEntry (
      let due := fun (e : WriteLog) => decide (e.tick + sTicks 1 ≤ s.tick)
      let old : List WriteLog := s.wlog.filter due
      let s := old.foldl (fun (s : State) e => s.wlogClose e) { s with wlog := s.wlog.filter (fun e => !due e) }
      let t : State := s.put F.MGT_WLOG_STAT_OPEN 0 s.wlog.length
      t)) ∧
  -- EVENT_RECORD_DUE (R427)
  (∀ (s : State),
    s.goes .eventRecordDue (
      let lim := msTicks (s.get F.EVC_RATE_RATE_MS)
      let due : List (Nat × EvRate) := s.rates.filter (fun p => p.2.counted != 0 &&
        match p.2.last with | none => true | some t => decide (t + lim ≤ s.tick))
      let t : State := due.foldl (fun (s : State) p => s.rateDue p.1 p.2) s
      t)) ∧
  -- EVC_LATCH_CLEAR (R426)
  (∀ (s : State) (i : Iface) (g : Fin 8) (w : Word),
    s.goes (.evcLatchClear i g w) (
      let a := F.EVC_LATCH.addr + 4 * g.val
      let t : State := (s.wlogNote i a w).fieldWrite a w
      t))

/-- The commands of belay jobs and their steps: each answers, under the conditions named, the next state its rule gives, and so leaves all else as it stands.  Clauses
rest on the model's choices of the log entries 85, 120. -/
def Obligations.BelayCommandsComplete : Prop :=
  -- BLY_START (R430)
  (∀ (s : State) (i : Iface) (w : Word),
    s.goes (.blyStart i w) (
      let s := s.wlogNote i F.BLY_START.addr w
      if !F.BLY_START_GO.on w then s
      else
        let p := (List.range 4).map (fun j => s.get F.BLY_PARAM (4 * j))
        let r := s.jobRequest (F.BLY_START_KIND.of w) (F.BLY_START_PRIORITY.of w) i.id 0 p
        let t : State := (((r.1.put F.BLY_START_STAT_SLOT 0 (r.2.1.getD 0)).putB F.BLY_START_STAT_VALID 0 r.2.1.isSome).put
          F.BLY_START_STAT_RESULT 0 r.2.2)
        t)) ∧
  -- BLY_CANCEL (R433)
  (∀ (s : State) (i : Iface) (w : Word),
    s.goes (.blyCancel i w) (
      let s := s.wlogNote i F.BLY_CANCEL.addr w
      let t : State := (if F.BLY_CANCEL_GO.on w then s.jobCancel (F.BLY_CANCEL_SLOT.of w) else s)
      t)) ∧
  -- BLY_OVERRUN (R432)
  (∀ (s : State) (k : Fin 16),
    s.jobState k.val = 2 →
    s.goes (.blyOverrun k) (
      let mine : List Nat := (s.leases.filter (fun l => l.holder == 8 + k.val)).map (·.session)
      let s := mine.foldl (fun (s : State) n => s.revoke n) s
      let s' := ((s.jobEnd k.val 8 8).incSat F.BLY_CNT_OVERRUNS).raise Ev.BLY_OVERRUN k.val
      let t : State := (if s.get F.BLY_SLOT_STAT_KIND (blyO k.val) = 7 then s'.profOver else s')
      t)) ∧
  -- JOB_STATUS_REPORT (R433)
  (∀ (s : State) (k : Fin 16),
    s.jobLive k.val = true →
    (s.job k.val).statusDue ≤ s.tick →
    s.goes (.jobStatusReport k) ((s.onJob k.val (fun j => { j with statusDue := j.statusDue + sTicks (s.get F.BLY_CFG_STATUS_S) })).jobStatus k.val)) ∧
  -- SESSION_SCRUB_STEP (R434)
  (∀ (s : State) (k : Fin 16) (bad : List (BitVec 16)),
    s.jobTurn k.val 1 = true →
    s.journals = true →
    s.cxlUp = true →
    s.cxlHeld 5 = false →
    s.goes (.sessionScrubStep k bad) (
      let fin := s.rangeDone k.val 16
      let s := (s.jobRange k.val 16).foldl (fun (s : State) n => s.scrubOne k.val n (bad.contains (BitVec.ofNat 16 n))) s
      let t : State := (((s.jobMove k.val 16).jobCount k.val).jobBoundary k.val (if fin then some (5, 1) else none)).serve
      t)) ∧
  -- REKEY_SWEEP_STEP (R434)
  (∀ (s : State) (k : Fin 16),
    s.jobTurn k.val 2 = true →
    s.goes (.rekeySweepStep k) (
      let left := s.rekeyMarks.any (fun x => x.2 == k.val)
      let ks := s.jobRange k.val 256
      if ks.isEmpty then (if left then s else s.jobBoundary k.val (some (5, 1)))
      else
        let mark := ks.filter (fun n => s.sweepMarks n (s.jobParam k.val 1 % 65536))
        let fin := s.rangeDone k.val 256
        let s := { s with rekeyMarks := s.rekeyMarks ++ mark.map (fun n => (n, k.val)) }
        let s := (mark.foldl (fun (s : State) n => s.leaseAsk n (8 + k.val)) s).serve
        let s := (s.jobMove k.val 256).jobCount k.val
        let left := s.rekeyMarks.any (fun x => x.2 == k.val)
        let t : State := s.jobBoundary k.val (if fin && !left then some (5, 1) else none)
        t)) ∧
  -- CXL_SCRUB_STEP (R434)
  (∀ (s : State) (k : Fin 16) (ctxs : List (BitVec 16)) (recs : List (Fin 5 × Nat)) (other : List Nat),
    s.jobTurn k.val 4 = true →
    s.journals = true →
    s.cxlUp = true →
    s.cxlHeld 5 = false →
    s.goes (.cxlScrubStep k ctxs recs other) (
      let s := s.jobTally k.val 0 (ctxs.length + recs.length + other.length)
      let s := ctxs.foldl (fun (s : State) n => s.homePoison n.toNat) s
      let s := recs.foldl (fun (s : State) r =>
        match s.spool.find? (fun x => x.rc.cls == r.1.val && x.rc.seq == r.2 && x.rc.page != 0) with
        | some x => s.recPoison x
        | none => s) s
      let s := other.foldl (fun (s : State) a => s.cxlPoison a 0xFFFF) s
      let fin := decide (s.jobParam k.val 1 ≤ (s.job k.val).cursor + 4)
      let t : State := (((s.jobMove k.val 4).jobCount k.val).jobBoundary k.val (if fin then some (5, 1) else none)).serve
      t)) ∧
  -- LOG_EXPORT_STEP (R434)
  (∀ (s : State) (k : Fin 16),
    s.jobTurn k.val 5 = true →
    s.goes (.logExportStep k) (
      let j := s.job k.val
      let c := if 7936 ≤ j.cursor ∧ !(s.jobParam k.val 0).testBit 0 then 0 else j.cursor
      let ks := s.exportRun c j.phase
      let on := fun (s : State) (n : Nat) => s.onJob k.val (fun j => { j with cursor := c + n, phase := j.phase - n })
      if j.phase = 0 then (s.jobBoundary k.val (some (5, 1)))
      else if ks.isEmpty then
        let n := min j.phase (512 - c % 512)
        let t : State := (on s n).jobBoundary k.val (if j.phase ≤ n then some (5, 1) else none)
        t
      else
        let n := ks.length
        let body := le k.val 1 ++ le (if 7936 ≤ c then 1 else 0) 1 ++ le n 2 ++ le c 4 ++ ks.flatMap (fun x => (s.logAt x).bytes)
        let s := (((s.emit 4 0x03 0 body ks).jobTally k.val 0 n).jobCount k.val)
        let t : State := (on s n).jobBoundary k.val (if j.phase ≤ n then some (5, 1) else none)
        t)) ∧
  -- NOISE_MAP_EXPORT_STEP (R434)
  (∀ (s : State) (k : Fin 16),
    s.jobTurn k.val 6 = true →
    s.goes (.noiseMapExportStep k) (
      let a := s.jobParam k.val 0
      let p := a % 256 + (s.job k.val).cursor
      let o := setO (s.setOf p)
      let body := le p 1 ++ le (s.get F.MNS_SET_STAT_STATE o) 1 ++ [0, 0] ++ le (s.get F.MNS_PERIOD_TICKS o) 4
        ++ (List.range 128).flatMap (fun b => le (s.mapEntry p b) 8)
      let s := ((s.emit 4 0x08 0 body).jobTally k.val 0 1).jobCount k.val
      let t : State := (s.jobMove k.val 1).jobBoundary k.val (if a / 256 % 256 ≤ p then some (5, 1) else none)
      t)) ∧
  -- CXL_AUDIT_STEP (R434)
  (∀ (s : State) (k : Fin 16) (data : List Byte) (poison : Bool),
    let st := s.jobState k.val
    let waits := decide (st = 3) && s.get F.BLY_SLOT_STAT_KIND (blyO k.val) == 10 && s.jobFirst k.val
    (s.jobTurn k.val 10 || waits) = true →
    s.cxlUp = true →
    s.cxlHeld 5 = false →
    s.goes (.cxlAuditStep k data poison) (
      let s := if (s.job k.val).deadline ≠ 0 then s
        else match s.chkFree with
          | some u => (s.chkClaim u 3 4).onJob k.val (fun j => { j with deadline := u + 1, phase := 0xFFFFFFFF })
          | none => s
      let j := s.job k.val
      if j.deadline = 0 then (s.put F.BLY_SLOT_STAT_STATE (blyO k.val) 3)
      else
        let s := s.put F.BLY_SLOT_STAT_STATE (blyO k.val) 2
        let u := j.deadline - 1
        let len := s.jobParam k.val 2
        let n := min 262144 (len - j.cursor)
        if poison then
          let a := s.jobParam k.val 0 + 2 ^ 32 * (s.jobParam k.val 1 % 64) + j.cursor
          let t : State := ((s.cxlPoison a 0xFFFF).chkAbort u 1).jobBoundary k.val (some (6, 6))
          t
        else if data.length ≠ n then s
        else
          let reg := crc32cMore (BitVec.ofNat 32 j.phase) data
          let s := ((s.onJob k.val (fun j => { j with phase := reg.toNat })).jobMove k.val n).jobCount k.val
          let s := s.put F.CHK_BYTES (chkO u) (j.cursor + n)
          if len ≤ j.cursor + n then
            let crc := ~~~ reg
            let s := ((s.setLive (F.CHK_RESULT.addr + chkO u) crc).incSat F.CHK_CNT_WINDOWS (chkO u)).put
              F.CHK_STATUS_OUTCOME (chkO u) 0
            let t : State := (s.setJobData k.val 0 crc.toNat).jobBoundary k.val (some (5, 1))
            t
          else (s.jobBoundary k.val none)))

/-- The commands of NVM and self-test steps, marks and replace requests: each answers, under the conditions named, the next state its rule gives, and so leaves all else as it stands.  Clauses
rest on the model's choices of the log entries 3, 84, 85, 120. -/
def Obligations.NvmAndSelfTestCommandsComplete : Prop :=
  -- CIPHER_TEST_STEP (R334)
  (∀ (s : State) (k : Fin 16) (o : TestObs),
    s.goes (.cipherTestStep k o) (s.tstStep k.val 11 o)) ∧
  -- NVM_READ_STEP (R435)
  (∀ (s : State) (k : Fin 16) (data : List Byte) (expect : Option Word),
    s.jobTurn k.val 8 = true →
    s.nvmOp k.val = 1 →
    data.length = s.jobParam k.val 2 →
    s.goes (.nvmReadStep k data expect) (
      let s := match expect with
        | some e => s.chkExpect 0 e
        | none => s.put F.CHK_STATUS_EXPECT_VALID 0 0
      let s := (s.snoop 11 0 data).chkComplete 0 data
      let bad := expect.isSome && s.get F.CHK_STATUS_OUTCOME == 2
      let s := ((s.nvmStore 0 data).setJobData k.val 0 data.length).jobCount k.val
      let t : State := s.jobBoundary k.val (some (if bad then (6, 6) else (5, 1)))
      t)) ∧
  -- NVM_PROGRAM_STEP (R435)
  (∀ (s : State) (k : Fin 16) (same : Bool),
    let j := s.job k.val
    s.jobTurn k.val 8 = true →
    s.nvmOp k.val = 2 →
    s.goes (.nvmProgramStep k same) (
      if j.phase = 0 then
        let at_ := s.jobParam k.val 1 + j.cursor
        let n := min (256 - at_ % 256) (s.jobParam k.val 2 - j.cursor)
        let s := s.onJob k.val (fun j => { j with cursor := j.cursor + n, phase := 1, deadline := s.tick + msTicks 10 })
        let t : State := (s.jobCount k.val).jobBoundary k.val none
        t
      else if j.phase = 2 then
        ((s.jobCount k.val).jobBoundary k.val (some (if same then (5, 1) else (6, 5))))
      else s)) ∧
  -- NVM_ERASE_STEP (R435)
  (∀ (s : State) (k : Fin 16),
    let op := s.nvmOp k.val
    s.jobTurn k.val 8 = true →
    (op == 3 || op == 4) = true →
    (s.job k.val).phase = 0 →
    s.goes (.nvmEraseStep k) (
      let s := s.onJob k.val (fun j =>
        { j with cursor := if op = 3 then 4096 else 65536, phase := 1, deadline := s.tick + sTicks 3 })
      let t : State := (s.jobCount k.val).jobBoundary k.val none
      t)) ∧
  -- NVM_STATUS_POLL (R435)
  (∀ (s : State) (k : Fin 16) (busy : Bool),
    let j := s.job k.val
    s.jobTurn k.val 8 = true →
    j.phase = 1 →
    s.goes (.nvmStatusPoll k busy) (
      let s := s.jobCount k.val
      if busy then (s.jobBoundary k.val (if j.deadline ≤ s.tick then some (6, 4) else none))
      else
        let s := s.setJobData k.val 0 j.cursor
        if s.nvmOp k.val = 2 then
          let more := decide (j.cursor < s.jobParam k.val 2)
          let t : State := (s.onJob k.val (fun j => { j with phase := if more then 0 else 2 })).jobBoundary k.val none
          t
        else (s.jobBoundary k.val (some (5, 1))))) ∧
  -- SELF_TEST_STEP (R469)
  (∀ (s : State) (k : Fin 16) (o : TestObs),
    s.goes (.selfTestStep k o) (s.tstStep k.val 3 o)) ∧
  -- TEST_CORD_MOVE (R478)
  (∀ (s : State) (c : Fin 9) (toSpare : Bool),
    s.cordTalks c.val = false →
    s.goes (.testCordMove c toSpare) (
      if toSpare then
        (if !s.bit F.BST_SUBST_VALID && !s.marked 9 && s.testsCord c.val then s.spareMove c.val true false else s)
      else
        (if s.bit F.BST_SUBST_VALID && !s.bit F.BST_SUBST_PERMANENT && s.get F.BST_SUBST_CORD == c.val
          then (s.spareMove c.val false false).ladder else s))) ∧
  -- SELF_TEST_PERIODIC_START (R474)
  (∀ (s : State),
    s.bit F.BST_CFG_AUTO_EN = true →
    s.bit F.GLB_STATUS_READY = true →
    s.tst.periodAt + sTicks (3600 * s.get F.BST_CFG_PERIOD_H) ≤ s.tick →
    s.goes .selfTestPeriodicStart (
      let s := { s with tst := { s.tst with periodAt := s.tick } }
      let bits := s.get F.BST_TARGETS_TARGETS + 2 ^ 25 * s.get F.BST_TARGETS_TARGET25
      let total := ((List.range 30).filter (fun t => bits.testBit t)).foldl (fun (n : Nat) t => n + tstSteps t) 0
      match s.jobStart 3 0 4 0 [bits] total true with
      | (s, some _) => s
      | (s, none) => (s.raise Ev.BLY_SLOTS_FULL 0))) ∧
  -- BST_CLEAR_MARK (R482)
  (∀ (s : State) (i : Iface) (w : Word),
    s.goes (.bstClearMark i w) (
      let s := s.wlogNote i F.BST_CMD.addr w
      let t := F.BST_CMD_TARGET.of w
      if F.BST_CMD_CLEAR_MARK.on w && decide (t < 30) && s.marked t then
        let s := (((s.putBit F.BST_MARKED 0 t false).putB F.BST_RESULT_MARKED (wO t) false).storeMarks).segClear t
        let s := if t = 12 then s.unfence else s
        s.ladder
      else s)) ∧
  -- BST_REPLACE_ACK (R487)
  (∀ (s : State) (i : Iface) (w : Word),
    s.goes (.bstReplaceAck i w) ((s.wlogNote i F.BST_REPLACE_ACK.addr w).replaceAck (F.BST_REPLACE_ACK_REASONS.of w))) ∧
  -- BST_REPLACE_CLR (R484)
  (∀ (s : State) (i : Iface) (w : Word),
    s.goes (.bstReplaceClr i w) (
      let s := s.wlogNote i F.BST_REPLACE_CLR.addr w
      let t : State := (if F.BST_REPLACE_CLR_VAULT.on w then s.clearReason 4 else s)
      t)) ∧
  -- REPLACE_REQUEST_REPEAT (R486)
  (∀ (s : State),
    let open' := s.live F.BST_REPLACE_STAT.addr &&& ~~~ s.live F.BST_REPLACE_ACKED.addr &&& bitsMask 8 0
    open' ≠ 0 →
    s.repeatAt + sTicks (60 * s.get F.BST_REPLACE_CFG_REPEAT_MIN) ≤ s.tick →
    s.goes .replaceRequestRepeat (({ s with repeatAt := s.tick }.incSat F.BST_REPLACE_STAT_REPEATS).sendReplace))

/-- The commands of the trouble log, global registers and the TAP: each answers, under the conditions named, the next state its rule gives, and so leaves all else as it stands.  Clauses
rest on the model's choices of the log entries 10, 11, 13, 16, 50, 88, 91, 92, 94, 111, 117. -/
def Obligations.LogAndRegisterCommandsComplete : Prop :=
  -- LOG_CLEAR_PROT (R492)
  (∀ (s : State) (i : Iface) (w : Word),
    F.LOG_CMD_CLEAR_PROT.on w = true →
    s.goes (.logClearProt i w) (s.logCmd i w)) ∧
  -- LOG_MARK_EXPORTED (R496)
  (∀ (s : State) (i : Iface) (w : Word),
    F.LOG_CMD_MARK_EXPORTED.on w = true →
    s.goes (.logMarkExported i w) (s.logCmd i w)) ∧
  -- GLB_COMMIT (R505)
  (∀ (s : State) (i : Iface) (w : Word),
    s.goes (.glbCommit i w) (s.glbCommit i w)) ∧
  -- GLB_REVERT (R507)
  (∀ (s : State) (i : Iface) (w : Word),
    s.goes (.glbRevert i w) (s.glbCommit i w)) ∧
  -- GLB_TIME_CAPTURE (R513)
  (∀ (s : State) (i : Iface) (w : Word),
    s.goes (.glbTimeCapture i w) (s.timeCapture i w)) ∧
  -- GPIO_CAPTURE (R514)
  (∀ (s : State) (ball : Fin 16) (level : Bool),
    s.goes (.gpioCapture ball level) (
      let old := tget (fun _ => 0) s.up.gpio ball.val == 1
      let s := s.onUp (fun u => { u with gpio := tset (fun _ => 0) u.gpio ball.val (if level then 1 else 0) })
      let s := s.putBit F.GLB_GPIO_IN 0 ball.val level
      let s := if ball.val = 15 then s.putB F.SPL_STATUS_OWN_IN 0 level else s
      if level = old then s
      else ((List.range 4).foldl (fun (s : State) k => s.gpioStamp k ball.val level) s))) ∧
  -- WIDE_VALUE_READ (R500)
  (∀ (s : State) (i : Iface) (a : BitVec 24),
    s.goes (.wideValueRead i a) (s.regRead i a.toNat)) ∧
  -- REGISTER_WRITE (R499)
  (∀ (s : State) (i : Iface) (a : BitVec 24) (w : Word),
    s.goes (.registerWrite i a w) (s.regWrite i a.toNat w)) ∧
  -- TAP_INSTRUCTION_UPDATE (R527)
  (∀ (s : State) (ir : Fin 16),
    s.goes (.tapInstructionUpdate ir) (
      let s := s.onUp (fun u => { u with tap := tapCode ir.val })
      if s.up.tap ≠ 1 then s
      else
        let s := (List.range 144).foldl (fun (s : State) p => if s.portSt p = 3 then (s.endAll (s.pollsOn p) 5).portDrop p else s) s
        let hold := s.bit F.BRD_BIGHT_STAT_HOLD
        let t : State := (if s.get F.BRD_BIGHT_STAT_STATE = 0 then s else if s.get F.BRD_BIGHT_STAT_STATE = 1 then s.insertFail
          else s.ringLeft.putB F.BRD_BIGHT_STAT_HOLD 0 hold)
        t))

/-! ## The machine as a whole -/

/-- A step takes the command at the front of the queue and runs it with the queue's rest. -/
def Obligations.StepRunsFrontCommand : Prop :=
  ∀ (s : State) (c : Instr) (rest : List Instr), s.pending = c :: rest → step s = exec c { s with pending := rest }

/-- On an empty queue the block idles for one cycle (log entry 1, the model's choice): the queue stays empty, and the time base stands
still or advances by the ticks of one cycle, never backwards. -/
def Obligations.EmptyQueueIdles : Prop :=
  ∀ s : State, s.pending = [] → step s = .next s.idle ∧ s.idle.pending = [] ∧ s.tick ≤ s.idle.tick

/-- Every command answers a next state, in every state, and leaves the queue as it stood: nothing is refused and nothing faults. -/
def Obligations.EveryCommandAnswers : Prop :=
  ∀ (c : Instr) (s : State), ∃ t : State, exec c s = .next t ∧ t.pending = s.pending

/-- The waiting commands run first in, first out, one a step: after `k` steps the first `k` are gone and the others wait. -/
def Obligations.QueueDrainsInOrder : Prop :=
  ∀ (s : State) (k : Nat), k ≤ s.pending.length →
    ∃ t : State, Host.Core.run Sys2Proof.core k s = .next t ∧ t.pending = s.pending.drop k

/-- After every step, whatever the state before it, each status register that shows other state shows it: `IRQ_N` and `TOP` follow the
latches (R426), the domains the work (R461), `BUSY`, `FULL`, `CMD_QUEUE` and `SERVICE` the slots, the log, the queue and the reasons (R431,
R492, R440, R488), and `GLB_STATUS` the module (R510). -/
def Obligations.StatusFollowsEveryStep : Prop :=
  ∀ s t : State, step s = .next t → t.Settled

/-- The status registers show the module after reset. -/
def Obligations.StatusShownAtReset : Prop := State.reset.Settled

/-- What reset leaves (R508): every register and every shadow at its reset value, with the values the tables list for registers of every
region, no latch set, no commit pending, the time base at 0 (R443). -/
def Obligations.ResetStateOfRegisters : Prop :=
  (∀ a, State.reset.live a = resetWord a ∧ State.reset.shad a = resetWord a)
  ∧ (State.reset.live F.GLB_ID.addr = 0x4B4E1440#32 ∧ State.reset.live F.GLB_MAP_VER.addr = 0x00010000#32
    ∧ State.reset.live F.GLB_GPIO_FUNC.addr = 0x0000C000#32 ∧ State.reset.live F.GLB_STATUS.addr = 0#32)
  ∧ (∀ e, e < 256 → State.reset.evLatched e = false)
  ∧ State.reset.commits = [] ∧ State.reset.tick = 0 ∧ State.reset.log = [] ∧ State.reset.pending = []

/-- A PIN or a SOFT reset keeps the time base, the trouble log, the scratch words and the log's counts, records its kind and keeps the Vault
but for the count of Bight closings; every other register word returns to its reset value (R443, R508).  The words that follow other state
are those of `settle`. -/
def Obligations.WarmResetKeepsTimeAndLog : Prop :=
  ∀ (s : State) (c : Instr) (cause : Nat),
    (c = .pinReset ∧ s.up.run ≠ 0 ∧ cause = 2) ∨ (c = .softReset ∧ (∃ t, s.up.softAt = some t ∧ t ≤ s.tick) ∧ cause = 3) →
    ∃ t : State, exec c s = .next t ∧ t.tick = s.tick ∧ t.log = s.log ∧ t.get F.PWR_RESET_CAUSE_CAUSE = cause
      ∧ (∀ n, n < 8 → t.live (F.GLB_SCRATCH.addr + 4 * n) = s.live (F.GLB_SCRATCH.addr + 4 * n))
      ∧ (∀ a, (a = F.LOG_STAT.addr ∨ a = F.LOG_LOST.addr) → t.live a = s.live a)
      ∧ (∀ a, a ∉ [F.EVC_STATUS_IRQ.addr, F.PWR_DOMAIN_STAT_DECODE.addr, F.BLY_STAT_BUSY.addr, F.LOG_PROT_STAT_FULL.addr,
            F.HAL_STATUS_CMD_QUEUE.addr, F.BST_REPLACE_STAT_SERVICE.addr, F.GLB_STATUS_OWNER.addr, F.PWR_RESET_CAUSE.addr]
          → a ∉ keptRegs → t.live a = resetWord a)
      ∧ t.commits = [] ∧ t.wlog = [] ∧ t.jobs = [] ∧ t.exchs = [] ∧ t.own = false
      ∧ (s.vaultq = [] → ∀ a, ¬(0x100110 ≤ a ∧ a < 0x100118) → t.vaultByte a = s.vaultByte a)

/-! ## Registers -/

/-- The rows of the register map: the fields of every register lie inside its word and apart from each other. -/
def Obligations.RegisterFieldsApart : Prop :=
  ∀ (a : Nat) (r : RegRow), regRow a = some r →
    (∀ f ∈ r.fields, f.lo ≤ f.hi ∧ f.hi < 32) ∧ r.fields.Pairwise (fun f g => f.hi < g.lo ∨ g.hi < f.lo)

/-- What a read leaves: a register read changes, beside its answer and the words latched for it, nothing but what the status registers show,
and no other interface's last word; the two windows that step their own index are apart (R499, R500).  `MGT STATUS` and `MGT ID` put out bytes
and count their transaction (R420). -/
def Obligations.ReadsKeepTheMachine : Prop :=
  (∀ (s : State) (i : Iface) (a : BitVec 24), a.toNat ≠ F.FC_AUX_DATA.addr → a.toNat ≠ F.MAC_SCRIPT_DATA.addr →
    ∃ t : State, exec (.wideValueRead i a) s = .next t
      ∧ (∃ r l, { s with reply := r, rlatch := l }.RegsAndShadowsOnly t)
      ∧ t.shadow = s.shadow
      ∧ (∀ b, b ∉ [F.EVC_STATUS_IRQ.addr, F.PWR_DOMAIN_STAT_DECODE.addr, F.BLY_STAT_BUSY.addr, F.LOG_PROT_STAT_FULL.addr,
            F.HAL_STATUS_CMD_QUEUE.addr, F.BST_REPLACE_STAT_SERVICE.addr, F.GLB_STATUS_OWNER.addr] → t.live b = s.live b)
      ∧ (∀ j, j ≠ i → t.lastRead j = s.lastRead j))
  ∧ (∀ (s : State) (c : Instr) (n : Nat), s.up.run = 2 → (c = .mgtStatus n ∨ c = .mgtId n) →
    ∃ t : State, exec c s = .next t ∧ t.sdo.length = n
      ∧ { s with sdo := t.sdo }.RegsAndShadowsOnly t ∧ t.shadow = s.shadow
      ∧ t.get F.MGT_CNT_TRANSACTIONS = (s.get F.MGT_CNT_TRANSACTIONS + 1) % 2 ^ (F.MGT_CNT_TRANSACTIONS.hi + 1 - F.MGT_CNT_TRANSACTIONS.lo))

/-- A write of one word acts on each field by its own access code (R499): an RW field takes a listed encoding and no other, a W1C field
loses the bits written 1, an RWS field's shadow takes the written bits (R502), no other field's live bits change, and a word that breaks a
relation (R17) changes no live bit.  Nothing but that register and its shadow changes. -/
def Obligations.WriteActsFieldByField : Prop :=
  ∀ (s : State) (a : Nat) (w : Word) (r : RegRow) (f : RegField), regRow a = some r → f ∈ r.fields →
    let new := liveAfterWrite r a (s.live a) w
    let t := s.fieldWrite a w
    (relationOk a new = false → t.live a = s.live a)
    ∧ (relationOk a new = true → f.acc = .rw → fieldOk a f (bitsOf w f.hi f.lo) = true →
        bitsOf (t.live a) f.hi f.lo = bitsOf w f.hi f.lo)
    ∧ (f.acc = .rw → fieldOk a f (bitsOf w f.hi f.lo) = false → bitsOf (t.live a) f.hi f.lo = bitsOf (s.live a) f.hi f.lo)
    ∧ (relationOk a new = true → f.acc = .w1c → ∀ j, f.lo ≤ j → j ≤ f.hi →
        (t.live a).getLsbD j = ((s.live a).getLsbD j && !w.getLsbD j))
    ∧ (f.acc ≠ .rw → f.acc ≠ .w1c → bitsOf (t.live a) f.hi f.lo = bitsOf (s.live a) f.hi f.lo)
    ∧ (f.acc = .rws → rsvInstance a = false → bitsOf (t.shad a) f.hi f.lo = bitsOf w f.hi f.lo)
    ∧ (∀ b, b ≠ a → t.live b = s.live b ∧ t.shad b = s.shad b)
    ∧ s.RegsAndShadowsOnly t

/-- A read of the lowest word of a wide value answers it and latches the other words as they read at that instant, for the reading
interface alone; a read of another word answers what that interface has latched, 0 before it has read the lowest (R500). -/
def Obligations.WideReadLatches : Prop :=
  ∀ (s : State) (i : Iface) (b : BitVec 24) (n : Nat), wideOf b.toNat = some (b.toNat, n) → b.toNat % 4 = 0 →
    (∃ t : State, exec (.wideValueRead i b) s = .next t ∧ t.lastRead i = s.view b.toNat
      ∧ (∀ k, 0 < k → k < n → tget (fun _ => 0) t.rlatch (latchKey i (b.toNat + 4 * k)) = s.view (b.toNat + 4 * k))
      ∧ (∀ j, j ≠ i → ∀ a, a < 2 ^ 24 → tget (fun _ => 0) t.rlatch (latchKey j a) = tget (fun _ => 0) s.rlatch (latchKey j a)))
    ∧ (∀ (c : BitVec 24), wideOf c.toNat = some (b.toNat, n) → c ≠ b → c.toNat % 4 = 0 →
      ∃ t : State, exec (.wideValueRead i c) s = .next t ∧ t.lastRead i = tget (fun _ => 0) s.rlatch (latchKey i c.toNat)
        ∧ t.rlatch = s.rlatch)

/-- R513: a read of `GLB_TIME_LO` returns the time base at its own tick, the high word latched with it; a write of `GLB_TIME_CAP_CMD` with
`GO` = 1 stamps the tick of its arrival into `GLB_TIME_CAP_LO` and `_HI`, and one with `GO` = 0 stamps nothing. -/
def Obligations.TimeIsReadAndCaptured : Prop :=
  (∀ (s : State) (i : Iface), ∃ t : State, exec (.wideValueRead i 0x000200#24) s = .next t
    ∧ t.lastRead i = BitVec.ofNat 32 s.tick ∧ tget (fun _ => 0) t.rlatch (latchKey i 0x000204) = BitVec.ofNat 32 (s.tick / 2 ^ 32))
  ∧ (∀ (s : State) (i : Iface) (w : Word), ∃ t : State, exec (.glbTimeCapture i w) s = .next t
    ∧ (F.GLB_TIME_CAP_CMD_GO.on w = true → t.live F.GLB_TIME_CAP_LO.addr = BitVec.ofNat 32 s.tick
        ∧ t.live F.GLB_TIME_CAP_HI.addr = BitVec.ofNat 32 (s.tick / 2 ^ 32))
    ∧ (F.GLB_TIME_CAP_CMD_GO.on w = false → t.live F.GLB_TIME_CAP_LO.addr = (s.wlogNote i F.GLB_TIME_CAP_CMD.addr w).live F.GLB_TIME_CAP_LO.addr
        ∧ t.live F.GLB_TIME_CAP_HI.addr = (s.wlogNote i F.GLB_TIME_CAP_CMD.addr w).live F.GLB_TIME_CAP_HI.addr))

/-- R507: `REVERT` copies the live values into the shadows of every named block over its full scope, checks no rule, raises no event and
leaves a pending commit as it is.  The write log's own note of the write (R423) is `wlogNote`. -/
def Obligations.RevertRestoresShadows : Prop :=
  ∀ (s : State) (i : Iface) (w : Word), F.GLB_COMMIT_REVERT.on w = true →
    let u := s.wlogNote i F.GLB_COMMIT.addr w
    ∃ t : State, exec (.glbRevert i w) s = .next t
      ∧ (∀ b, b ∈ glbBlocks w → ∀ k ∈ u.scopeOf b, ∀ a ∈ rwsAddrs b k, t.shad a = u.live a)
      ∧ (∀ a, (∀ b ∈ glbBlocks w, ∀ k ∈ u.scopeOf b, a ∉ rwsAddrs b k) → t.shad a = u.shad a)
      ∧ (∀ e, e < 256 → t.evLatched e = u.evLatched e) ∧ t.outq = u.outq ∧ t.log = u.log
      ∧ t.commits = s.commits

/-- A commit through a block's own register (R503, R506): captured and waiting when its rules pass, with the live values and shadows as
they were; otherwise rejected with EV003 and nothing captured. -/
def Obligations.CommitWaitsOrIsRejected : Prop :=
  ∀ (s : State) (i : Iface) (b : Nat) (insts : List Nat) (rules : State → List (Nat × Word) → Option (Nat × Nat)),
    let t := s.commit i b insts rules
    let cells := s.capture b insts
    ((s.profHolds i b = true ∨ (rules s cells).isSome = true) →
      t.commits = s.commits ∧ t.shadow = s.shadow ∧ t.evLatched Ev.COMMIT_REJECT = true)
    ∧ ((s.profHolds i b = false ∧ rules s cells = none) →
      t.commits = (if insts.isEmpty then s.commits else s.commits ++ [⟨b, insts, cells, false⟩]) ∧ t.shadow = s.shadow
      ∧ (∀ a, a ≠ F.GLB_COMMIT_CNT_APPLIED.addr → t.live a = s.live a)
      ∧ t.get F.GLB_COMMIT_CNT_APPLIED = (s.get F.GLB_COMMIT_CNT_APPLIED + 1) % 65536)

/-- Captured words apply in their RWS fields, all together, and nothing else changes (R503). -/
def Obligations.CapturedWordsApply : Prop :=
  ∀ (s : State) (cells : List (Nat × Word)), (cells.map (·.1)).Nodup →
    (∀ c ∈ cells, (s.applyCells cells).live c.1 = ((s.live c.1 &&& ~~~ rwsMask c.1) ||| (c.2 &&& rwsMask c.1)))
    ∧ (∀ a, a ∉ cells.map (·.1) → (s.applyCells cells).live a = s.live a)
    ∧ s.RegsAndShadowsOnly (s.applyCells cells) ∧ (s.applyCells cells).shadow = s.shadow

/-! ## Events, the log, the write log and replace requests -/

/-- Every raising sets the source's latch, whatever its enable, and clears no latch (R425). -/
def Obligations.RaisingSetsTheLatch : Prop :=
  ∀ (s : State) (e src : Nat), e < 256 →
    (s.raise e src).evLatched e = true ∧ (∀ x, x < 256 → s.evLatched x = true → (s.raise e src).evLatched x = true)

/-- A source with its enable at 0 is latched but not delivered (R425): no record, no entry of its own and no limit is touched. -/
def Obligations.DisabledSourceIsNotDelivered : Prop :=
  ∀ (s : State) (e src : Nat), e < 256 → s.evOn e = false →
    let t := (s.raise0 e src).1
    t.evLatched e = true ∧ t.outq = s.outq ∧ t.log = s.log ∧ t.rates = s.rates ∧ t.get F.EVC_LAST_EVENT = e

/-- A write of a latch register clears the latches written 1, of the sources its W1C fields list, and leaves every other latch (R499, R425). -/
def Obligations.LatchWriteClears : Prop :=
  ∀ (s : State) (i : Iface) (g : Fin 8) (w : Word),
    let a := F.EVC_LATCH.addr + 4 * g.val
    let u := s.wlogNote i a w
    let listed := ((regRow a).map (fun r => r.mask .w1c)).getD 0
    ∃ t : State, exec (.evcLatchClear i g w) s = .next t
      ∧ (∀ e, e < 256 → t.evLatched e =
          (u.evLatched e && !(decide (e / 32 = g.val) && w.getLsbD (e % 32) && listed.getLsbD (e % 32))))
      ∧ t.outq = u.outq ∧ t.log = u.log

/-- A new log entry takes the next index of the ring that lies in no marked segment, a critical one also the next place of the protected
region; nothing else of the ring changes (R489, R490, R492, R493). -/
def Obligations.LogEntryTakesNextPlace : Prop :=
  ∀ (s : State) (source code severity iface set : Nat) (data : List Byte) (time k : Nat),
    s.logNext (s.get F.LOG_STAT_HEAD) 34 = some k →
    let t := (s.logPut source code severity iface set data time).1
    let e : LogEntry := ⟨time, s.phaseStamp set, source, code, severity, iface, padTo 16 data, false⟩
    k < 7936 ∧ t.logAt k = e
    ∧ t.get F.LOG_STAT_HEAD = (if k + 1 = 7936 then 0 else k + 1)
    ∧ (∀ j, j < 7936 → j ≠ k → t.logAt j = s.logAt j)
    ∧ (severity = 0 → s.logMarked 7936 = false → s.get F.LOG_PROT_STAT_COUNT < 256 →
        t.logAt (7936 + s.get F.LOG_PROT_STAT_COUNT) = e
        ∧ t.get F.LOG_PROT_STAT_COUNT = s.get F.LOG_PROT_STAT_COUNT + 1)

/-- At most 16 write-log entries are open, and a host write within a second of an open entry's first write merges into it (R423). -/
def Obligations.WriteLogHoldsSixteen : Prop :=
  (∀ (s : State) (i : Iface) (a : Nat) (w : Word), s.wlog.length ≤ 16 → (s.wlogNote i a w).wlog.length ≤ 16)
  ∧ (∀ (s : State) (i : Iface) (a : Nat) (w : Word), i ≠ .module →
      (∃ e ∈ s.wlog, e.iface = i.id ∧ e.addr = a ∧ s.tick < e.tick + sTicks 1) →
      (s.wlogNote i a w).wlog.length = s.wlog.length ∧ (s.wlogNote i a w).log = s.log)
  ∧ (∀ (s : State) (a : Nat) (w : Word), s.wlogNote .module a w = s)

/-- A reason bit that sets clears its `ACKED` bit, raises EV250, writes `FIRST_TICK` and zeroes the repeat count when it starts an episode,
and sends a REPLACE_REQUEST record; one that is already set changes nothing (R486). -/
def Obligations.ReasonBitSets : Prop :=
  ∀ (s : State) (b : Nat), b < 9 →
    let old := s.get F.BST_REPLACE_STAT_REASONS
    let t := s.setReason b
    (old.testBit b = true → t = s)
    ∧ (old.testBit b = false →
        (∀ j, j < 9 → (t.get F.BST_REPLACE_STAT_REASONS).testBit j = (old.testBit j || decide (j = b)))
        ∧ (t.get F.BST_REPLACE_ACKED_ACKED).testBit b = false
        ∧ t.evLatched Ev.SERVICE_REQUEST = true
        ∧ (∃ r ∈ t.outq, r.rtype = 0x07 ∧ r.cls = 0)
        ∧ (old = 0 → t.firstTick = s.tick ∧ t.get F.BST_REPLACE_STAT_REPEATS = 0))

/-! ## Line ports -/

/-- What the gain and monitor commands of one line port leave: every other port's registers and state, every shadow, filter chain,
receiver, exchange, round, coefficient, the Vault, the contexts and the store (R33, R34, R48, R98; what is counted and requested rests on the
model's choices of log entry 62). -/
def Obligations.PortGainCommandsKeepTheRest : Prop :=
  ∀ (s : State) (p : Fin 144) (c : Instr),
    ((∃ n, c = .overrangeWindow p n) ∨ (∃ x, c = .pgaUpStepRequest p x) ∨ c = .pgaStepEffect p ∨ c = .pgaHeldGrant p
      ∨ (∃ x, c = .pgaRequestWithdraw p x) ∨ (∃ x, c = .monBlock p x)) →
    ∃ t : State, exec c s = .next t
      ∧ (∀ q, q < 144 → q ≠ p.val → t.port q = s.port q ∧ ∀ a, a < 0x100 → t.live (0x040000 + lpO q + a) = s.live (0x040000 + lpO q + a))
      ∧ t.shadow = s.shadow ∧ t.commits = s.commits ∧ t.chains = s.chains ∧ t.rxs = s.rxs ∧ t.exchs = s.exchs ∧ t.rounds = s.rounds
      ∧ t.coefs = s.coefs ∧ t.vault = s.vault ∧ t.ctx = s.ctx ∧ t.home = s.home ∧ t.spool = s.spool ∧ t.tick = s.tick

/-! ## Jobs -/

/-- R512: a write of `GLB_PROFILE_CMD` with `GO` = 1 does what `BLY_START` with `KIND` 7 and `PARAM0` [1:0] = `PROFILE` does, refusals
included: the same request made of the state, and the same result shown in `BLY_START_STAT`.  The job runs at priority 0. -/
def Obligations.ProfileCommandIsBlyStart : Prop :=
  ∀ (s : State) (i : Iface) (w wb : Word), F.GLB_PROFILE_CMD_GO.on w = true → F.BLY_START_GO.on wb = true →
    F.BLY_START_KIND.of wb = 7 → (F.BLY_START_PRIORITY.of wb = 1 ∨ F.BLY_START_PRIORITY.of wb = 2) →
    let shown := fun (u : State) =>
      let r := u.jobRequest 7 1 i.id 0 [F.GLB_PROFILE_CMD_PROFILE.of w, 0, 0, 0]
      ((r.1.put F.BLY_START_STAT_SLOT 0 (r.2.1.getD 0)).putB F.BLY_START_STAT_VALID 0 r.2.1.isSome).put F.BLY_START_STAT_RESULT 0 r.2.2
    let v := s.wlogNote i F.BLY_START.addr wb
    s.goes (.glbProfileCmd i w) (shown (s.wlogNote i F.GLB_PROFILE_CMD.addr w))
    ∧ ((List.range 4).map (fun j => v.get F.BLY_PARAM (4 * j)) = [F.GLB_PROFILE_CMD_PROFILE.of w, 0, 0, 0] →
        s.goes (.blyStart i wb) (shown v))
    ∧ (∀ k, (s.jobRequest 7 1 i.id 0 [F.GLB_PROFILE_CMD_PROFILE.of w, 0, 0, 0]).2.1 = some k →
        (s.jobRequest 7 1 i.id 0 [F.GLB_PROFILE_CMD_PROFILE.of w, 0, 0, 0]).1.get F.BLY_SLOT_STAT_PRIORITY (blyO k) = 0)

/-- A job that starts takes the lowest slot of its range that is free or final, and its slot shows its kind, priority, origin, steps and
command (R430, R433); an NVM job that meets another waits (R435). -/
def Obligations.JobTakesLowestFreeSlot : Prop :=
  ∀ (s : State) (kind prio origin cmdId : Nat) (params : List Nat) (total : Nat) (own : Bool) (t : State) (k : Nat),
    kind < 16 → prio < 4 → origin < 8 → cmdId < 2 ^ 32 → total < 2 ^ 32 →
    s.jobStart kind prio origin cmdId params total own = (t, some k) →
    (if own then 12 ≤ k ∧ k < 16 else k < 12) ∧ s.jobLive k = false
    ∧ (∀ j, (if own then 12 ≤ j else True) → j < k → s.jobLive j = true)
    ∧ (t.jobState k = 2 ∨ (t.jobState k = 3 ∧ kind = 8))
    ∧ t.get F.BLY_SLOT_STAT_KIND (blyO k) = kind ∧ t.get F.BLY_SLOT_STAT_PRIORITY (blyO k) = prio
    ∧ t.get F.BLY_SLOT_STAT_ORIGIN (blyO k) = origin ∧ t.get F.BLY_SLOT_ID (blyO k) = cmdId
    ∧ t.get F.BLY_SLOT_DONE (blyO k) = 0 ∧ t.get F.BLY_SLOT_TOTAL (blyO k) = total
    ∧ (t.job k).params = params
    ∧ (∀ j, j < 16 → j ≠ k → t.jobState j = s.jobState j ∧ t.job j = s.job j)

/-! ## Leases and contexts -/

/-- A lease taken at once (R232, R233): the holder then has it, no other session's lease changes, and a context that another holds is not
given; at most one lease stands on a session before and after. -/
def Obligations.LeaseIsExclusive : Prop :=
  ∀ (s : State) (k h : Nat),
    let r := s.leaseTry k h
    (r.2 = true → r.1.leasedBy k h = true)
    ∧ (r.2 = false → r.1 = s)
    ∧ (∀ l, s.leaseOf k = some l → l.holder ≠ h → r = (s, false))
    ∧ (∀ j, j ≠ k → r.1.leaseOf j = s.leaseOf j)
    ∧ ((∀ j, (s.leases.filter (fun l => l.session == j)).length ≤ 1) →
        ∀ j, (r.1.leases.filter (fun l => l.session == j)).length ≤ 1)

/-- A sealed context image passes the check of its own `CRC` and `ADDRESS` (R225, R229), carries the journal sequence number it was sealed
with, and keeps every other byte. -/
def Obligations.SealedImageIsGood : Prop :=
  ∀ (img : List Byte) (jseq : Nat), img.length = 2048 →
    imageGood (sealImage img jseq) (ofLe ((img.drop 0x28).take 2)) = true
    ∧ (sealImage img jseq).length = 2048
    ∧ ofLe (((sealImage img jseq).drop 16).take 8) = jseq % 2 ^ 64
    ∧ (∀ j, j < 2048 → ¬(4 ≤ j ∧ j < 8) → ¬(16 ≤ j ∧ j < 24) → (sealImage img jseq)[j]? = img[j]?)

/-- A write to a coefficient window (R58, R60): a word in use stays, with every other, and is counted with EV043; any other word takes the low
18 bits, and every other coefficient reads as before. -/
def Obligations.CoefficientWriteStoresOneWord : Prop :=
  ∀ (s : State) (i : Iface) (m : Fin 9) (k : BitVec 16) (w : Word),
    let u := s.wlogNote i (0x400000 + 0x40000 * m.val + 4 * k.toNat) w
    let coef := fun (x : State) (n : Nat) => tget (fun _ => (0 : BitVec 18)) x.coefs n
    ∃ t : State, exec (.coefWrite i m k w) s = .next t
      ∧ (∀ n, n ≠ m.val * 65536 + k.toNat → coef t n = coef s n)
      ∧ (u.wordInUse m.val k.toNat = false → coef t (m.val * 65536 + k.toNat) = w.setWidth 18)
      ∧ (u.wordInUse m.val k.toNat = true → coef t (m.val * 65536 + k.toNat) = coef s (m.val * 65536 + k.toNat)
          ∧ t.evLatched Ev.FC_COEF_BUSY = true)

/-! ## Codes -/

/-- R23: a free Viterbi unit takes, of the frames that wait, one of a priority session if there is one, and of equal ones the one whose
de-interleaving completed first, whether of a line or of a radio receiver. -/
def Obligations.ViterbiServesInOrder : Prop :=
  ∀ (s : State) (u : Fin 2), tget (fun _ => none) s.viterbi u.val = none → s.vitMarked u.val = false → s.bodies ≠ [] →
    ∃ (t : State) (b : Body), exec (.viterbiDecodeStart u) s = .next t ∧ b ∈ s.bodies
      ∧ tget (fun _ => none) t.viterbi u.val = some b ∧ t.bodies = s.bodies.erase b
      ∧ ∀ x ∈ s.bodies, (x.prio = true → b.prio = true) ∧ (x.prio = b.prio → b.tick ≤ x.tick)

/-- A header decodes to itself from its own coded bits (R128, R129): each header bit and each bit of the CRC is sent as itself and then
inverted, and the decoder finds fields and CRC whatever the two soft weights of a pair are, as long as one of them is not 0. -/
def Obligations.HeaderDecodesItsEncoding : Prop :=
  ∀ (h : PhyHdr) (q : Nat → Nat), h.length < 2048 → h.rate < 8 → h.levels < 2 → h.coding < 4 → h.version < 4 → h.blockMap < 256 →
    (h.block = false → h.blockMap = 0) → (∀ i, 0 < q (2 * i) + q (2 * i + 1)) →
    let bits := hdrBits h ++ crc16Sent (crc16 (hdrBits h))
    hdrDecode ((List.range 44).flatMap (fun i =>
      let v : Int := if bits.getD i false then 1 else -1
      [(v, q (2 * i)), (-v, q (2 * i + 1))])) = (h, true)

/-- The de-interleaver undoes the interleaver on every unit, whatever soft value stands for a bit (R135). -/
def Obligations.DeinterleaverUndoesInterleaver : Prop :=
  ∀ (l : List Bool) (soft : Bool → Int × Nat), l.length % 8 = 0 → deinterleave ((interleave l).map soft) = l.map soft

/-- A MAC header reads back from the bytes of any MPDU that starts with it (R131). -/
def Obligations.MacHeaderReadsBack : Prop :=
  ∀ (h : Mac) (rest : List Byte), h.ftype < 16 → h.dest < 2 ^ 16 → h.src < 2 ^ 16 → h.counter < 2 ^ 32 → h.epoch4 < 16 → h.purpose < 4 →
    macOf (macBytes h ++ rest) = h

/-- What CCM seals it opens, to the same bytes and with the tag verified, for both key lengths and whatever the masks (R322, R328, R331); the
cipher text is as long as the data. -/
def Obligations.CcmOpensWhatItSeals : Prop :=
  ∀ (key : Key) (nonce aad data : List Byte) (n : Nat), (key.sh.a.length = 16 ∨ key.sh.a.length = 32) →
    key.sh.b.length = key.sh.a.length → 7 ≤ nonce.length → nonce.length ≤ 13 →
    n ≤ 16 →
    (ccmEnc key nonce aad data n).1.length = data.length
    ∧ ccmDec key nonce aad (ccmEnc key nonce aad data n).1 (ccmEnc key nonce aad data n).2 = (data, true)

/-- What GCM seals it opens, to the same bytes and with the tag verified, whatever the masks (R331). -/
def Obligations.GcmOpensWhatItSeals : Prop :=
  ∀ (key : Key) (iv aad data : List Byte), (key.sh.a.length = 16 ∨ key.sh.a.length = 32) →
    key.sh.b.length = key.sh.a.length → iv.length = 12 →
    (gcmEnc key iv aad data).1.length = data.length
    ∧ gcmDec key iv aad (gcmEnc key iv aad data).1 (gcmEnc key iv aad data).2 = (data, true)
end

