-- ==== Sys2Proof/Laws/Bits.lean ====
section
/-! SUPPORT. Bit fields of a word: what a field reads after it or another field is set. -/
namespace Sys2Proof.Machine
open Sys2Proof

theorem bitsOf_testBit (w : Word) (hi lo i : Nat) :
    (bitsOf w hi lo).testBit i = (decide (i < hi + 1 - lo) && w.getLsbD (lo + i)) := by
  unfold bitsOf
  rw [Nat.testBit_mod_two_pow, Nat.testBit_div_two_pow, BitVec.getLsbD, Nat.add_comm i lo]

theorem bitsMask_getLsbD (hi lo j : Nat) (hj : j < 32) :
    (bitsMask hi lo).getLsbD j = (decide (lo ≤ j) && decide (j < hi + 1 - lo + lo)) := by
  unfold bitsMask
  rw [BitVec.getLsbD_ofNat, Nat.testBit_mul_two_pow, Nat.testBit_two_pow_sub_one]
  by_cases h : lo ≤ j <;> simp [h, hj] <;> omega

theorem setBits_getLsbD (w : Word) (hi lo v j : Nat) (hj : j < 32) (hl : lo ≤ hi) :
    (setBits w hi lo v).getLsbD j =
      if lo ≤ j ∧ j ≤ hi then v.testBit (j - lo) else w.getLsbD j := by
  unfold setBits
  rw [BitVec.getLsbD_or, BitVec.getLsbD_and, BitVec.getLsbD_not, bitsMask_getLsbD hi lo j hj, BitVec.getLsbD_ofNat,
    Nat.testBit_mul_two_pow, Nat.testBit_mod_two_pow]
  by_cases h1 : lo ≤ j
  · by_cases h2 : j ≤ hi
    · have : j < hi + 1 - lo + lo := by omega
      have : j - lo < hi + 1 - lo := by omega
      simp [*]
    · have : ¬ j < hi + 1 - lo + lo := by omega
      have : ¬ j - lo < hi + 1 - lo := by omega
      simp [*]
  · simp [*]

/-- A field reads what was put in it, cut to its width. -/
theorem bitsOf_setBits_same (w : Word) (hi lo v : Nat) (hl : lo ≤ hi) (hh : hi < 32) :
    bitsOf (setBits w hi lo v) hi lo = v % 2 ^ (hi + 1 - lo) := by
  apply Nat.eq_of_testBit_eq
  intro i
  rw [bitsOf_testBit, Nat.testBit_mod_two_pow]
  by_cases h : i < hi + 1 - lo
  · rw [setBits_getLsbD w hi lo v (lo + i) (by omega) hl, if_pos ⟨by omega, by omega⟩]
    simp [h]
  · simp [h]

/-- A field keeps its value while a field apart from it is set. -/
theorem bitsOf_setBits_apart (w : Word) (hi lo v hi' lo' : Nat) (hl : lo ≤ hi) (hh' : hi' < 32)
    (ha : hi' < lo ∨ hi < lo') : bitsOf (setBits w hi lo v) hi' lo' = bitsOf w hi' lo' := by
  apply Nat.eq_of_testBit_eq
  intro i
  rw [bitsOf_testBit, bitsOf_testBit]
  by_cases h : i < hi' + 1 - lo'
  · rw [setBits_getLsbD w hi lo v (lo' + i) (by omega) hl, if_neg (by omega)]
  · simp [h]

theorem bitsOf_lt (w : Word) (hi lo : Nat) : bitsOf w hi lo < 2 ^ (hi + 1 - lo) := Nat.mod_lt _ (Nat.two_pow_pos _)

end Sys2Proof.Machine
end

