-- ==== Sys2Proof/Laws/State.lean ====
section
/-! SUPPORT. What each named update of the state leaves as it was, field by field, and what it changes. -/
namespace Sys2Proof.Machine
open Sys2Proof

/-! ### `setLive` -/

@[simp] theorem State.setLive_pending (s : State) (a : Nat) (w : Word) : (s.setLive a w).pending = s.pending := rfl
@[simp] theorem State.setLive_tick (s : State) (a : Nat) (w : Word) : (s.setLive a w).tick = s.tick := rfl
@[simp] theorem State.setLive_free (s : State) (a : Nat) (w : Word) : (s.setLive a w).free = s.free := rfl
@[simp] theorem State.setLive_shadow (s : State) (a : Nat) (w : Word) : (s.setLive a w).shadow = s.shadow := rfl
@[simp] theorem State.setLive_commits (s : State) (a : Nat) (w : Word) : (s.setLive a w).commits = s.commits := rfl
@[simp] theorem State.setLive_reply (s : State) (a : Nat) (w : Word) : (s.setLive a w).reply = s.reply := rfl
@[simp] theorem State.setLive_rates (s : State) (a : Nat) (w : Word) : (s.setLive a w).rates = s.rates := rfl
@[simp] theorem State.setLive_outq (s : State) (a : Nat) (w : Word) : (s.setLive a w).outq = s.outq := rfl
@[simp] theorem State.setLive_log (s : State) (a : Nat) (w : Word) : (s.setLive a w).log = s.log := rfl
@[simp] theorem State.setLive_wlog (s : State) (a : Nat) (w : Word) : (s.setLive a w).wlog = s.wlog := rfl
@[simp] theorem State.setLive_jobs (s : State) (a : Nat) (w : Word) : (s.setLive a w).jobs = s.jobs := rfl
@[simp] theorem State.setLive_vault (s : State) (a : Nat) (w : Word) : (s.setLive a w).vault = s.vault := rfl
@[simp] theorem State.setLive_vaultq (s : State) (a : Nat) (w : Word) : (s.setLive a w).vaultq = s.vaultq := rfl
@[simp] theorem State.setLive_own (s : State) (a : Nat) (w : Word) : (s.setLive a w).own = s.own := rfl
@[simp] theorem State.setLive_profPhase (s : State) (a : Nat) (w : Word) : (s.setLive a w).profPhase = s.profPhase := rfl
@[simp] theorem State.setLive_ports (s : State) (a : Nat) (w : Word) : (s.setLive a w).ports = s.ports := rfl
@[simp] theorem State.setLive_aen (s : State) (a : Nat) (w : Word) : (s.setLive a w).aen = s.aen := rfl
@[simp] theorem State.setLive_chains (s : State) (a : Nat) (w : Word) : (s.setLive a w).chains = s.chains := rfl
@[simp] theorem State.setLive_coefs (s : State) (a : Nat) (w : Word) : (s.setLive a w).coefs = s.coefs := rfl
@[simp] theorem State.setLive_rxs (s : State) (a : Nat) (w : Word) : (s.setLive a w).rxs = s.rxs := rfl
@[simp] theorem State.setLive_exchs (s : State) (a : Nat) (w : Word) : (s.setLive a w).exchs = s.exchs := rfl
@[simp] theorem State.setLive_rounds (s : State) (a : Nat) (w : Word) : (s.setLive a w).rounds = s.rounds := rfl
@[simp] theorem State.setLive_slots (s : State) (a : Nat) (w : Word) : (s.setLive a w).slots = s.slots := rfl
@[simp] theorem State.setLive_ctx (s : State) (a : Nat) (w : Word) : (s.setLive a w).ctx = s.ctx := rfl
@[simp] theorem State.setLive_cache (s : State) (a : Nat) (w : Word) : (s.setLive a w).cache = s.cache := rfl
@[simp] theorem State.setLive_leases (s : State) (a : Nat) (w : Word) : (s.setLive a w).leases = s.leases := rfl
@[simp] theorem State.setLive_leaseQ (s : State) (a : Nat) (w : Word) : (s.setLive a w).leaseQ = s.leaseQ := rfl
@[simp] theorem State.setLive_jq (s : State) (a : Nat) (w : Word) : (s.setLive a w).jq = s.jq := rfl
@[simp] theorem State.setLive_jrn (s : State) (a : Nat) (w : Word) : (s.setLive a w).jrn = s.jrn := rfl
@[simp] theorem State.setLive_home (s : State) (a : Nat) (w : Word) : (s.setLive a w).home = s.home := rfl
@[simp] theorem State.setLive_spool (s : State) (a : Nat) (w : Word) : (s.setLive a w).spool = s.spool := rfl
@[simp] theorem State.setLive_cmdQ (s : State) (a : Nat) (w : Word) : (s.setLive a w).cmdQ = s.cmdQ := rfl
@[simp] theorem State.setLive_planQ (s : State) (a : Nat) (w : Word) : (s.setLive a w).planQ = s.planQ := rfl
@[simp] theorem State.setLive_mac (s : State) (a : Nat) (w : Word) : (s.setLive a w).mac = s.mac := rfl
@[simp] theorem State.setLive_cip (s : State) (a : Nat) (w : Word) : (s.setLive a w).cip = s.cip := rfl
@[simp] theorem State.setLive_hal (s : State) (a : Nat) (w : Word) : (s.setLive a w).hal = s.hal := rfl
@[simp] theorem State.setLive_tst (s : State) (a : Nat) (w : Word) : (s.setLive a w).tst = s.tst := rfl
@[simp] theorem State.setLive_links (s : State) (a : Nat) (w : Word) : (s.setLive a w).links = s.links := rfl
@[simp] theorem State.setLive_spl (s : State) (a : Nat) (w : Word) : (s.setLive a w).spl = s.spl := rfl
@[simp] theorem State.setLive_brd (s : State) (a : Nat) (w : Word) : (s.setLive a w).brd = s.brd := rfl
@[simp] theorem State.setLive_up (s : State) (a : Nat) (w : Word) : (s.setLive a w).up = s.up := rfl
@[simp] theorem State.setLive_keyq (s : State) (a : Nat) (w : Word) : (s.setLive a w).keyq = s.keyq := rfl

/-! ### `setShad` -/

@[simp] theorem State.setShad_pending (s : State) (a : Nat) (w : Word) : (s.setShad a w).pending = s.pending := rfl
@[simp] theorem State.setShad_tick (s : State) (a : Nat) (w : Word) : (s.setShad a w).tick = s.tick := rfl
@[simp] theorem State.setShad_free (s : State) (a : Nat) (w : Word) : (s.setShad a w).free = s.free := rfl
@[simp] theorem State.setShad_regs (s : State) (a : Nat) (w : Word) : (s.setShad a w).regs = s.regs := rfl
@[simp] theorem State.setShad_commits (s : State) (a : Nat) (w : Word) : (s.setShad a w).commits = s.commits := rfl
@[simp] theorem State.setShad_reply (s : State) (a : Nat) (w : Word) : (s.setShad a w).reply = s.reply := rfl
@[simp] theorem State.setShad_rates (s : State) (a : Nat) (w : Word) : (s.setShad a w).rates = s.rates := rfl
@[simp] theorem State.setShad_outq (s : State) (a : Nat) (w : Word) : (s.setShad a w).outq = s.outq := rfl
@[simp] theorem State.setShad_log (s : State) (a : Nat) (w : Word) : (s.setShad a w).log = s.log := rfl
@[simp] theorem State.setShad_wlog (s : State) (a : Nat) (w : Word) : (s.setShad a w).wlog = s.wlog := rfl
@[simp] theorem State.setShad_jobs (s : State) (a : Nat) (w : Word) : (s.setShad a w).jobs = s.jobs := rfl
@[simp] theorem State.setShad_vault (s : State) (a : Nat) (w : Word) : (s.setShad a w).vault = s.vault := rfl
@[simp] theorem State.setShad_vaultq (s : State) (a : Nat) (w : Word) : (s.setShad a w).vaultq = s.vaultq := rfl
@[simp] theorem State.setShad_own (s : State) (a : Nat) (w : Word) : (s.setShad a w).own = s.own := rfl
@[simp] theorem State.setShad_profPhase (s : State) (a : Nat) (w : Word) : (s.setShad a w).profPhase = s.profPhase := rfl
@[simp] theorem State.setShad_ports (s : State) (a : Nat) (w : Word) : (s.setShad a w).ports = s.ports := rfl
@[simp] theorem State.setShad_aen (s : State) (a : Nat) (w : Word) : (s.setShad a w).aen = s.aen := rfl
@[simp] theorem State.setShad_chains (s : State) (a : Nat) (w : Word) : (s.setShad a w).chains = s.chains := rfl
@[simp] theorem State.setShad_coefs (s : State) (a : Nat) (w : Word) : (s.setShad a w).coefs = s.coefs := rfl
@[simp] theorem State.setShad_rxs (s : State) (a : Nat) (w : Word) : (s.setShad a w).rxs = s.rxs := rfl
@[simp] theorem State.setShad_exchs (s : State) (a : Nat) (w : Word) : (s.setShad a w).exchs = s.exchs := rfl
@[simp] theorem State.setShad_rounds (s : State) (a : Nat) (w : Word) : (s.setShad a w).rounds = s.rounds := rfl
@[simp] theorem State.setShad_slots (s : State) (a : Nat) (w : Word) : (s.setShad a w).slots = s.slots := rfl
@[simp] theorem State.setShad_ctx (s : State) (a : Nat) (w : Word) : (s.setShad a w).ctx = s.ctx := rfl
@[simp] theorem State.setShad_cache (s : State) (a : Nat) (w : Word) : (s.setShad a w).cache = s.cache := rfl
@[simp] theorem State.setShad_leases (s : State) (a : Nat) (w : Word) : (s.setShad a w).leases = s.leases := rfl
@[simp] theorem State.setShad_leaseQ (s : State) (a : Nat) (w : Word) : (s.setShad a w).leaseQ = s.leaseQ := rfl
@[simp] theorem State.setShad_jq (s : State) (a : Nat) (w : Word) : (s.setShad a w).jq = s.jq := rfl
@[simp] theorem State.setShad_jrn (s : State) (a : Nat) (w : Word) : (s.setShad a w).jrn = s.jrn := rfl
@[simp] theorem State.setShad_home (s : State) (a : Nat) (w : Word) : (s.setShad a w).home = s.home := rfl
@[simp] theorem State.setShad_spool (s : State) (a : Nat) (w : Word) : (s.setShad a w).spool = s.spool := rfl
@[simp] theorem State.setShad_cmdQ (s : State) (a : Nat) (w : Word) : (s.setShad a w).cmdQ = s.cmdQ := rfl
@[simp] theorem State.setShad_planQ (s : State) (a : Nat) (w : Word) : (s.setShad a w).planQ = s.planQ := rfl
@[simp] theorem State.setShad_mac (s : State) (a : Nat) (w : Word) : (s.setShad a w).mac = s.mac := rfl
@[simp] theorem State.setShad_cip (s : State) (a : Nat) (w : Word) : (s.setShad a w).cip = s.cip := rfl
@[simp] theorem State.setShad_hal (s : State) (a : Nat) (w : Word) : (s.setShad a w).hal = s.hal := rfl
@[simp] theorem State.setShad_tst (s : State) (a : Nat) (w : Word) : (s.setShad a w).tst = s.tst := rfl
@[simp] theorem State.setShad_links (s : State) (a : Nat) (w : Word) : (s.setShad a w).links = s.links := rfl
@[simp] theorem State.setShad_spl (s : State) (a : Nat) (w : Word) : (s.setShad a w).spl = s.spl := rfl
@[simp] theorem State.setShad_brd (s : State) (a : Nat) (w : Word) : (s.setShad a w).brd = s.brd := rfl
@[simp] theorem State.setShad_up (s : State) (a : Nat) (w : Word) : (s.setShad a w).up = s.up := rfl
@[simp] theorem State.setShad_keyq (s : State) (a : Nat) (w : Word) : (s.setShad a w).keyq = s.keyq := rfl

/-! ### `put` -/

@[simp] theorem State.put_pending (s : State) (f : Fld) (o v : Nat) : (s.put f o v).pending = s.pending := rfl
@[simp] theorem State.put_tick (s : State) (f : Fld) (o v : Nat) : (s.put f o v).tick = s.tick := rfl
@[simp] theorem State.put_free (s : State) (f : Fld) (o v : Nat) : (s.put f o v).free = s.free := rfl
@[simp] theorem State.put_shadow (s : State) (f : Fld) (o v : Nat) : (s.put f o v).shadow = s.shadow := rfl
@[simp] theorem State.put_commits (s : State) (f : Fld) (o v : Nat) : (s.put f o v).commits = s.commits := rfl
@[simp] theorem State.put_reply (s : State) (f : Fld) (o v : Nat) : (s.put f o v).reply = s.reply := rfl
@[simp] theorem State.put_rates (s : State) (f : Fld) (o v : Nat) : (s.put f o v).rates = s.rates := rfl
@[simp] theorem State.put_outq (s : State) (f : Fld) (o v : Nat) : (s.put f o v).outq = s.outq := rfl
@[simp] theorem State.put_log (s : State) (f : Fld) (o v : Nat) : (s.put f o v).log = s.log := rfl
@[simp] theorem State.put_wlog (s : State) (f : Fld) (o v : Nat) : (s.put f o v).wlog = s.wlog := rfl
@[simp] theorem State.put_jobs (s : State) (f : Fld) (o v : Nat) : (s.put f o v).jobs = s.jobs := rfl
@[simp] theorem State.put_vault (s : State) (f : Fld) (o v : Nat) : (s.put f o v).vault = s.vault := rfl
@[simp] theorem State.put_vaultq (s : State) (f : Fld) (o v : Nat) : (s.put f o v).vaultq = s.vaultq := rfl
@[simp] theorem State.put_own (s : State) (f : Fld) (o v : Nat) : (s.put f o v).own = s.own := rfl
@[simp] theorem State.put_profPhase (s : State) (f : Fld) (o v : Nat) : (s.put f o v).profPhase = s.profPhase := rfl
@[simp] theorem State.put_ports (s : State) (f : Fld) (o v : Nat) : (s.put f o v).ports = s.ports := rfl
@[simp] theorem State.put_aen (s : State) (f : Fld) (o v : Nat) : (s.put f o v).aen = s.aen := rfl
@[simp] theorem State.put_chains (s : State) (f : Fld) (o v : Nat) : (s.put f o v).chains = s.chains := rfl
@[simp] theorem State.put_coefs (s : State) (f : Fld) (o v : Nat) : (s.put f o v).coefs = s.coefs := rfl
@[simp] theorem State.put_rxs (s : State) (f : Fld) (o v : Nat) : (s.put f o v).rxs = s.rxs := rfl
@[simp] theorem State.put_exchs (s : State) (f : Fld) (o v : Nat) : (s.put f o v).exchs = s.exchs := rfl
@[simp] theorem State.put_rounds (s : State) (f : Fld) (o v : Nat) : (s.put f o v).rounds = s.rounds := rfl
@[simp] theorem State.put_slots (s : State) (f : Fld) (o v : Nat) : (s.put f o v).slots = s.slots := rfl
@[simp] theorem State.put_ctx (s : State) (f : Fld) (o v : Nat) : (s.put f o v).ctx = s.ctx := rfl
@[simp] theorem State.put_cache (s : State) (f : Fld) (o v : Nat) : (s.put f o v).cache = s.cache := rfl
@[simp] theorem State.put_leases (s : State) (f : Fld) (o v : Nat) : (s.put f o v).leases = s.leases := rfl
@[simp] theorem State.put_leaseQ (s : State) (f : Fld) (o v : Nat) : (s.put f o v).leaseQ = s.leaseQ := rfl
@[simp] theorem State.put_jq (s : State) (f : Fld) (o v : Nat) : (s.put f o v).jq = s.jq := rfl
@[simp] theorem State.put_jrn (s : State) (f : Fld) (o v : Nat) : (s.put f o v).jrn = s.jrn := rfl
@[simp] theorem State.put_home (s : State) (f : Fld) (o v : Nat) : (s.put f o v).home = s.home := rfl
@[simp] theorem State.put_spool (s : State) (f : Fld) (o v : Nat) : (s.put f o v).spool = s.spool := rfl
@[simp] theorem State.put_cmdQ (s : State) (f : Fld) (o v : Nat) : (s.put f o v).cmdQ = s.cmdQ := rfl
@[simp] theorem State.put_planQ (s : State) (f : Fld) (o v : Nat) : (s.put f o v).planQ = s.planQ := rfl
@[simp] theorem State.put_mac (s : State) (f : Fld) (o v : Nat) : (s.put f o v).mac = s.mac := rfl
@[simp] theorem State.put_cip (s : State) (f : Fld) (o v : Nat) : (s.put f o v).cip = s.cip := rfl
@[simp] theorem State.put_hal (s : State) (f : Fld) (o v : Nat) : (s.put f o v).hal = s.hal := rfl
@[simp] theorem State.put_tst (s : State) (f : Fld) (o v : Nat) : (s.put f o v).tst = s.tst := rfl
@[simp] theorem State.put_links (s : State) (f : Fld) (o v : Nat) : (s.put f o v).links = s.links := rfl
@[simp] theorem State.put_spl (s : State) (f : Fld) (o v : Nat) : (s.put f o v).spl = s.spl := rfl
@[simp] theorem State.put_brd (s : State) (f : Fld) (o v : Nat) : (s.put f o v).brd = s.brd := rfl
@[simp] theorem State.put_up (s : State) (f : Fld) (o v : Nat) : (s.put f o v).up = s.up := rfl
@[simp] theorem State.put_keyq (s : State) (f : Fld) (o v : Nat) : (s.put f o v).keyq = s.keyq := rfl

/-! ### `onUp` -/

@[simp] theorem State.onUp_pending (s : State) (f : UpS → UpS) : (s.onUp f).pending = s.pending := rfl
@[simp] theorem State.onUp_tick (s : State) (f : UpS → UpS) : (s.onUp f).tick = s.tick := rfl
@[simp] theorem State.onUp_free (s : State) (f : UpS → UpS) : (s.onUp f).free = s.free := rfl
@[simp] theorem State.onUp_regs (s : State) (f : UpS → UpS) : (s.onUp f).regs = s.regs := rfl
@[simp] theorem State.onUp_shadow (s : State) (f : UpS → UpS) : (s.onUp f).shadow = s.shadow := rfl
@[simp] theorem State.onUp_commits (s : State) (f : UpS → UpS) : (s.onUp f).commits = s.commits := rfl
@[simp] theorem State.onUp_reply (s : State) (f : UpS → UpS) : (s.onUp f).reply = s.reply := rfl
@[simp] theorem State.onUp_rates (s : State) (f : UpS → UpS) : (s.onUp f).rates = s.rates := rfl
@[simp] theorem State.onUp_outq (s : State) (f : UpS → UpS) : (s.onUp f).outq = s.outq := rfl
@[simp] theorem State.onUp_log (s : State) (f : UpS → UpS) : (s.onUp f).log = s.log := rfl
@[simp] theorem State.onUp_wlog (s : State) (f : UpS → UpS) : (s.onUp f).wlog = s.wlog := rfl
@[simp] theorem State.onUp_jobs (s : State) (f : UpS → UpS) : (s.onUp f).jobs = s.jobs := rfl
@[simp] theorem State.onUp_vault (s : State) (f : UpS → UpS) : (s.onUp f).vault = s.vault := rfl
@[simp] theorem State.onUp_vaultq (s : State) (f : UpS → UpS) : (s.onUp f).vaultq = s.vaultq := rfl
@[simp] theorem State.onUp_own (s : State) (f : UpS → UpS) : (s.onUp f).own = s.own := rfl
@[simp] theorem State.onUp_profPhase (s : State) (f : UpS → UpS) : (s.onUp f).profPhase = s.profPhase := rfl
@[simp] theorem State.onUp_ports (s : State) (f : UpS → UpS) : (s.onUp f).ports = s.ports := rfl
@[simp] theorem State.onUp_aen (s : State) (f : UpS → UpS) : (s.onUp f).aen = s.aen := rfl
@[simp] theorem State.onUp_chains (s : State) (f : UpS → UpS) : (s.onUp f).chains = s.chains := rfl
@[simp] theorem State.onUp_coefs (s : State) (f : UpS → UpS) : (s.onUp f).coefs = s.coefs := rfl
@[simp] theorem State.onUp_rxs (s : State) (f : UpS → UpS) : (s.onUp f).rxs = s.rxs := rfl
@[simp] theorem State.onUp_exchs (s : State) (f : UpS → UpS) : (s.onUp f).exchs = s.exchs := rfl
@[simp] theorem State.onUp_rounds (s : State) (f : UpS → UpS) : (s.onUp f).rounds = s.rounds := rfl
@[simp] theorem State.onUp_slots (s : State) (f : UpS → UpS) : (s.onUp f).slots = s.slots := rfl
@[simp] theorem State.onUp_ctx (s : State) (f : UpS → UpS) : (s.onUp f).ctx = s.ctx := rfl
@[simp] theorem State.onUp_cache (s : State) (f : UpS → UpS) : (s.onUp f).cache = s.cache := rfl
@[simp] theorem State.onUp_leases (s : State) (f : UpS → UpS) : (s.onUp f).leases = s.leases := rfl
@[simp] theorem State.onUp_leaseQ (s : State) (f : UpS → UpS) : (s.onUp f).leaseQ = s.leaseQ := rfl
@[simp] theorem State.onUp_jq (s : State) (f : UpS → UpS) : (s.onUp f).jq = s.jq := rfl
@[simp] theorem State.onUp_jrn (s : State) (f : UpS → UpS) : (s.onUp f).jrn = s.jrn := rfl
@[simp] theorem State.onUp_home (s : State) (f : UpS → UpS) : (s.onUp f).home = s.home := rfl
@[simp] theorem State.onUp_spool (s : State) (f : UpS → UpS) : (s.onUp f).spool = s.spool := rfl
@[simp] theorem State.onUp_cmdQ (s : State) (f : UpS → UpS) : (s.onUp f).cmdQ = s.cmdQ := rfl
@[simp] theorem State.onUp_planQ (s : State) (f : UpS → UpS) : (s.onUp f).planQ = s.planQ := rfl
@[simp] theorem State.onUp_mac (s : State) (f : UpS → UpS) : (s.onUp f).mac = s.mac := rfl
@[simp] theorem State.onUp_cip (s : State) (f : UpS → UpS) : (s.onUp f).cip = s.cip := rfl
@[simp] theorem State.onUp_hal (s : State) (f : UpS → UpS) : (s.onUp f).hal = s.hal := rfl
@[simp] theorem State.onUp_tst (s : State) (f : UpS → UpS) : (s.onUp f).tst = s.tst := rfl
@[simp] theorem State.onUp_links (s : State) (f : UpS → UpS) : (s.onUp f).links = s.links := rfl
@[simp] theorem State.onUp_spl (s : State) (f : UpS → UpS) : (s.onUp f).spl = s.spl := rfl
@[simp] theorem State.onUp_brd (s : State) (f : UpS → UpS) : (s.onUp f).brd = s.brd := rfl
@[simp] theorem State.onUp_keyq (s : State) (f : UpS → UpS) : (s.onUp f).keyq = s.keyq := rfl

/-! ### `onPort` -/

@[simp] theorem State.onPort_pending (s : State) (p : Nat) (f : PortS → PortS) : (s.onPort p f).pending = s.pending := rfl
@[simp] theorem State.onPort_tick (s : State) (p : Nat) (f : PortS → PortS) : (s.onPort p f).tick = s.tick := rfl
@[simp] theorem State.onPort_free (s : State) (p : Nat) (f : PortS → PortS) : (s.onPort p f).free = s.free := rfl
@[simp] theorem State.onPort_regs (s : State) (p : Nat) (f : PortS → PortS) : (s.onPort p f).regs = s.regs := rfl
@[simp] theorem State.onPort_shadow (s : State) (p : Nat) (f : PortS → PortS) : (s.onPort p f).shadow = s.shadow := rfl
@[simp] theorem State.onPort_commits (s : State) (p : Nat) (f : PortS → PortS) : (s.onPort p f).commits = s.commits := rfl
@[simp] theorem State.onPort_reply (s : State) (p : Nat) (f : PortS → PortS) : (s.onPort p f).reply = s.reply := rfl
@[simp] theorem State.onPort_rates (s : State) (p : Nat) (f : PortS → PortS) : (s.onPort p f).rates = s.rates := rfl
@[simp] theorem State.onPort_outq (s : State) (p : Nat) (f : PortS → PortS) : (s.onPort p f).outq = s.outq := rfl
@[simp] theorem State.onPort_log (s : State) (p : Nat) (f : PortS → PortS) : (s.onPort p f).log = s.log := rfl
@[simp] theorem State.onPort_wlog (s : State) (p : Nat) (f : PortS → PortS) : (s.onPort p f).wlog = s.wlog := rfl
@[simp] theorem State.onPort_jobs (s : State) (p : Nat) (f : PortS → PortS) : (s.onPort p f).jobs = s.jobs := rfl
@[simp] theorem State.onPort_vault (s : State) (p : Nat) (f : PortS → PortS) : (s.onPort p f).vault = s.vault := rfl
@[simp] theorem State.onPort_vaultq (s : State) (p : Nat) (f : PortS → PortS) : (s.onPort p f).vaultq = s.vaultq := rfl
@[simp] theorem State.onPort_own (s : State) (p : Nat) (f : PortS → PortS) : (s.onPort p f).own = s.own := rfl
@[simp] theorem State.onPort_profPhase (s : State) (p : Nat) (f : PortS → PortS) : (s.onPort p f).profPhase = s.profPhase := rfl
@[simp] theorem State.onPort_aen (s : State) (p : Nat) (f : PortS → PortS) : (s.onPort p f).aen = s.aen := rfl
@[simp] theorem State.onPort_chains (s : State) (p : Nat) (f : PortS → PortS) : (s.onPort p f).chains = s.chains := rfl
@[simp] theorem State.onPort_coefs (s : State) (p : Nat) (f : PortS → PortS) : (s.onPort p f).coefs = s.coefs := rfl
@[simp] theorem State.onPort_rxs (s : State) (p : Nat) (f : PortS → PortS) : (s.onPort p f).rxs = s.rxs := rfl
@[simp] theorem State.onPort_exchs (s : State) (p : Nat) (f : PortS → PortS) : (s.onPort p f).exchs = s.exchs := rfl
@[simp] theorem State.onPort_rounds (s : State) (p : Nat) (f : PortS → PortS) : (s.onPort p f).rounds = s.rounds := rfl
@[simp] theorem State.onPort_slots (s : State) (p : Nat) (f : PortS → PortS) : (s.onPort p f).slots = s.slots := rfl
@[simp] theorem State.onPort_ctx (s : State) (p : Nat) (f : PortS → PortS) : (s.onPort p f).ctx = s.ctx := rfl
@[simp] theorem State.onPort_cache (s : State) (p : Nat) (f : PortS → PortS) : (s.onPort p f).cache = s.cache := rfl
@[simp] theorem State.onPort_leases (s : State) (p : Nat) (f : PortS → PortS) : (s.onPort p f).leases = s.leases := rfl
@[simp] theorem State.onPort_leaseQ (s : State) (p : Nat) (f : PortS → PortS) : (s.onPort p f).leaseQ = s.leaseQ := rfl
@[simp] theorem State.onPort_jq (s : State) (p : Nat) (f : PortS → PortS) : (s.onPort p f).jq = s.jq := rfl
@[simp] theorem State.onPort_jrn (s : State) (p : Nat) (f : PortS → PortS) : (s.onPort p f).jrn = s.jrn := rfl
@[simp] theorem State.onPort_home (s : State) (p : Nat) (f : PortS → PortS) : (s.onPort p f).home = s.home := rfl
@[simp] theorem State.onPort_spool (s : State) (p : Nat) (f : PortS → PortS) : (s.onPort p f).spool = s.spool := rfl
@[simp] theorem State.onPort_cmdQ (s : State) (p : Nat) (f : PortS → PortS) : (s.onPort p f).cmdQ = s.cmdQ := rfl
@[simp] theorem State.onPort_planQ (s : State) (p : Nat) (f : PortS → PortS) : (s.onPort p f).planQ = s.planQ := rfl
@[simp] theorem State.onPort_mac (s : State) (p : Nat) (f : PortS → PortS) : (s.onPort p f).mac = s.mac := rfl
@[simp] theorem State.onPort_cip (s : State) (p : Nat) (f : PortS → PortS) : (s.onPort p f).cip = s.cip := rfl
@[simp] theorem State.onPort_hal (s : State) (p : Nat) (f : PortS → PortS) : (s.onPort p f).hal = s.hal := rfl
@[simp] theorem State.onPort_tst (s : State) (p : Nat) (f : PortS → PortS) : (s.onPort p f).tst = s.tst := rfl
@[simp] theorem State.onPort_links (s : State) (p : Nat) (f : PortS → PortS) : (s.onPort p f).links = s.links := rfl
@[simp] theorem State.onPort_spl (s : State) (p : Nat) (f : PortS → PortS) : (s.onPort p f).spl = s.spl := rfl
@[simp] theorem State.onPort_brd (s : State) (p : Nat) (f : PortS → PortS) : (s.onPort p f).brd = s.brd := rfl
@[simp] theorem State.onPort_up (s : State) (p : Nat) (f : PortS → PortS) : (s.onPort p f).up = s.up := rfl
@[simp] theorem State.onPort_keyq (s : State) (p : Nat) (f : PortS → PortS) : (s.onPort p f).keyq = s.keyq := rfl

/-! ### `onChain` -/

@[simp] theorem State.onChain_pending (s : State) (c : Nat) (f : ChainS → ChainS) : (s.onChain c f).pending = s.pending := rfl
@[simp] theorem State.onChain_tick (s : State) (c : Nat) (f : ChainS → ChainS) : (s.onChain c f).tick = s.tick := rfl
@[simp] theorem State.onChain_free (s : State) (c : Nat) (f : ChainS → ChainS) : (s.onChain c f).free = s.free := rfl
@[simp] theorem State.onChain_regs (s : State) (c : Nat) (f : ChainS → ChainS) : (s.onChain c f).regs = s.regs := rfl
@[simp] theorem State.onChain_shadow (s : State) (c : Nat) (f : ChainS → ChainS) : (s.onChain c f).shadow = s.shadow := rfl
@[simp] theorem State.onChain_commits (s : State) (c : Nat) (f : ChainS → ChainS) : (s.onChain c f).commits = s.commits := rfl
@[simp] theorem State.onChain_reply (s : State) (c : Nat) (f : ChainS → ChainS) : (s.onChain c f).reply = s.reply := rfl
@[simp] theorem State.onChain_rates (s : State) (c : Nat) (f : ChainS → ChainS) : (s.onChain c f).rates = s.rates := rfl
@[simp] theorem State.onChain_outq (s : State) (c : Nat) (f : ChainS → ChainS) : (s.onChain c f).outq = s.outq := rfl
@[simp] theorem State.onChain_log (s : State) (c : Nat) (f : ChainS → ChainS) : (s.onChain c f).log = s.log := rfl
@[simp] theorem State.onChain_wlog (s : State) (c : Nat) (f : ChainS → ChainS) : (s.onChain c f).wlog = s.wlog := rfl
@[simp] theorem State.onChain_jobs (s : State) (c : Nat) (f : ChainS → ChainS) : (s.onChain c f).jobs = s.jobs := rfl
@[simp] theorem State.onChain_vault (s : State) (c : Nat) (f : ChainS → ChainS) : (s.onChain c f).vault = s.vault := rfl
@[simp] theorem State.onChain_vaultq (s : State) (c : Nat) (f : ChainS → ChainS) : (s.onChain c f).vaultq = s.vaultq := rfl
@[simp] theorem State.onChain_own (s : State) (c : Nat) (f : ChainS → ChainS) : (s.onChain c f).own = s.own := rfl
@[simp] theorem State.onChain_profPhase (s : State) (c : Nat) (f : ChainS → ChainS) : (s.onChain c f).profPhase = s.profPhase := rfl
@[simp] theorem State.onChain_ports (s : State) (c : Nat) (f : ChainS → ChainS) : (s.onChain c f).ports = s.ports := rfl
@[simp] theorem State.onChain_aen (s : State) (c : Nat) (f : ChainS → ChainS) : (s.onChain c f).aen = s.aen := rfl
@[simp] theorem State.onChain_coefs (s : State) (c : Nat) (f : ChainS → ChainS) : (s.onChain c f).coefs = s.coefs := rfl
@[simp] theorem State.onChain_rxs (s : State) (c : Nat) (f : ChainS → ChainS) : (s.onChain c f).rxs = s.rxs := rfl
@[simp] theorem State.onChain_exchs (s : State) (c : Nat) (f : ChainS → ChainS) : (s.onChain c f).exchs = s.exchs := rfl
@[simp] theorem State.onChain_rounds (s : State) (c : Nat) (f : ChainS → ChainS) : (s.onChain c f).rounds = s.rounds := rfl
@[simp] theorem State.onChain_slots (s : State) (c : Nat) (f : ChainS → ChainS) : (s.onChain c f).slots = s.slots := rfl
@[simp] theorem State.onChain_ctx (s : State) (c : Nat) (f : ChainS → ChainS) : (s.onChain c f).ctx = s.ctx := rfl
@[simp] theorem State.onChain_cache (s : State) (c : Nat) (f : ChainS → ChainS) : (s.onChain c f).cache = s.cache := rfl
@[simp] theorem State.onChain_leases (s : State) (c : Nat) (f : ChainS → ChainS) : (s.onChain c f).leases = s.leases := rfl
@[simp] theorem State.onChain_leaseQ (s : State) (c : Nat) (f : ChainS → ChainS) : (s.onChain c f).leaseQ = s.leaseQ := rfl
@[simp] theorem State.onChain_jq (s : State) (c : Nat) (f : ChainS → ChainS) : (s.onChain c f).jq = s.jq := rfl
@[simp] theorem State.onChain_jrn (s : State) (c : Nat) (f : ChainS → ChainS) : (s.onChain c f).jrn = s.jrn := rfl
@[simp] theorem State.onChain_home (s : State) (c : Nat) (f : ChainS → ChainS) : (s.onChain c f).home = s.home := rfl
@[simp] theorem State.onChain_spool (s : State) (c : Nat) (f : ChainS → ChainS) : (s.onChain c f).spool = s.spool := rfl
@[simp] theorem State.onChain_cmdQ (s : State) (c : Nat) (f : ChainS → ChainS) : (s.onChain c f).cmdQ = s.cmdQ := rfl
@[simp] theorem State.onChain_planQ (s : State) (c : Nat) (f : ChainS → ChainS) : (s.onChain c f).planQ = s.planQ := rfl
@[simp] theorem State.onChain_mac (s : State) (c : Nat) (f : ChainS → ChainS) : (s.onChain c f).mac = s.mac := rfl
@[simp] theorem State.onChain_cip (s : State) (c : Nat) (f : ChainS → ChainS) : (s.onChain c f).cip = s.cip := rfl
@[simp] theorem State.onChain_hal (s : State) (c : Nat) (f : ChainS → ChainS) : (s.onChain c f).hal = s.hal := rfl
@[simp] theorem State.onChain_tst (s : State) (c : Nat) (f : ChainS → ChainS) : (s.onChain c f).tst = s.tst := rfl
@[simp] theorem State.onChain_links (s : State) (c : Nat) (f : ChainS → ChainS) : (s.onChain c f).links = s.links := rfl
@[simp] theorem State.onChain_spl (s : State) (c : Nat) (f : ChainS → ChainS) : (s.onChain c f).spl = s.spl := rfl
@[simp] theorem State.onChain_brd (s : State) (c : Nat) (f : ChainS → ChainS) : (s.onChain c f).brd = s.brd := rfl
@[simp] theorem State.onChain_up (s : State) (c : Nat) (f : ChainS → ChainS) : (s.onChain c f).up = s.up := rfl
@[simp] theorem State.onChain_keyq (s : State) (c : Nat) (f : ChainS → ChainS) : (s.onChain c f).keyq = s.keyq := rfl

/-! ### `onRx` -/

@[simp] theorem State.onRx_pending (s : State) (r : Nat) (f : RxS → RxS) : (s.onRx r f).pending = s.pending := rfl
@[simp] theorem State.onRx_tick (s : State) (r : Nat) (f : RxS → RxS) : (s.onRx r f).tick = s.tick := rfl
@[simp] theorem State.onRx_free (s : State) (r : Nat) (f : RxS → RxS) : (s.onRx r f).free = s.free := rfl
@[simp] theorem State.onRx_regs (s : State) (r : Nat) (f : RxS → RxS) : (s.onRx r f).regs = s.regs := rfl
@[simp] theorem State.onRx_shadow (s : State) (r : Nat) (f : RxS → RxS) : (s.onRx r f).shadow = s.shadow := rfl
@[simp] theorem State.onRx_commits (s : State) (r : Nat) (f : RxS → RxS) : (s.onRx r f).commits = s.commits := rfl
@[simp] theorem State.onRx_reply (s : State) (r : Nat) (f : RxS → RxS) : (s.onRx r f).reply = s.reply := rfl
@[simp] theorem State.onRx_rates (s : State) (r : Nat) (f : RxS → RxS) : (s.onRx r f).rates = s.rates := rfl
@[simp] theorem State.onRx_outq (s : State) (r : Nat) (f : RxS → RxS) : (s.onRx r f).outq = s.outq := rfl
@[simp] theorem State.onRx_log (s : State) (r : Nat) (f : RxS → RxS) : (s.onRx r f).log = s.log := rfl
@[simp] theorem State.onRx_wlog (s : State) (r : Nat) (f : RxS → RxS) : (s.onRx r f).wlog = s.wlog := rfl
@[simp] theorem State.onRx_jobs (s : State) (r : Nat) (f : RxS → RxS) : (s.onRx r f).jobs = s.jobs := rfl
@[simp] theorem State.onRx_vault (s : State) (r : Nat) (f : RxS → RxS) : (s.onRx r f).vault = s.vault := rfl
@[simp] theorem State.onRx_vaultq (s : State) (r : Nat) (f : RxS → RxS) : (s.onRx r f).vaultq = s.vaultq := rfl
@[simp] theorem State.onRx_own (s : State) (r : Nat) (f : RxS → RxS) : (s.onRx r f).own = s.own := rfl
@[simp] theorem State.onRx_profPhase (s : State) (r : Nat) (f : RxS → RxS) : (s.onRx r f).profPhase = s.profPhase := rfl
@[simp] theorem State.onRx_ports (s : State) (r : Nat) (f : RxS → RxS) : (s.onRx r f).ports = s.ports := rfl
@[simp] theorem State.onRx_aen (s : State) (r : Nat) (f : RxS → RxS) : (s.onRx r f).aen = s.aen := rfl
@[simp] theorem State.onRx_chains (s : State) (r : Nat) (f : RxS → RxS) : (s.onRx r f).chains = s.chains := rfl
@[simp] theorem State.onRx_coefs (s : State) (r : Nat) (f : RxS → RxS) : (s.onRx r f).coefs = s.coefs := rfl
@[simp] theorem State.onRx_exchs (s : State) (r : Nat) (f : RxS → RxS) : (s.onRx r f).exchs = s.exchs := rfl
@[simp] theorem State.onRx_rounds (s : State) (r : Nat) (f : RxS → RxS) : (s.onRx r f).rounds = s.rounds := rfl
@[simp] theorem State.onRx_slots (s : State) (r : Nat) (f : RxS → RxS) : (s.onRx r f).slots = s.slots := rfl
@[simp] theorem State.onRx_ctx (s : State) (r : Nat) (f : RxS → RxS) : (s.onRx r f).ctx = s.ctx := rfl
@[simp] theorem State.onRx_cache (s : State) (r : Nat) (f : RxS → RxS) : (s.onRx r f).cache = s.cache := rfl
@[simp] theorem State.onRx_leases (s : State) (r : Nat) (f : RxS → RxS) : (s.onRx r f).leases = s.leases := rfl
@[simp] theorem State.onRx_leaseQ (s : State) (r : Nat) (f : RxS → RxS) : (s.onRx r f).leaseQ = s.leaseQ := rfl
@[simp] theorem State.onRx_jq (s : State) (r : Nat) (f : RxS → RxS) : (s.onRx r f).jq = s.jq := rfl
@[simp] theorem State.onRx_jrn (s : State) (r : Nat) (f : RxS → RxS) : (s.onRx r f).jrn = s.jrn := rfl
@[simp] theorem State.onRx_home (s : State) (r : Nat) (f : RxS → RxS) : (s.onRx r f).home = s.home := rfl
@[simp] theorem State.onRx_spool (s : State) (r : Nat) (f : RxS → RxS) : (s.onRx r f).spool = s.spool := rfl
@[simp] theorem State.onRx_cmdQ (s : State) (r : Nat) (f : RxS → RxS) : (s.onRx r f).cmdQ = s.cmdQ := rfl
@[simp] theorem State.onRx_planQ (s : State) (r : Nat) (f : RxS → RxS) : (s.onRx r f).planQ = s.planQ := rfl
@[simp] theorem State.onRx_mac (s : State) (r : Nat) (f : RxS → RxS) : (s.onRx r f).mac = s.mac := rfl
@[simp] theorem State.onRx_cip (s : State) (r : Nat) (f : RxS → RxS) : (s.onRx r f).cip = s.cip := rfl
@[simp] theorem State.onRx_hal (s : State) (r : Nat) (f : RxS → RxS) : (s.onRx r f).hal = s.hal := rfl
@[simp] theorem State.onRx_tst (s : State) (r : Nat) (f : RxS → RxS) : (s.onRx r f).tst = s.tst := rfl
@[simp] theorem State.onRx_links (s : State) (r : Nat) (f : RxS → RxS) : (s.onRx r f).links = s.links := rfl
@[simp] theorem State.onRx_spl (s : State) (r : Nat) (f : RxS → RxS) : (s.onRx r f).spl = s.spl := rfl
@[simp] theorem State.onRx_brd (s : State) (r : Nat) (f : RxS → RxS) : (s.onRx r f).brd = s.brd := rfl
@[simp] theorem State.onRx_up (s : State) (r : Nat) (f : RxS → RxS) : (s.onRx r f).up = s.up := rfl
@[simp] theorem State.onRx_keyq (s : State) (r : Nat) (f : RxS → RxS) : (s.onRx r f).keyq = s.keyq := rfl

/-! ### `onJob` -/

@[simp] theorem State.onJob_pending (s : State) (k : Nat) (f : JobS → JobS) : (s.onJob k f).pending = s.pending := rfl
@[simp] theorem State.onJob_tick (s : State) (k : Nat) (f : JobS → JobS) : (s.onJob k f).tick = s.tick := rfl
@[simp] theorem State.onJob_free (s : State) (k : Nat) (f : JobS → JobS) : (s.onJob k f).free = s.free := rfl
@[simp] theorem State.onJob_regs (s : State) (k : Nat) (f : JobS → JobS) : (s.onJob k f).regs = s.regs := rfl
@[simp] theorem State.onJob_shadow (s : State) (k : Nat) (f : JobS → JobS) : (s.onJob k f).shadow = s.shadow := rfl
@[simp] theorem State.onJob_commits (s : State) (k : Nat) (f : JobS → JobS) : (s.onJob k f).commits = s.commits := rfl
@[simp] theorem State.onJob_reply (s : State) (k : Nat) (f : JobS → JobS) : (s.onJob k f).reply = s.reply := rfl
@[simp] theorem State.onJob_rates (s : State) (k : Nat) (f : JobS → JobS) : (s.onJob k f).rates = s.rates := rfl
@[simp] theorem State.onJob_outq (s : State) (k : Nat) (f : JobS → JobS) : (s.onJob k f).outq = s.outq := rfl
@[simp] theorem State.onJob_log (s : State) (k : Nat) (f : JobS → JobS) : (s.onJob k f).log = s.log := rfl
@[simp] theorem State.onJob_wlog (s : State) (k : Nat) (f : JobS → JobS) : (s.onJob k f).wlog = s.wlog := rfl
@[simp] theorem State.onJob_vault (s : State) (k : Nat) (f : JobS → JobS) : (s.onJob k f).vault = s.vault := rfl
@[simp] theorem State.onJob_vaultq (s : State) (k : Nat) (f : JobS → JobS) : (s.onJob k f).vaultq = s.vaultq := rfl
@[simp] theorem State.onJob_own (s : State) (k : Nat) (f : JobS → JobS) : (s.onJob k f).own = s.own := rfl
@[simp] theorem State.onJob_profPhase (s : State) (k : Nat) (f : JobS → JobS) : (s.onJob k f).profPhase = s.profPhase := rfl
@[simp] theorem State.onJob_ports (s : State) (k : Nat) (f : JobS → JobS) : (s.onJob k f).ports = s.ports := rfl
@[simp] theorem State.onJob_aen (s : State) (k : Nat) (f : JobS → JobS) : (s.onJob k f).aen = s.aen := rfl
@[simp] theorem State.onJob_chains (s : State) (k : Nat) (f : JobS → JobS) : (s.onJob k f).chains = s.chains := rfl
@[simp] theorem State.onJob_coefs (s : State) (k : Nat) (f : JobS → JobS) : (s.onJob k f).coefs = s.coefs := rfl
@[simp] theorem State.onJob_rxs (s : State) (k : Nat) (f : JobS → JobS) : (s.onJob k f).rxs = s.rxs := rfl
@[simp] theorem State.onJob_exchs (s : State) (k : Nat) (f : JobS → JobS) : (s.onJob k f).exchs = s.exchs := rfl
@[simp] theorem State.onJob_rounds (s : State) (k : Nat) (f : JobS → JobS) : (s.onJob k f).rounds = s.rounds := rfl
@[simp] theorem State.onJob_slots (s : State) (k : Nat) (f : JobS → JobS) : (s.onJob k f).slots = s.slots := rfl
@[simp] theorem State.onJob_ctx (s : State) (k : Nat) (f : JobS → JobS) : (s.onJob k f).ctx = s.ctx := rfl
@[simp] theorem State.onJob_cache (s : State) (k : Nat) (f : JobS → JobS) : (s.onJob k f).cache = s.cache := rfl
@[simp] theorem State.onJob_leases (s : State) (k : Nat) (f : JobS → JobS) : (s.onJob k f).leases = s.leases := rfl
@[simp] theorem State.onJob_leaseQ (s : State) (k : Nat) (f : JobS → JobS) : (s.onJob k f).leaseQ = s.leaseQ := rfl
@[simp] theorem State.onJob_jq (s : State) (k : Nat) (f : JobS → JobS) : (s.onJob k f).jq = s.jq := rfl
@[simp] theorem State.onJob_jrn (s : State) (k : Nat) (f : JobS → JobS) : (s.onJob k f).jrn = s.jrn := rfl
@[simp] theorem State.onJob_home (s : State) (k : Nat) (f : JobS → JobS) : (s.onJob k f).home = s.home := rfl
@[simp] theorem State.onJob_spool (s : State) (k : Nat) (f : JobS → JobS) : (s.onJob k f).spool = s.spool := rfl
@[simp] theorem State.onJob_cmdQ (s : State) (k : Nat) (f : JobS → JobS) : (s.onJob k f).cmdQ = s.cmdQ := rfl
@[simp] theorem State.onJob_planQ (s : State) (k : Nat) (f : JobS → JobS) : (s.onJob k f).planQ = s.planQ := rfl
@[simp] theorem State.onJob_mac (s : State) (k : Nat) (f : JobS → JobS) : (s.onJob k f).mac = s.mac := rfl
@[simp] theorem State.onJob_cip (s : State) (k : Nat) (f : JobS → JobS) : (s.onJob k f).cip = s.cip := rfl
@[simp] theorem State.onJob_hal (s : State) (k : Nat) (f : JobS → JobS) : (s.onJob k f).hal = s.hal := rfl
@[simp] theorem State.onJob_tst (s : State) (k : Nat) (f : JobS → JobS) : (s.onJob k f).tst = s.tst := rfl
@[simp] theorem State.onJob_links (s : State) (k : Nat) (f : JobS → JobS) : (s.onJob k f).links = s.links := rfl
@[simp] theorem State.onJob_spl (s : State) (k : Nat) (f : JobS → JobS) : (s.onJob k f).spl = s.spl := rfl
@[simp] theorem State.onJob_brd (s : State) (k : Nat) (f : JobS → JobS) : (s.onJob k f).brd = s.brd := rfl
@[simp] theorem State.onJob_up (s : State) (k : Nat) (f : JobS → JobS) : (s.onJob k f).up = s.up := rfl
@[simp] theorem State.onJob_keyq (s : State) (k : Nat) (f : JobS → JobS) : (s.onJob k f).keyq = s.keyq := rfl

/-! ### `onMac` -/

@[simp] theorem State.onMac_pending (s : State) (f : MacS → MacS) : (s.onMac f).pending = s.pending := rfl
@[simp] theorem State.onMac_tick (s : State) (f : MacS → MacS) : (s.onMac f).tick = s.tick := rfl
@[simp] theorem State.onMac_free (s : State) (f : MacS → MacS) : (s.onMac f).free = s.free := rfl
@[simp] theorem State.onMac_regs (s : State) (f : MacS → MacS) : (s.onMac f).regs = s.regs := rfl
@[simp] theorem State.onMac_shadow (s : State) (f : MacS → MacS) : (s.onMac f).shadow = s.shadow := rfl
@[simp] theorem State.onMac_commits (s : State) (f : MacS → MacS) : (s.onMac f).commits = s.commits := rfl
@[simp] theorem State.onMac_reply (s : State) (f : MacS → MacS) : (s.onMac f).reply = s.reply := rfl
@[simp] theorem State.onMac_rates (s : State) (f : MacS → MacS) : (s.onMac f).rates = s.rates := rfl
@[simp] theorem State.onMac_outq (s : State) (f : MacS → MacS) : (s.onMac f).outq = s.outq := rfl
@[simp] theorem State.onMac_log (s : State) (f : MacS → MacS) : (s.onMac f).log = s.log := rfl
@[simp] theorem State.onMac_wlog (s : State) (f : MacS → MacS) : (s.onMac f).wlog = s.wlog := rfl
@[simp] theorem State.onMac_jobs (s : State) (f : MacS → MacS) : (s.onMac f).jobs = s.jobs := rfl
@[simp] theorem State.onMac_vault (s : State) (f : MacS → MacS) : (s.onMac f).vault = s.vault := rfl
@[simp] theorem State.onMac_vaultq (s : State) (f : MacS → MacS) : (s.onMac f).vaultq = s.vaultq := rfl
@[simp] theorem State.onMac_own (s : State) (f : MacS → MacS) : (s.onMac f).own = s.own := rfl
@[simp] theorem State.onMac_profPhase (s : State) (f : MacS → MacS) : (s.onMac f).profPhase = s.profPhase := rfl
@[simp] theorem State.onMac_ports (s : State) (f : MacS → MacS) : (s.onMac f).ports = s.ports := rfl
@[simp] theorem State.onMac_aen (s : State) (f : MacS → MacS) : (s.onMac f).aen = s.aen := rfl
@[simp] theorem State.onMac_chains (s : State) (f : MacS → MacS) : (s.onMac f).chains = s.chains := rfl
@[simp] theorem State.onMac_coefs (s : State) (f : MacS → MacS) : (s.onMac f).coefs = s.coefs := rfl
@[simp] theorem State.onMac_rxs (s : State) (f : MacS → MacS) : (s.onMac f).rxs = s.rxs := rfl
@[simp] theorem State.onMac_exchs (s : State) (f : MacS → MacS) : (s.onMac f).exchs = s.exchs := rfl
@[simp] theorem State.onMac_rounds (s : State) (f : MacS → MacS) : (s.onMac f).rounds = s.rounds := rfl
@[simp] theorem State.onMac_slots (s : State) (f : MacS → MacS) : (s.onMac f).slots = s.slots := rfl
@[simp] theorem State.onMac_ctx (s : State) (f : MacS → MacS) : (s.onMac f).ctx = s.ctx := rfl
@[simp] theorem State.onMac_cache (s : State) (f : MacS → MacS) : (s.onMac f).cache = s.cache := rfl
@[simp] theorem State.onMac_leases (s : State) (f : MacS → MacS) : (s.onMac f).leases = s.leases := rfl
@[simp] theorem State.onMac_leaseQ (s : State) (f : MacS → MacS) : (s.onMac f).leaseQ = s.leaseQ := rfl
@[simp] theorem State.onMac_jq (s : State) (f : MacS → MacS) : (s.onMac f).jq = s.jq := rfl
@[simp] theorem State.onMac_jrn (s : State) (f : MacS → MacS) : (s.onMac f).jrn = s.jrn := rfl
@[simp] theorem State.onMac_home (s : State) (f : MacS → MacS) : (s.onMac f).home = s.home := rfl
@[simp] theorem State.onMac_spool (s : State) (f : MacS → MacS) : (s.onMac f).spool = s.spool := rfl
@[simp] theorem State.onMac_cmdQ (s : State) (f : MacS → MacS) : (s.onMac f).cmdQ = s.cmdQ := rfl
@[simp] theorem State.onMac_planQ (s : State) (f : MacS → MacS) : (s.onMac f).planQ = s.planQ := rfl
@[simp] theorem State.onMac_cip (s : State) (f : MacS → MacS) : (s.onMac f).cip = s.cip := rfl
@[simp] theorem State.onMac_hal (s : State) (f : MacS → MacS) : (s.onMac f).hal = s.hal := rfl
@[simp] theorem State.onMac_tst (s : State) (f : MacS → MacS) : (s.onMac f).tst = s.tst := rfl
@[simp] theorem State.onMac_links (s : State) (f : MacS → MacS) : (s.onMac f).links = s.links := rfl
@[simp] theorem State.onMac_spl (s : State) (f : MacS → MacS) : (s.onMac f).spl = s.spl := rfl
@[simp] theorem State.onMac_brd (s : State) (f : MacS → MacS) : (s.onMac f).brd = s.brd := rfl
@[simp] theorem State.onMac_up (s : State) (f : MacS → MacS) : (s.onMac f).up = s.up := rfl
@[simp] theorem State.onMac_keyq (s : State) (f : MacS → MacS) : (s.onMac f).keyq = s.keyq := rfl

/-! ### `onCip` -/

@[simp] theorem State.onCip_pending (s : State) (f : CipS → CipS) : (s.onCip f).pending = s.pending := rfl
@[simp] theorem State.onCip_tick (s : State) (f : CipS → CipS) : (s.onCip f).tick = s.tick := rfl
@[simp] theorem State.onCip_free (s : State) (f : CipS → CipS) : (s.onCip f).free = s.free := rfl
@[simp] theorem State.onCip_regs (s : State) (f : CipS → CipS) : (s.onCip f).regs = s.regs := rfl
@[simp] theorem State.onCip_shadow (s : State) (f : CipS → CipS) : (s.onCip f).shadow = s.shadow := rfl
@[simp] theorem State.onCip_commits (s : State) (f : CipS → CipS) : (s.onCip f).commits = s.commits := rfl
@[simp] theorem State.onCip_reply (s : State) (f : CipS → CipS) : (s.onCip f).reply = s.reply := rfl
@[simp] theorem State.onCip_rates (s : State) (f : CipS → CipS) : (s.onCip f).rates = s.rates := rfl
@[simp] theorem State.onCip_outq (s : State) (f : CipS → CipS) : (s.onCip f).outq = s.outq := rfl
@[simp] theorem State.onCip_log (s : State) (f : CipS → CipS) : (s.onCip f).log = s.log := rfl
@[simp] theorem State.onCip_wlog (s : State) (f : CipS → CipS) : (s.onCip f).wlog = s.wlog := rfl
@[simp] theorem State.onCip_jobs (s : State) (f : CipS → CipS) : (s.onCip f).jobs = s.jobs := rfl
@[simp] theorem State.onCip_vault (s : State) (f : CipS → CipS) : (s.onCip f).vault = s.vault := rfl
@[simp] theorem State.onCip_vaultq (s : State) (f : CipS → CipS) : (s.onCip f).vaultq = s.vaultq := rfl
@[simp] theorem State.onCip_own (s : State) (f : CipS → CipS) : (s.onCip f).own = s.own := rfl
@[simp] theorem State.onCip_profPhase (s : State) (f : CipS → CipS) : (s.onCip f).profPhase = s.profPhase := rfl
@[simp] theorem State.onCip_ports (s : State) (f : CipS → CipS) : (s.onCip f).ports = s.ports := rfl
@[simp] theorem State.onCip_aen (s : State) (f : CipS → CipS) : (s.onCip f).aen = s.aen := rfl
@[simp] theorem State.onCip_chains (s : State) (f : CipS → CipS) : (s.onCip f).chains = s.chains := rfl
@[simp] theorem State.onCip_coefs (s : State) (f : CipS → CipS) : (s.onCip f).coefs = s.coefs := rfl
@[simp] theorem State.onCip_rxs (s : State) (f : CipS → CipS) : (s.onCip f).rxs = s.rxs := rfl
@[simp] theorem State.onCip_exchs (s : State) (f : CipS → CipS) : (s.onCip f).exchs = s.exchs := rfl
@[simp] theorem State.onCip_rounds (s : State) (f : CipS → CipS) : (s.onCip f).rounds = s.rounds := rfl
@[simp] theorem State.onCip_slots (s : State) (f : CipS → CipS) : (s.onCip f).slots = s.slots := rfl
@[simp] theorem State.onCip_ctx (s : State) (f : CipS → CipS) : (s.onCip f).ctx = s.ctx := rfl
@[simp] theorem State.onCip_cache (s : State) (f : CipS → CipS) : (s.onCip f).cache = s.cache := rfl
@[simp] theorem State.onCip_leases (s : State) (f : CipS → CipS) : (s.onCip f).leases = s.leases := rfl
@[simp] theorem State.onCip_leaseQ (s : State) (f : CipS → CipS) : (s.onCip f).leaseQ = s.leaseQ := rfl
@[simp] theorem State.onCip_jq (s : State) (f : CipS → CipS) : (s.onCip f).jq = s.jq := rfl
@[simp] theorem State.onCip_jrn (s : State) (f : CipS → CipS) : (s.onCip f).jrn = s.jrn := rfl
@[simp] theorem State.onCip_home (s : State) (f : CipS → CipS) : (s.onCip f).home = s.home := rfl
@[simp] theorem State.onCip_spool (s : State) (f : CipS → CipS) : (s.onCip f).spool = s.spool := rfl
@[simp] theorem State.onCip_cmdQ (s : State) (f : CipS → CipS) : (s.onCip f).cmdQ = s.cmdQ := rfl
@[simp] theorem State.onCip_planQ (s : State) (f : CipS → CipS) : (s.onCip f).planQ = s.planQ := rfl
@[simp] theorem State.onCip_mac (s : State) (f : CipS → CipS) : (s.onCip f).mac = s.mac := rfl
@[simp] theorem State.onCip_hal (s : State) (f : CipS → CipS) : (s.onCip f).hal = s.hal := rfl
@[simp] theorem State.onCip_tst (s : State) (f : CipS → CipS) : (s.onCip f).tst = s.tst := rfl
@[simp] theorem State.onCip_links (s : State) (f : CipS → CipS) : (s.onCip f).links = s.links := rfl
@[simp] theorem State.onCip_spl (s : State) (f : CipS → CipS) : (s.onCip f).spl = s.spl := rfl
@[simp] theorem State.onCip_brd (s : State) (f : CipS → CipS) : (s.onCip f).brd = s.brd := rfl
@[simp] theorem State.onCip_up (s : State) (f : CipS → CipS) : (s.onCip f).up = s.up := rfl
@[simp] theorem State.onCip_keyq (s : State) (f : CipS → CipS) : (s.onCip f).keyq = s.keyq := rfl

/-! ### `onSpl` -/

@[simp] theorem State.onSpl_pending (s : State) (f : SplS → SplS) : (s.onSpl f).pending = s.pending := rfl
@[simp] theorem State.onSpl_tick (s : State) (f : SplS → SplS) : (s.onSpl f).tick = s.tick := rfl
@[simp] theorem State.onSpl_free (s : State) (f : SplS → SplS) : (s.onSpl f).free = s.free := rfl
@[simp] theorem State.onSpl_regs (s : State) (f : SplS → SplS) : (s.onSpl f).regs = s.regs := rfl
@[simp] theorem State.onSpl_shadow (s : State) (f : SplS → SplS) : (s.onSpl f).shadow = s.shadow := rfl
@[simp] theorem State.onSpl_commits (s : State) (f : SplS → SplS) : (s.onSpl f).commits = s.commits := rfl
@[simp] theorem State.onSpl_reply (s : State) (f : SplS → SplS) : (s.onSpl f).reply = s.reply := rfl
@[simp] theorem State.onSpl_rates (s : State) (f : SplS → SplS) : (s.onSpl f).rates = s.rates := rfl
@[simp] theorem State.onSpl_outq (s : State) (f : SplS → SplS) : (s.onSpl f).outq = s.outq := rfl
@[simp] theorem State.onSpl_log (s : State) (f : SplS → SplS) : (s.onSpl f).log = s.log := rfl
@[simp] theorem State.onSpl_wlog (s : State) (f : SplS → SplS) : (s.onSpl f).wlog = s.wlog := rfl
@[simp] theorem State.onSpl_jobs (s : State) (f : SplS → SplS) : (s.onSpl f).jobs = s.jobs := rfl
@[simp] theorem State.onSpl_vault (s : State) (f : SplS → SplS) : (s.onSpl f).vault = s.vault := rfl
@[simp] theorem State.onSpl_vaultq (s : State) (f : SplS → SplS) : (s.onSpl f).vaultq = s.vaultq := rfl
@[simp] theorem State.onSpl_own (s : State) (f : SplS → SplS) : (s.onSpl f).own = s.own := rfl
@[simp] theorem State.onSpl_profPhase (s : State) (f : SplS → SplS) : (s.onSpl f).profPhase = s.profPhase := rfl
@[simp] theorem State.onSpl_ports (s : State) (f : SplS → SplS) : (s.onSpl f).ports = s.ports := rfl
@[simp] theorem State.onSpl_aen (s : State) (f : SplS → SplS) : (s.onSpl f).aen = s.aen := rfl
@[simp] theorem State.onSpl_chains (s : State) (f : SplS → SplS) : (s.onSpl f).chains = s.chains := rfl
@[simp] theorem State.onSpl_coefs (s : State) (f : SplS → SplS) : (s.onSpl f).coefs = s.coefs := rfl
@[simp] theorem State.onSpl_rxs (s : State) (f : SplS → SplS) : (s.onSpl f).rxs = s.rxs := rfl
@[simp] theorem State.onSpl_exchs (s : State) (f : SplS → SplS) : (s.onSpl f).exchs = s.exchs := rfl
@[simp] theorem State.onSpl_rounds (s : State) (f : SplS → SplS) : (s.onSpl f).rounds = s.rounds := rfl
@[simp] theorem State.onSpl_slots (s : State) (f : SplS → SplS) : (s.onSpl f).slots = s.slots := rfl
@[simp] theorem State.onSpl_ctx (s : State) (f : SplS → SplS) : (s.onSpl f).ctx = s.ctx := rfl
@[simp] theorem State.onSpl_cache (s : State) (f : SplS → SplS) : (s.onSpl f).cache = s.cache := rfl
@[simp] theorem State.onSpl_leases (s : State) (f : SplS → SplS) : (s.onSpl f).leases = s.leases := rfl
@[simp] theorem State.onSpl_leaseQ (s : State) (f : SplS → SplS) : (s.onSpl f).leaseQ = s.leaseQ := rfl
@[simp] theorem State.onSpl_jq (s : State) (f : SplS → SplS) : (s.onSpl f).jq = s.jq := rfl
@[simp] theorem State.onSpl_jrn (s : State) (f : SplS → SplS) : (s.onSpl f).jrn = s.jrn := rfl
@[simp] theorem State.onSpl_home (s : State) (f : SplS → SplS) : (s.onSpl f).home = s.home := rfl
@[simp] theorem State.onSpl_spool (s : State) (f : SplS → SplS) : (s.onSpl f).spool = s.spool := rfl
@[simp] theorem State.onSpl_cmdQ (s : State) (f : SplS → SplS) : (s.onSpl f).cmdQ = s.cmdQ := rfl
@[simp] theorem State.onSpl_planQ (s : State) (f : SplS → SplS) : (s.onSpl f).planQ = s.planQ := rfl
@[simp] theorem State.onSpl_mac (s : State) (f : SplS → SplS) : (s.onSpl f).mac = s.mac := rfl
@[simp] theorem State.onSpl_cip (s : State) (f : SplS → SplS) : (s.onSpl f).cip = s.cip := rfl
@[simp] theorem State.onSpl_hal (s : State) (f : SplS → SplS) : (s.onSpl f).hal = s.hal := rfl
@[simp] theorem State.onSpl_tst (s : State) (f : SplS → SplS) : (s.onSpl f).tst = s.tst := rfl
@[simp] theorem State.onSpl_links (s : State) (f : SplS → SplS) : (s.onSpl f).links = s.links := rfl
@[simp] theorem State.onSpl_brd (s : State) (f : SplS → SplS) : (s.onSpl f).brd = s.brd := rfl
@[simp] theorem State.onSpl_up (s : State) (f : SplS → SplS) : (s.onSpl f).up = s.up := rfl
@[simp] theorem State.onSpl_keyq (s : State) (f : SplS → SplS) : (s.onSpl f).keyq = s.keyq := rfl

/-! ### `onBrd` -/

@[simp] theorem State.onBrd_pending (s : State) (f : BrdS → BrdS) : (s.onBrd f).pending = s.pending := rfl
@[simp] theorem State.onBrd_tick (s : State) (f : BrdS → BrdS) : (s.onBrd f).tick = s.tick := rfl
@[simp] theorem State.onBrd_free (s : State) (f : BrdS → BrdS) : (s.onBrd f).free = s.free := rfl
@[simp] theorem State.onBrd_regs (s : State) (f : BrdS → BrdS) : (s.onBrd f).regs = s.regs := rfl
@[simp] theorem State.onBrd_shadow (s : State) (f : BrdS → BrdS) : (s.onBrd f).shadow = s.shadow := rfl
@[simp] theorem State.onBrd_commits (s : State) (f : BrdS → BrdS) : (s.onBrd f).commits = s.commits := rfl
@[simp] theorem State.onBrd_reply (s : State) (f : BrdS → BrdS) : (s.onBrd f).reply = s.reply := rfl
@[simp] theorem State.onBrd_rates (s : State) (f : BrdS → BrdS) : (s.onBrd f).rates = s.rates := rfl
@[simp] theorem State.onBrd_outq (s : State) (f : BrdS → BrdS) : (s.onBrd f).outq = s.outq := rfl
@[simp] theorem State.onBrd_log (s : State) (f : BrdS → BrdS) : (s.onBrd f).log = s.log := rfl
@[simp] theorem State.onBrd_wlog (s : State) (f : BrdS → BrdS) : (s.onBrd f).wlog = s.wlog := rfl
@[simp] theorem State.onBrd_jobs (s : State) (f : BrdS → BrdS) : (s.onBrd f).jobs = s.jobs := rfl
@[simp] theorem State.onBrd_vault (s : State) (f : BrdS → BrdS) : (s.onBrd f).vault = s.vault := rfl
@[simp] theorem State.onBrd_vaultq (s : State) (f : BrdS → BrdS) : (s.onBrd f).vaultq = s.vaultq := rfl
@[simp] theorem State.onBrd_own (s : State) (f : BrdS → BrdS) : (s.onBrd f).own = s.own := rfl
@[simp] theorem State.onBrd_profPhase (s : State) (f : BrdS → BrdS) : (s.onBrd f).profPhase = s.profPhase := rfl
@[simp] theorem State.onBrd_ports (s : State) (f : BrdS → BrdS) : (s.onBrd f).ports = s.ports := rfl
@[simp] theorem State.onBrd_aen (s : State) (f : BrdS → BrdS) : (s.onBrd f).aen = s.aen := rfl
@[simp] theorem State.onBrd_chains (s : State) (f : BrdS → BrdS) : (s.onBrd f).chains = s.chains := rfl
@[simp] theorem State.onBrd_coefs (s : State) (f : BrdS → BrdS) : (s.onBrd f).coefs = s.coefs := rfl
@[simp] theorem State.onBrd_rxs (s : State) (f : BrdS → BrdS) : (s.onBrd f).rxs = s.rxs := rfl
@[simp] theorem State.onBrd_exchs (s : State) (f : BrdS → BrdS) : (s.onBrd f).exchs = s.exchs := rfl
@[simp] theorem State.onBrd_rounds (s : State) (f : BrdS → BrdS) : (s.onBrd f).rounds = s.rounds := rfl
@[simp] theorem State.onBrd_slots (s : State) (f : BrdS → BrdS) : (s.onBrd f).slots = s.slots := rfl
@[simp] theorem State.onBrd_ctx (s : State) (f : BrdS → BrdS) : (s.onBrd f).ctx = s.ctx := rfl
@[simp] theorem State.onBrd_cache (s : State) (f : BrdS → BrdS) : (s.onBrd f).cache = s.cache := rfl
@[simp] theorem State.onBrd_leases (s : State) (f : BrdS → BrdS) : (s.onBrd f).leases = s.leases := rfl
@[simp] theorem State.onBrd_leaseQ (s : State) (f : BrdS → BrdS) : (s.onBrd f).leaseQ = s.leaseQ := rfl
@[simp] theorem State.onBrd_jq (s : State) (f : BrdS → BrdS) : (s.onBrd f).jq = s.jq := rfl
@[simp] theorem State.onBrd_jrn (s : State) (f : BrdS → BrdS) : (s.onBrd f).jrn = s.jrn := rfl
@[simp] theorem State.onBrd_home (s : State) (f : BrdS → BrdS) : (s.onBrd f).home = s.home := rfl
@[simp] theorem State.onBrd_spool (s : State) (f : BrdS → BrdS) : (s.onBrd f).spool = s.spool := rfl
@[simp] theorem State.onBrd_cmdQ (s : State) (f : BrdS → BrdS) : (s.onBrd f).cmdQ = s.cmdQ := rfl
@[simp] theorem State.onBrd_planQ (s : State) (f : BrdS → BrdS) : (s.onBrd f).planQ = s.planQ := rfl
@[simp] theorem State.onBrd_mac (s : State) (f : BrdS → BrdS) : (s.onBrd f).mac = s.mac := rfl
@[simp] theorem State.onBrd_cip (s : State) (f : BrdS → BrdS) : (s.onBrd f).cip = s.cip := rfl
@[simp] theorem State.onBrd_hal (s : State) (f : BrdS → BrdS) : (s.onBrd f).hal = s.hal := rfl
@[simp] theorem State.onBrd_tst (s : State) (f : BrdS → BrdS) : (s.onBrd f).tst = s.tst := rfl
@[simp] theorem State.onBrd_links (s : State) (f : BrdS → BrdS) : (s.onBrd f).links = s.links := rfl
@[simp] theorem State.onBrd_spl (s : State) (f : BrdS → BrdS) : (s.onBrd f).spl = s.spl := rfl
@[simp] theorem State.onBrd_up (s : State) (f : BrdS → BrdS) : (s.onBrd f).up = s.up := rfl
@[simp] theorem State.onBrd_keyq (s : State) (f : BrdS → BrdS) : (s.onBrd f).keyq = s.keyq := rfl

/-! ### `onHal` -/

@[simp] theorem State.onHal_pending (s : State) (f : HalS → HalS) : (s.onHal f).pending = s.pending := rfl
@[simp] theorem State.onHal_tick (s : State) (f : HalS → HalS) : (s.onHal f).tick = s.tick := rfl
@[simp] theorem State.onHal_free (s : State) (f : HalS → HalS) : (s.onHal f).free = s.free := rfl
@[simp] theorem State.onHal_regs (s : State) (f : HalS → HalS) : (s.onHal f).regs = s.regs := rfl
@[simp] theorem State.onHal_shadow (s : State) (f : HalS → HalS) : (s.onHal f).shadow = s.shadow := rfl
@[simp] theorem State.onHal_commits (s : State) (f : HalS → HalS) : (s.onHal f).commits = s.commits := rfl
@[simp] theorem State.onHal_reply (s : State) (f : HalS → HalS) : (s.onHal f).reply = s.reply := rfl
@[simp] theorem State.onHal_rates (s : State) (f : HalS → HalS) : (s.onHal f).rates = s.rates := rfl
@[simp] theorem State.onHal_outq (s : State) (f : HalS → HalS) : (s.onHal f).outq = s.outq := rfl
@[simp] theorem State.onHal_log (s : State) (f : HalS → HalS) : (s.onHal f).log = s.log := rfl
@[simp] theorem State.onHal_wlog (s : State) (f : HalS → HalS) : (s.onHal f).wlog = s.wlog := rfl
@[simp] theorem State.onHal_jobs (s : State) (f : HalS → HalS) : (s.onHal f).jobs = s.jobs := rfl
@[simp] theorem State.onHal_vault (s : State) (f : HalS → HalS) : (s.onHal f).vault = s.vault := rfl
@[simp] theorem State.onHal_vaultq (s : State) (f : HalS → HalS) : (s.onHal f).vaultq = s.vaultq := rfl
@[simp] theorem State.onHal_own (s : State) (f : HalS → HalS) : (s.onHal f).own = s.own := rfl
@[simp] theorem State.onHal_profPhase (s : State) (f : HalS → HalS) : (s.onHal f).profPhase = s.profPhase := rfl
@[simp] theorem State.onHal_ports (s : State) (f : HalS → HalS) : (s.onHal f).ports = s.ports := rfl
@[simp] theorem State.onHal_aen (s : State) (f : HalS → HalS) : (s.onHal f).aen = s.aen := rfl
@[simp] theorem State.onHal_chains (s : State) (f : HalS → HalS) : (s.onHal f).chains = s.chains := rfl
@[simp] theorem State.onHal_coefs (s : State) (f : HalS → HalS) : (s.onHal f).coefs = s.coefs := rfl
@[simp] theorem State.onHal_rxs (s : State) (f : HalS → HalS) : (s.onHal f).rxs = s.rxs := rfl
@[simp] theorem State.onHal_exchs (s : State) (f : HalS → HalS) : (s.onHal f).exchs = s.exchs := rfl
@[simp] theorem State.onHal_rounds (s : State) (f : HalS → HalS) : (s.onHal f).rounds = s.rounds := rfl
@[simp] theorem State.onHal_slots (s : State) (f : HalS → HalS) : (s.onHal f).slots = s.slots := rfl
@[simp] theorem State.onHal_ctx (s : State) (f : HalS → HalS) : (s.onHal f).ctx = s.ctx := rfl
@[simp] theorem State.onHal_cache (s : State) (f : HalS → HalS) : (s.onHal f).cache = s.cache := rfl
@[simp] theorem State.onHal_leases (s : State) (f : HalS → HalS) : (s.onHal f).leases = s.leases := rfl
@[simp] theorem State.onHal_leaseQ (s : State) (f : HalS → HalS) : (s.onHal f).leaseQ = s.leaseQ := rfl
@[simp] theorem State.onHal_jq (s : State) (f : HalS → HalS) : (s.onHal f).jq = s.jq := rfl
@[simp] theorem State.onHal_jrn (s : State) (f : HalS → HalS) : (s.onHal f).jrn = s.jrn := rfl
@[simp] theorem State.onHal_home (s : State) (f : HalS → HalS) : (s.onHal f).home = s.home := rfl
@[simp] theorem State.onHal_spool (s : State) (f : HalS → HalS) : (s.onHal f).spool = s.spool := rfl
@[simp] theorem State.onHal_cmdQ (s : State) (f : HalS → HalS) : (s.onHal f).cmdQ = s.cmdQ := rfl
@[simp] theorem State.onHal_planQ (s : State) (f : HalS → HalS) : (s.onHal f).planQ = s.planQ := rfl
@[simp] theorem State.onHal_mac (s : State) (f : HalS → HalS) : (s.onHal f).mac = s.mac := rfl
@[simp] theorem State.onHal_cip (s : State) (f : HalS → HalS) : (s.onHal f).cip = s.cip := rfl
@[simp] theorem State.onHal_tst (s : State) (f : HalS → HalS) : (s.onHal f).tst = s.tst := rfl
@[simp] theorem State.onHal_links (s : State) (f : HalS → HalS) : (s.onHal f).links = s.links := rfl
@[simp] theorem State.onHal_spl (s : State) (f : HalS → HalS) : (s.onHal f).spl = s.spl := rfl
@[simp] theorem State.onHal_brd (s : State) (f : HalS → HalS) : (s.onHal f).brd = s.brd := rfl
@[simp] theorem State.onHal_up (s : State) (f : HalS → HalS) : (s.onHal f).up = s.up := rfl
@[simp] theorem State.onHal_keyq (s : State) (f : HalS → HalS) : (s.onHal f).keyq = s.keyq := rfl

/-! ### `onLink` -/

@[simp] theorem State.onLink_pending (s : State) (l : Nat) (f : LinkS → LinkS) : (s.onLink l f).pending = s.pending := rfl
@[simp] theorem State.onLink_tick (s : State) (l : Nat) (f : LinkS → LinkS) : (s.onLink l f).tick = s.tick := rfl
@[simp] theorem State.onLink_free (s : State) (l : Nat) (f : LinkS → LinkS) : (s.onLink l f).free = s.free := rfl
@[simp] theorem State.onLink_regs (s : State) (l : Nat) (f : LinkS → LinkS) : (s.onLink l f).regs = s.regs := rfl
@[simp] theorem State.onLink_shadow (s : State) (l : Nat) (f : LinkS → LinkS) : (s.onLink l f).shadow = s.shadow := rfl
@[simp] theorem State.onLink_commits (s : State) (l : Nat) (f : LinkS → LinkS) : (s.onLink l f).commits = s.commits := rfl
@[simp] theorem State.onLink_reply (s : State) (l : Nat) (f : LinkS → LinkS) : (s.onLink l f).reply = s.reply := rfl
@[simp] theorem State.onLink_rates (s : State) (l : Nat) (f : LinkS → LinkS) : (s.onLink l f).rates = s.rates := rfl
@[simp] theorem State.onLink_outq (s : State) (l : Nat) (f : LinkS → LinkS) : (s.onLink l f).outq = s.outq := rfl
@[simp] theorem State.onLink_log (s : State) (l : Nat) (f : LinkS → LinkS) : (s.onLink l f).log = s.log := rfl
@[simp] theorem State.onLink_wlog (s : State) (l : Nat) (f : LinkS → LinkS) : (s.onLink l f).wlog = s.wlog := rfl
@[simp] theorem State.onLink_jobs (s : State) (l : Nat) (f : LinkS → LinkS) : (s.onLink l f).jobs = s.jobs := rfl
@[simp] theorem State.onLink_vault (s : State) (l : Nat) (f : LinkS → LinkS) : (s.onLink l f).vault = s.vault := rfl
@[simp] theorem State.onLink_vaultq (s : State) (l : Nat) (f : LinkS → LinkS) : (s.onLink l f).vaultq = s.vaultq := rfl
@[simp] theorem State.onLink_own (s : State) (l : Nat) (f : LinkS → LinkS) : (s.onLink l f).own = s.own := rfl
@[simp] theorem State.onLink_profPhase (s : State) (l : Nat) (f : LinkS → LinkS) : (s.onLink l f).profPhase = s.profPhase := rfl
@[simp] theorem State.onLink_ports (s : State) (l : Nat) (f : LinkS → LinkS) : (s.onLink l f).ports = s.ports := rfl
@[simp] theorem State.onLink_aen (s : State) (l : Nat) (f : LinkS → LinkS) : (s.onLink l f).aen = s.aen := rfl
@[simp] theorem State.onLink_chains (s : State) (l : Nat) (f : LinkS → LinkS) : (s.onLink l f).chains = s.chains := rfl
@[simp] theorem State.onLink_coefs (s : State) (l : Nat) (f : LinkS → LinkS) : (s.onLink l f).coefs = s.coefs := rfl
@[simp] theorem State.onLink_rxs (s : State) (l : Nat) (f : LinkS → LinkS) : (s.onLink l f).rxs = s.rxs := rfl
@[simp] theorem State.onLink_exchs (s : State) (l : Nat) (f : LinkS → LinkS) : (s.onLink l f).exchs = s.exchs := rfl
@[simp] theorem State.onLink_rounds (s : State) (l : Nat) (f : LinkS → LinkS) : (s.onLink l f).rounds = s.rounds := rfl
@[simp] theorem State.onLink_slots (s : State) (l : Nat) (f : LinkS → LinkS) : (s.onLink l f).slots = s.slots := rfl
@[simp] theorem State.onLink_ctx (s : State) (l : Nat) (f : LinkS → LinkS) : (s.onLink l f).ctx = s.ctx := rfl
@[simp] theorem State.onLink_cache (s : State) (l : Nat) (f : LinkS → LinkS) : (s.onLink l f).cache = s.cache := rfl
@[simp] theorem State.onLink_leases (s : State) (l : Nat) (f : LinkS → LinkS) : (s.onLink l f).leases = s.leases := rfl
@[simp] theorem State.onLink_leaseQ (s : State) (l : Nat) (f : LinkS → LinkS) : (s.onLink l f).leaseQ = s.leaseQ := rfl
@[simp] theorem State.onLink_jq (s : State) (l : Nat) (f : LinkS → LinkS) : (s.onLink l f).jq = s.jq := rfl
@[simp] theorem State.onLink_jrn (s : State) (l : Nat) (f : LinkS → LinkS) : (s.onLink l f).jrn = s.jrn := rfl
@[simp] theorem State.onLink_home (s : State) (l : Nat) (f : LinkS → LinkS) : (s.onLink l f).home = s.home := rfl
@[simp] theorem State.onLink_spool (s : State) (l : Nat) (f : LinkS → LinkS) : (s.onLink l f).spool = s.spool := rfl
@[simp] theorem State.onLink_cmdQ (s : State) (l : Nat) (f : LinkS → LinkS) : (s.onLink l f).cmdQ = s.cmdQ := rfl
@[simp] theorem State.onLink_planQ (s : State) (l : Nat) (f : LinkS → LinkS) : (s.onLink l f).planQ = s.planQ := rfl
@[simp] theorem State.onLink_mac (s : State) (l : Nat) (f : LinkS → LinkS) : (s.onLink l f).mac = s.mac := rfl
@[simp] theorem State.onLink_cip (s : State) (l : Nat) (f : LinkS → LinkS) : (s.onLink l f).cip = s.cip := rfl
@[simp] theorem State.onLink_hal (s : State) (l : Nat) (f : LinkS → LinkS) : (s.onLink l f).hal = s.hal := rfl
@[simp] theorem State.onLink_tst (s : State) (l : Nat) (f : LinkS → LinkS) : (s.onLink l f).tst = s.tst := rfl
@[simp] theorem State.onLink_spl (s : State) (l : Nat) (f : LinkS → LinkS) : (s.onLink l f).spl = s.spl := rfl
@[simp] theorem State.onLink_brd (s : State) (l : Nat) (f : LinkS → LinkS) : (s.onLink l f).brd = s.brd := rfl
@[simp] theorem State.onLink_up (s : State) (l : Nat) (f : LinkS → LinkS) : (s.onLink l f).up = s.up := rfl
@[simp] theorem State.onLink_keyq (s : State) (l : Nat) (f : LinkS → LinkS) : (s.onLink l f).keyq = s.keyq := rfl

/-! ### `onSlot` -/

@[simp] theorem State.onSlot_pending (s : State) (k : Nat) (f : Slot → Slot) : (s.onSlot k f).pending = s.pending := rfl
@[simp] theorem State.onSlot_tick (s : State) (k : Nat) (f : Slot → Slot) : (s.onSlot k f).tick = s.tick := rfl
@[simp] theorem State.onSlot_free (s : State) (k : Nat) (f : Slot → Slot) : (s.onSlot k f).free = s.free := rfl
@[simp] theorem State.onSlot_regs (s : State) (k : Nat) (f : Slot → Slot) : (s.onSlot k f).regs = s.regs := rfl
@[simp] theorem State.onSlot_shadow (s : State) (k : Nat) (f : Slot → Slot) : (s.onSlot k f).shadow = s.shadow := rfl
@[simp] theorem State.onSlot_commits (s : State) (k : Nat) (f : Slot → Slot) : (s.onSlot k f).commits = s.commits := rfl
@[simp] theorem State.onSlot_reply (s : State) (k : Nat) (f : Slot → Slot) : (s.onSlot k f).reply = s.reply := rfl
@[simp] theorem State.onSlot_rates (s : State) (k : Nat) (f : Slot → Slot) : (s.onSlot k f).rates = s.rates := rfl
@[simp] theorem State.onSlot_outq (s : State) (k : Nat) (f : Slot → Slot) : (s.onSlot k f).outq = s.outq := rfl
@[simp] theorem State.onSlot_log (s : State) (k : Nat) (f : Slot → Slot) : (s.onSlot k f).log = s.log := rfl
@[simp] theorem State.onSlot_wlog (s : State) (k : Nat) (f : Slot → Slot) : (s.onSlot k f).wlog = s.wlog := rfl
@[simp] theorem State.onSlot_jobs (s : State) (k : Nat) (f : Slot → Slot) : (s.onSlot k f).jobs = s.jobs := rfl
@[simp] theorem State.onSlot_vault (s : State) (k : Nat) (f : Slot → Slot) : (s.onSlot k f).vault = s.vault := rfl
@[simp] theorem State.onSlot_vaultq (s : State) (k : Nat) (f : Slot → Slot) : (s.onSlot k f).vaultq = s.vaultq := rfl
@[simp] theorem State.onSlot_own (s : State) (k : Nat) (f : Slot → Slot) : (s.onSlot k f).own = s.own := rfl
@[simp] theorem State.onSlot_profPhase (s : State) (k : Nat) (f : Slot → Slot) : (s.onSlot k f).profPhase = s.profPhase := rfl
@[simp] theorem State.onSlot_ports (s : State) (k : Nat) (f : Slot → Slot) : (s.onSlot k f).ports = s.ports := rfl
@[simp] theorem State.onSlot_aen (s : State) (k : Nat) (f : Slot → Slot) : (s.onSlot k f).aen = s.aen := rfl
@[simp] theorem State.onSlot_chains (s : State) (k : Nat) (f : Slot → Slot) : (s.onSlot k f).chains = s.chains := rfl
@[simp] theorem State.onSlot_coefs (s : State) (k : Nat) (f : Slot → Slot) : (s.onSlot k f).coefs = s.coefs := rfl
@[simp] theorem State.onSlot_rxs (s : State) (k : Nat) (f : Slot → Slot) : (s.onSlot k f).rxs = s.rxs := rfl
@[simp] theorem State.onSlot_exchs (s : State) (k : Nat) (f : Slot → Slot) : (s.onSlot k f).exchs = s.exchs := rfl
@[simp] theorem State.onSlot_rounds (s : State) (k : Nat) (f : Slot → Slot) : (s.onSlot k f).rounds = s.rounds := rfl
@[simp] theorem State.onSlot_ctx (s : State) (k : Nat) (f : Slot → Slot) : (s.onSlot k f).ctx = s.ctx := rfl
@[simp] theorem State.onSlot_cache (s : State) (k : Nat) (f : Slot → Slot) : (s.onSlot k f).cache = s.cache := rfl
@[simp] theorem State.onSlot_leases (s : State) (k : Nat) (f : Slot → Slot) : (s.onSlot k f).leases = s.leases := rfl
@[simp] theorem State.onSlot_leaseQ (s : State) (k : Nat) (f : Slot → Slot) : (s.onSlot k f).leaseQ = s.leaseQ := rfl
@[simp] theorem State.onSlot_jq (s : State) (k : Nat) (f : Slot → Slot) : (s.onSlot k f).jq = s.jq := rfl
@[simp] theorem State.onSlot_jrn (s : State) (k : Nat) (f : Slot → Slot) : (s.onSlot k f).jrn = s.jrn := rfl
@[simp] theorem State.onSlot_home (s : State) (k : Nat) (f : Slot → Slot) : (s.onSlot k f).home = s.home := rfl
@[simp] theorem State.onSlot_spool (s : State) (k : Nat) (f : Slot → Slot) : (s.onSlot k f).spool = s.spool := rfl
@[simp] theorem State.onSlot_cmdQ (s : State) (k : Nat) (f : Slot → Slot) : (s.onSlot k f).cmdQ = s.cmdQ := rfl
@[simp] theorem State.onSlot_planQ (s : State) (k : Nat) (f : Slot → Slot) : (s.onSlot k f).planQ = s.planQ := rfl
@[simp] theorem State.onSlot_mac (s : State) (k : Nat) (f : Slot → Slot) : (s.onSlot k f).mac = s.mac := rfl
@[simp] theorem State.onSlot_cip (s : State) (k : Nat) (f : Slot → Slot) : (s.onSlot k f).cip = s.cip := rfl
@[simp] theorem State.onSlot_hal (s : State) (k : Nat) (f : Slot → Slot) : (s.onSlot k f).hal = s.hal := rfl
@[simp] theorem State.onSlot_tst (s : State) (k : Nat) (f : Slot → Slot) : (s.onSlot k f).tst = s.tst := rfl
@[simp] theorem State.onSlot_links (s : State) (k : Nat) (f : Slot → Slot) : (s.onSlot k f).links = s.links := rfl
@[simp] theorem State.onSlot_spl (s : State) (k : Nat) (f : Slot → Slot) : (s.onSlot k f).spl = s.spl := rfl
@[simp] theorem State.onSlot_brd (s : State) (k : Nat) (f : Slot → Slot) : (s.onSlot k f).brd = s.brd := rfl
@[simp] theorem State.onSlot_up (s : State) (k : Nat) (f : Slot → Slot) : (s.onSlot k f).up = s.up := rfl
@[simp] theorem State.onSlot_keyq (s : State) (k : Nat) (f : Slot → Slot) : (s.onSlot k f).keyq = s.keyq := rfl

/-! ### `onCache` -/

@[simp] theorem State.onCache_pending (s : State) (k : Nat) (f : CacheE → CacheE) : (s.onCache k f).pending = s.pending := rfl
@[simp] theorem State.onCache_tick (s : State) (k : Nat) (f : CacheE → CacheE) : (s.onCache k f).tick = s.tick := rfl
@[simp] theorem State.onCache_free (s : State) (k : Nat) (f : CacheE → CacheE) : (s.onCache k f).free = s.free := rfl
@[simp] theorem State.onCache_regs (s : State) (k : Nat) (f : CacheE → CacheE) : (s.onCache k f).regs = s.regs := rfl
@[simp] theorem State.onCache_shadow (s : State) (k : Nat) (f : CacheE → CacheE) : (s.onCache k f).shadow = s.shadow := rfl
@[simp] theorem State.onCache_commits (s : State) (k : Nat) (f : CacheE → CacheE) : (s.onCache k f).commits = s.commits := rfl
@[simp] theorem State.onCache_reply (s : State) (k : Nat) (f : CacheE → CacheE) : (s.onCache k f).reply = s.reply := rfl
@[simp] theorem State.onCache_rates (s : State) (k : Nat) (f : CacheE → CacheE) : (s.onCache k f).rates = s.rates := rfl
@[simp] theorem State.onCache_outq (s : State) (k : Nat) (f : CacheE → CacheE) : (s.onCache k f).outq = s.outq := rfl
@[simp] theorem State.onCache_log (s : State) (k : Nat) (f : CacheE → CacheE) : (s.onCache k f).log = s.log := rfl
@[simp] theorem State.onCache_wlog (s : State) (k : Nat) (f : CacheE → CacheE) : (s.onCache k f).wlog = s.wlog := rfl
@[simp] theorem State.onCache_jobs (s : State) (k : Nat) (f : CacheE → CacheE) : (s.onCache k f).jobs = s.jobs := rfl
@[simp] theorem State.onCache_vault (s : State) (k : Nat) (f : CacheE → CacheE) : (s.onCache k f).vault = s.vault := rfl
@[simp] theorem State.onCache_vaultq (s : State) (k : Nat) (f : CacheE → CacheE) : (s.onCache k f).vaultq = s.vaultq := rfl
@[simp] theorem State.onCache_own (s : State) (k : Nat) (f : CacheE → CacheE) : (s.onCache k f).own = s.own := rfl
@[simp] theorem State.onCache_profPhase (s : State) (k : Nat) (f : CacheE → CacheE) : (s.onCache k f).profPhase = s.profPhase := rfl
@[simp] theorem State.onCache_ports (s : State) (k : Nat) (f : CacheE → CacheE) : (s.onCache k f).ports = s.ports := rfl
@[simp] theorem State.onCache_aen (s : State) (k : Nat) (f : CacheE → CacheE) : (s.onCache k f).aen = s.aen := rfl
@[simp] theorem State.onCache_chains (s : State) (k : Nat) (f : CacheE → CacheE) : (s.onCache k f).chains = s.chains := rfl
@[simp] theorem State.onCache_coefs (s : State) (k : Nat) (f : CacheE → CacheE) : (s.onCache k f).coefs = s.coefs := rfl
@[simp] theorem State.onCache_rxs (s : State) (k : Nat) (f : CacheE → CacheE) : (s.onCache k f).rxs = s.rxs := rfl
@[simp] theorem State.onCache_exchs (s : State) (k : Nat) (f : CacheE → CacheE) : (s.onCache k f).exchs = s.exchs := rfl
@[simp] theorem State.onCache_rounds (s : State) (k : Nat) (f : CacheE → CacheE) : (s.onCache k f).rounds = s.rounds := rfl
@[simp] theorem State.onCache_slots (s : State) (k : Nat) (f : CacheE → CacheE) : (s.onCache k f).slots = s.slots := rfl
@[simp] theorem State.onCache_ctx (s : State) (k : Nat) (f : CacheE → CacheE) : (s.onCache k f).ctx = s.ctx := rfl
@[simp] theorem State.onCache_leases (s : State) (k : Nat) (f : CacheE → CacheE) : (s.onCache k f).leases = s.leases := rfl
@[simp] theorem State.onCache_leaseQ (s : State) (k : Nat) (f : CacheE → CacheE) : (s.onCache k f).leaseQ = s.leaseQ := rfl
@[simp] theorem State.onCache_jq (s : State) (k : Nat) (f : CacheE → CacheE) : (s.onCache k f).jq = s.jq := rfl
@[simp] theorem State.onCache_jrn (s : State) (k : Nat) (f : CacheE → CacheE) : (s.onCache k f).jrn = s.jrn := rfl
@[simp] theorem State.onCache_home (s : State) (k : Nat) (f : CacheE → CacheE) : (s.onCache k f).home = s.home := rfl
@[simp] theorem State.onCache_spool (s : State) (k : Nat) (f : CacheE → CacheE) : (s.onCache k f).spool = s.spool := rfl
@[simp] theorem State.onCache_cmdQ (s : State) (k : Nat) (f : CacheE → CacheE) : (s.onCache k f).cmdQ = s.cmdQ := rfl
@[simp] theorem State.onCache_planQ (s : State) (k : Nat) (f : CacheE → CacheE) : (s.onCache k f).planQ = s.planQ := rfl
@[simp] theorem State.onCache_mac (s : State) (k : Nat) (f : CacheE → CacheE) : (s.onCache k f).mac = s.mac := rfl
@[simp] theorem State.onCache_cip (s : State) (k : Nat) (f : CacheE → CacheE) : (s.onCache k f).cip = s.cip := rfl
@[simp] theorem State.onCache_hal (s : State) (k : Nat) (f : CacheE → CacheE) : (s.onCache k f).hal = s.hal := rfl
@[simp] theorem State.onCache_tst (s : State) (k : Nat) (f : CacheE → CacheE) : (s.onCache k f).tst = s.tst := rfl
@[simp] theorem State.onCache_links (s : State) (k : Nat) (f : CacheE → CacheE) : (s.onCache k f).links = s.links := rfl
@[simp] theorem State.onCache_spl (s : State) (k : Nat) (f : CacheE → CacheE) : (s.onCache k f).spl = s.spl := rfl
@[simp] theorem State.onCache_brd (s : State) (k : Nat) (f : CacheE → CacheE) : (s.onCache k f).brd = s.brd := rfl
@[simp] theorem State.onCache_up (s : State) (k : Nat) (f : CacheE → CacheE) : (s.onCache k f).up = s.up := rfl
@[simp] theorem State.onCache_keyq (s : State) (k : Nat) (f : CacheE → CacheE) : (s.onCache k f).keyq = s.keyq := rfl

/-! ### `emit` -/

@[simp] theorem State.emit_pending (s : State) (c t n : Nat) (b : List Byte) (l : List Nat) : (s.emit c t n b l).pending = s.pending := rfl
@[simp] theorem State.emit_tick (s : State) (c t n : Nat) (b : List Byte) (l : List Nat) : (s.emit c t n b l).tick = s.tick := rfl
@[simp] theorem State.emit_free (s : State) (c t n : Nat) (b : List Byte) (l : List Nat) : (s.emit c t n b l).free = s.free := rfl
@[simp] theorem State.emit_regs (s : State) (c t n : Nat) (b : List Byte) (l : List Nat) : (s.emit c t n b l).regs = s.regs := rfl
@[simp] theorem State.emit_shadow (s : State) (c t n : Nat) (b : List Byte) (l : List Nat) : (s.emit c t n b l).shadow = s.shadow := rfl
@[simp] theorem State.emit_commits (s : State) (c t n : Nat) (b : List Byte) (l : List Nat) : (s.emit c t n b l).commits = s.commits := rfl
@[simp] theorem State.emit_reply (s : State) (c t n : Nat) (b : List Byte) (l : List Nat) : (s.emit c t n b l).reply = s.reply := rfl
@[simp] theorem State.emit_rates (s : State) (c t n : Nat) (b : List Byte) (l : List Nat) : (s.emit c t n b l).rates = s.rates := rfl
@[simp] theorem State.emit_log (s : State) (c t n : Nat) (b : List Byte) (l : List Nat) : (s.emit c t n b l).log = s.log := rfl
@[simp] theorem State.emit_wlog (s : State) (c t n : Nat) (b : List Byte) (l : List Nat) : (s.emit c t n b l).wlog = s.wlog := rfl
@[simp] theorem State.emit_jobs (s : State) (c t n : Nat) (b : List Byte) (l : List Nat) : (s.emit c t n b l).jobs = s.jobs := rfl
@[simp] theorem State.emit_vault (s : State) (c t n : Nat) (b : List Byte) (l : List Nat) : (s.emit c t n b l).vault = s.vault := rfl
@[simp] theorem State.emit_vaultq (s : State) (c t n : Nat) (b : List Byte) (l : List Nat) : (s.emit c t n b l).vaultq = s.vaultq := rfl
@[simp] theorem State.emit_own (s : State) (c t n : Nat) (b : List Byte) (l : List Nat) : (s.emit c t n b l).own = s.own := rfl
@[simp] theorem State.emit_profPhase (s : State) (c t n : Nat) (b : List Byte) (l : List Nat) : (s.emit c t n b l).profPhase = s.profPhase := rfl
@[simp] theorem State.emit_ports (s : State) (c t n : Nat) (b : List Byte) (l : List Nat) : (s.emit c t n b l).ports = s.ports := rfl
@[simp] theorem State.emit_aen (s : State) (c t n : Nat) (b : List Byte) (l : List Nat) : (s.emit c t n b l).aen = s.aen := rfl
@[simp] theorem State.emit_chains (s : State) (c t n : Nat) (b : List Byte) (l : List Nat) : (s.emit c t n b l).chains = s.chains := rfl
@[simp] theorem State.emit_coefs (s : State) (c t n : Nat) (b : List Byte) (l : List Nat) : (s.emit c t n b l).coefs = s.coefs := rfl
@[simp] theorem State.emit_rxs (s : State) (c t n : Nat) (b : List Byte) (l : List Nat) : (s.emit c t n b l).rxs = s.rxs := rfl
@[simp] theorem State.emit_exchs (s : State) (c t n : Nat) (b : List Byte) (l : List Nat) : (s.emit c t n b l).exchs = s.exchs := rfl
@[simp] theorem State.emit_rounds (s : State) (c t n : Nat) (b : List Byte) (l : List Nat) : (s.emit c t n b l).rounds = s.rounds := rfl
@[simp] theorem State.emit_slots (s : State) (c t n : Nat) (b : List Byte) (l : List Nat) : (s.emit c t n b l).slots = s.slots := rfl
@[simp] theorem State.emit_ctx (s : State) (c t n : Nat) (b : List Byte) (l : List Nat) : (s.emit c t n b l).ctx = s.ctx := rfl
@[simp] theorem State.emit_cache (s : State) (c t n : Nat) (b : List Byte) (l : List Nat) : (s.emit c t n b l).cache = s.cache := rfl
@[simp] theorem State.emit_leases (s : State) (c t n : Nat) (b : List Byte) (l : List Nat) : (s.emit c t n b l).leases = s.leases := rfl
@[simp] theorem State.emit_leaseQ (s : State) (c t n : Nat) (b : List Byte) (l : List Nat) : (s.emit c t n b l).leaseQ = s.leaseQ := rfl
@[simp] theorem State.emit_jq (s : State) (c t n : Nat) (b : List Byte) (l : List Nat) : (s.emit c t n b l).jq = s.jq := rfl
@[simp] theorem State.emit_jrn (s : State) (c t n : Nat) (b : List Byte) (l : List Nat) : (s.emit c t n b l).jrn = s.jrn := rfl
@[simp] theorem State.emit_home (s : State) (c t n : Nat) (b : List Byte) (l : List Nat) : (s.emit c t n b l).home = s.home := rfl
@[simp] theorem State.emit_spool (s : State) (c t n : Nat) (b : List Byte) (l : List Nat) : (s.emit c t n b l).spool = s.spool := rfl
@[simp] theorem State.emit_cmdQ (s : State) (c t n : Nat) (b : List Byte) (l : List Nat) : (s.emit c t n b l).cmdQ = s.cmdQ := rfl
@[simp] theorem State.emit_planQ (s : State) (c t n : Nat) (b : List Byte) (l : List Nat) : (s.emit c t n b l).planQ = s.planQ := rfl
@[simp] theorem State.emit_mac (s : State) (c t n : Nat) (b : List Byte) (l : List Nat) : (s.emit c t n b l).mac = s.mac := rfl
@[simp] theorem State.emit_cip (s : State) (c t n : Nat) (b : List Byte) (l : List Nat) : (s.emit c t n b l).cip = s.cip := rfl
@[simp] theorem State.emit_hal (s : State) (c t n : Nat) (b : List Byte) (l : List Nat) : (s.emit c t n b l).hal = s.hal := rfl
@[simp] theorem State.emit_tst (s : State) (c t n : Nat) (b : List Byte) (l : List Nat) : (s.emit c t n b l).tst = s.tst := rfl
@[simp] theorem State.emit_links (s : State) (c t n : Nat) (b : List Byte) (l : List Nat) : (s.emit c t n b l).links = s.links := rfl
@[simp] theorem State.emit_spl (s : State) (c t n : Nat) (b : List Byte) (l : List Nat) : (s.emit c t n b l).spl = s.spl := rfl
@[simp] theorem State.emit_brd (s : State) (c t n : Nat) (b : List Byte) (l : List Nat) : (s.emit c t n b l).brd = s.brd := rfl
@[simp] theorem State.emit_up (s : State) (c t n : Nat) (b : List Byte) (l : List Nat) : (s.emit c t n b l).up = s.up := rfl
@[simp] theorem State.emit_keyq (s : State) (c t n : Nat) (b : List Byte) (l : List Nat) : (s.emit c t n b l).keyq = s.keyq := rfl

/-! ### What they change -/

@[simp] theorem State.onUp_up (s : State) (f : UpS → UpS) : (s.onUp f).up = f s.up := rfl
@[simp] theorem State.onMac_mac (s : State) (f : MacS → MacS) : (s.onMac f).mac = f s.mac := rfl
@[simp] theorem State.onCip_cip (s : State) (f : CipS → CipS) : (s.onCip f).cip = f s.cip := rfl
@[simp] theorem State.onSpl_spl (s : State) (f : SplS → SplS) : (s.onSpl f).spl = f s.spl := rfl
@[simp] theorem State.onBrd_brd (s : State) (f : BrdS → BrdS) : (s.onBrd f).brd = f s.brd := rfl
@[simp] theorem State.onHal_hal (s : State) (f : HalS → HalS) : (s.onHal f).hal = f s.hal := rfl

end Sys2Proof.Machine
end

