-- ==== Sys2Proof/Laws/Table.lean ====
section
/-! SUPPORT. Sparse tables: reading after a write, and the canonical form that every write keeps. -/
namespace Sys2Proof.Machine

variable {α : Type}

@[simp] theorem tget_nil (d : Nat → α) (k : Nat) : tget d [] k = d k := rfl

theorem tget_tput_same (d : Nat → α) (t : Table α) (k : Nat) (v : α) : tget d (tput t k v) k = v := by
  induction t with
  | nil => simp [tput, tget]
  | cons e t ih =>
    obtain ⟨j, w⟩ := e
    by_cases h : k < j
    · simp [tput, tget, h]
    · by_cases h' : k = j
      · simp [tput, tget, h']
      · have : j ≠ k := fun q => h' q.symm
        simp [tput, tget, h, h', this, ih]

theorem tget_tput_other (d : Nat → α) (t : Table α) (k j : Nat) (v : α) (hj : j ≠ k) :
    tget d (tput t k v) j = tget d t j := by
  induction t with
  | nil => simp [tput, tget, Ne.symm hj]
  | cons e t ih =>
    obtain ⟨i, w⟩ := e
    by_cases h : k < i
    · simp [tput, tget, h, Ne.symm hj]
    · by_cases h' : k = i
      · subst h'
        simp [tput, tget, Ne.symm hj]
      · simp [tput, tget, h, h', ih]

theorem tget_tdel_same (d : Nat → α) (t : Table α) (k : Nat) : tget d (tdel t k) k = d k := by
  induction t with
  | nil => rfl
  | cons e t ih =>
    obtain ⟨i, w⟩ := e
    by_cases h : i = k <;> simp [tdel, tget, h, ih]

theorem tget_tdel_other (d : Nat → α) (t : Table α) (k j : Nat) (hj : j ≠ k) : tget d (tdel t k) j = tget d t j := by
  induction t with
  | nil => rfl
  | cons e t ih =>
    obtain ⟨i, w⟩ := e
    by_cases h : i = k
    · simp [tdel, tget, h, ih, Ne.symm hj]
    · simp [tdel, tget, h, ih]

variable [DecidableEq α]

/-- A key reads back the value written to it. -/
@[simp] theorem tget_tset_same (d : Nat → α) (t : Table α) (k : Nat) (v : α) : tget d (tset d t k v) k = v := by
  by_cases h : v = d k
  · simp [tset, h, tget_tdel_same]
  · simp [tset, h, tget_tput_same]

/-- A write leaves every other key as it was. -/
theorem tget_tset_other (d : Nat → α) (t : Table α) (k j : Nat) (v : α) (hj : j ≠ k) :
    tget d (tset d t k v) j = tget d t j := by
  by_cases h : v = d k
  · simp [tset, h, tget_tdel_other d t k j hj]
  · simp [tset, h, tget_tput_other d t k j v hj]

/-- Both cases of a read after a write. -/
theorem tget_tset (d : Nat → α) (t : Table α) (k j : Nat) (v : α) :
    tget d (tset d t k v) j = if j = k then v else tget d t j := by
  by_cases h : j = k
  · subst h; simp
  · simp [h, tget_tset_other d t k j v h]

theorem twfFrom_mono (d : Nat → α) (t : Table α) (a b : Nat) (hab : a ≤ b) (h : twfFrom d b t = true) :
    twfFrom d a t = true := by
  cases t with
  | nil => rfl
  | cons e t =>
    obtain ⟨j, w⟩ := e
    simp only [twfFrom, Bool.and_eq_true, decide_eq_true_eq] at h ⊢
    exact ⟨⟨Nat.le_trans hab h.1.1, h.1.2⟩, h.2⟩

theorem twfFrom_tdel (d : Nat → α) (t : Table α) (k lo : Nat) (h : twfFrom d lo t = true) :
    twfFrom d lo (tdel t k) = true := by
  induction t generalizing lo with
  | nil => rfl
  | cons e t ih =>
    obtain ⟨j, w⟩ := e
    simp only [twfFrom, Bool.and_eq_true, decide_eq_true_eq] at h
    have hr := ih (j + 1) h.2
    by_cases hj : j = k
    · simp only [tdel, hj, if_true]
      exact twfFrom_mono d _ lo (j + 1) (by omega) hr
    · simp only [tdel, hj, if_false, twfFrom, Bool.and_eq_true, decide_eq_true_eq]
      exact ⟨h.1, hr⟩

theorem twfFrom_tput (d : Nat → α) (t : Table α) (k lo : Nat) (v : α) (hv : v ≠ d k) (hk : lo ≤ k)
    (h : twfFrom d lo t = true) : twfFrom d lo (tput t k v) = true := by
  induction t generalizing lo with
  | nil => simp [tput, twfFrom, hv, hk]
  | cons e t ih =>
    obtain ⟨j, w⟩ := e
    simp only [twfFrom, Bool.and_eq_true, decide_eq_true_eq, Bool.not_eq_true', decide_eq_false_iff_not] at h
    by_cases hlt : k < j
    · simp only [tput, hlt, if_true, twfFrom, Bool.and_eq_true, decide_eq_true_eq, Bool.not_eq_true',
        decide_eq_false_iff_not]
      exact ⟨⟨hk, hv⟩, ⟨by omega, h.1.2⟩, h.2⟩
    · by_cases heq : k = j
      · subst heq
        simp only [tput, hlt, if_true, if_false, twfFrom, Bool.and_eq_true, decide_eq_true_eq, Bool.not_eq_true',
          decide_eq_false_iff_not]
        exact ⟨⟨hk, hv⟩, h.2⟩
      · simp only [tput, hlt, heq, if_false, twfFrom, Bool.and_eq_true, decide_eq_true_eq, Bool.not_eq_true',
          decide_eq_false_iff_not]
        exact ⟨h.1, ih (j + 1) (by omega) h.2⟩

/-- Every write keeps the canonical form. -/
theorem twf_tset (d : Nat → α) (t : Table α) (k : Nat) (v : α) (h : twf d t = true) : twf d (tset d t k v) = true := by
  unfold twf at *
  by_cases hv : v = d k
  · simpa [tset, hv] using twfFrom_tdel d t k 0 h
  · simpa [tset, hv] using twfFrom_tput d t k 0 v hv (Nat.zero_le k) h

@[simp] theorem twf_nil (d : Nat → α) : twf d ([] : Table α) = true := rfl

end Sys2Proof.Machine
end

