-- ==== Sys2Proof/Laws/Regs.lean ====
section
/-! SUPPORT. Registers, shadows and instances: what they read after a write of this or of another one. -/
namespace Sys2Proof.Machine
open Sys2Proof

/-! ### Words -/

@[simp] theorem State.live_setLive (s : State) (a : Nat) (w : Word) : (s.setLive a w).live a = w := by
  simp [State.live, State.setLive]

theorem State.live_setLive_other (s : State) (a b : Nat) (w : Word) (h : b ≠ a) : (s.setLive a w).live b = s.live b := by
  simp [State.live, State.setLive, tget_tset_other, h]

@[simp] theorem State.shad_setLive (s : State) (a b : Nat) (w : Word) : (s.setLive a w).shad b = s.shad b := rfl

@[simp] theorem State.shad_setShad (s : State) (a : Nat) (w : Word) : (s.setShad a w).shad a = w := by
  simp [State.shad, State.setShad]

theorem State.shad_setShad_other (s : State) (a b : Nat) (w : Word) (h : b ≠ a) : (s.setShad a w).shad b = s.shad b := by
  simp [State.shad, State.setShad, tget_tset_other, h]

@[simp] theorem State.live_setShad (s : State) (a b : Nat) (w : Word) : (s.setShad a w).live b = s.live b := rfl

/-! ### Fields -/

theorem State.live_put (s : State) (f : Fld) (o v b : Nat) :
    (s.put f o v).live b = if b = f.addr + o then setBits (s.live (f.addr + o)) f.hi f.lo v else s.live b := by
  by_cases h : b = f.addr + o
  · subst h; simp [State.put]
  · simp [State.put, State.live_setLive_other, h]

/-- A field reads what was put in it, cut to its width. -/
theorem State.get_put_same (s : State) (f : Fld) (o v : Nat) (hl : f.lo ≤ f.hi) (hh : f.hi < 32) :
    (s.put f o v).get f o = v % 2 ^ (f.hi + 1 - f.lo) := by
  rw [State.get, State.live_put, if_pos rfl, bitsOf_setBits_same _ _ _ _ hl hh]

/-- A field of another word is left alone. -/
theorem State.get_put_word (s : State) (f g : Fld) (o o' v : Nat) (h : g.addr + o' ≠ f.addr + o) :
    (s.put f o v).get g o' = s.get g o' := by
  rw [State.get, State.live_put, if_neg h, State.get]

/-- A field apart in the same word is left alone. -/
theorem State.get_put_apart (s : State) (f g : Fld) (o o' v : Nat) (hl : f.lo ≤ f.hi) (hh : g.hi < 32)
    (ha : g.hi < f.lo ∨ f.hi < g.lo) : (s.put f o v).get g o' = s.get g o' := by
  by_cases h : g.addr + o' = f.addr + o
  · rw [State.get, State.live_put, if_pos h, bitsOf_setBits_apart _ _ _ _ _ _ hl hh ha, State.get, h]
  · exact State.get_put_word s f g o o' v h

/-- The registers hold their canonical form through a write. -/
theorem State.regs_wf_setLive (s : State) (a : Nat) (w : Word) (h : twf resetWord s.regs = true) :
    twf resetWord (s.setLive a w).regs = true := twf_tset _ _ _ _ h

theorem State.regs_wf_put (s : State) (f : Fld) (o v : Nat) (h : twf resetWord s.regs = true) :
    twf resetWord (s.put f o v).regs = true := twf_tset _ _ _ _ h

theorem State.shadow_wf_setShad (s : State) (a : Nat) (w : Word) (h : twf resetWord s.shadow = true) :
    twf resetWord (s.setShad a w).shadow = true := twf_tset _ _ _ _ h

/-! ### Instances -/

@[simp] theorem State.port_onPort (s : State) (p : Nat) (f : PortS → PortS) : (s.onPort p f).port p = f (s.port p) := by
  simp [State.port, State.onPort]

theorem State.port_onPort_other (s : State) (p q : Nat) (f : PortS → PortS) (h : q ≠ p) : (s.onPort p f).port q = s.port q := by
  simp [State.port, State.onPort, tget_tset_other, h]

@[simp] theorem State.chain_onChain (s : State) (c : Nat) (f : ChainS → ChainS) : (s.onChain c f).chain c = f (s.chain c) := by
  simp [State.chain, State.onChain]

@[simp] theorem State.rx_onRx (s : State) (r : Nat) (f : RxS → RxS) : (s.onRx r f).rx r = f (s.rx r) := by
  simp [State.rx, State.onRx]

theorem State.rx_onRx_other (s : State) (r q : Nat) (f : RxS → RxS) (h : q ≠ r) : (s.onRx r f).rx q = s.rx q := by
  simp [State.rx, State.onRx, tget_tset_other, h]

@[simp] theorem State.job_onJob (s : State) (k : Nat) (f : JobS → JobS) : (s.onJob k f).job k = f (s.job k) := by
  simp [State.job, State.onJob]

theorem State.job_onJob_other (s : State) (k j : Nat) (f : JobS → JobS) (h : j ≠ k) : (s.onJob k f).job j = s.job j := by
  simp [State.job, State.onJob, tget_tset_other, h]

end Sys2Proof.Machine
end

