-- ==== Sys2Proof/Laws/Answer.lean ====
section
/-! SUPPORT. What the answer to a command keeps and what the status registers that follow leave alone. -/
namespace Sys2Proof.Machine
open Sys2Proof

@[simp] theorem State.answer_next (s t : State) : s.answer (.next t) = .next { t.settle with pending := s.pending } := rfl

/-- A command's guard may be decided before its answer is formed. -/
theorem State.answer_ite (s : State) (c : Prop) [Decidable c] (a b : Out) :
    s.answer (if c then a else b) = if c then s.answer a else s.answer b := by split <;> rfl

/-- A meaning that answers the next state `t` goes to `t`. -/
theorem State.goes_of_answer (s t : State) (c : Instr) (h : exec c s = s.answer (.next t)) : s.goes c t := h

/-- `t` differs from `s` in registers only. -/
def State.RegsOnly (s t : State) : Prop := ∃ r, t = { s with regs := r }

theorem State.RegsOnly.trans {s t u : State} (h : s.RegsOnly t) (h' : t.RegsOnly u) : s.RegsOnly u := by
  obtain ⟨r, rfl⟩ := h
  obtain ⟨r', rfl⟩ := h'
  exact ⟨r', rfl⟩

theorem State.regsOnly_putB (s : State) (f : Fld) (b : Bool) : s.RegsOnly (s.putB f 0 b) := ⟨_, rfl⟩
theorem State.regsOnly_put (s : State) (f : Fld) (v : Nat) : s.RegsOnly (s.put f 0 v) := ⟨_, rfl⟩

theorem State.regsOnly_eventShow (s : State) : s.RegsOnly s.eventShow :=
  (((s.regsOnly_putB _ _).trans (State.regsOnly_put _ _ _)).trans (State.regsOnly_putB _ _ _)).trans (State.regsOnly_put _ _ _)

theorem State.regsOnly_domainShow (s : State) : s.RegsOnly s.domainShow :=
  (((s.regsOnly_putB _ _).trans (State.regsOnly_putB _ _ _)).trans (State.regsOnly_putB _ _ _)).trans (State.regsOnly_putB _ _ _)

theorem State.regsOnly_queueShow (s : State) : s.RegsOnly s.queueShow :=
  (((s.regsOnly_put _ _).trans (State.regsOnly_putB _ _ _)).trans (State.regsOnly_put _ _ _)).trans (State.regsOnly_putB _ _ _)

theorem State.regsOnly_summaryShow (s : State) : s.RegsOnly s.summaryShow :=
  (((((((s.regsOnly_putB _ _).trans (State.regsOnly_putB _ _ _)).trans (State.regsOnly_putB _ _ _)).trans
    (State.regsOnly_putB _ _ _)).trans (State.regsOnly_putB _ _ _)).trans (State.regsOnly_putB _ _ _)).trans
    (State.regsOnly_putB _ _ _)).trans (State.regsOnly_putB _ _ _)

theorem State.regsOnly_trainShow (s : State) : s.RegsOnly s.trainShow := by
  unfold State.trainShow
  split
  · exact (s.regsOnly_put _ _).trans (State.regsOnly_putB _ _ _)
  · exact ⟨s.regs, rfl⟩

/-- `settle` changes registers only. -/
theorem State.settle_only (s : State) : s.RegsOnly s.settle :=
  (((s.regsOnly_trainShow.trans (State.regsOnly_eventShow _)).trans (State.regsOnly_domainShow _)).trans
    (State.regsOnly_queueShow _)).trans (State.regsOnly_summaryShow _)

/-- The words that `settle` writes. -/
def settledAddrs : List Nat :=
  [F.EVC_STATUS_IRQ.addr, F.PWR_DOMAIN_STAT_DECODE.addr, F.BLY_STAT_BUSY.addr, F.LOG_PROT_STAT_FULL.addr,
    F.HAL_STATUS_CMD_QUEUE.addr, F.BST_REPLACE_STAT_SERVICE.addr, F.GLB_STATUS_OWNER.addr, F.CXL_LINK_STAT_STATE.addr,
    F.CXL_CTRL_RETRAIN.addr]

theorem State.live_put_other (s : State) (f : Fld) (v b : Nat) (h : b ≠ f.addr) : (s.put f 0 v).live b = s.live b := by
  rw [State.live_put, if_neg (by simpa using h)]

theorem State.live_putB_other (s : State) (f : Fld) (v : Bool) (b : Nat) (h : b ≠ f.addr) :
    (s.putB f 0 v).live b = s.live b := State.live_put_other _ _ _ _ h

theorem State.live_trainShow_other (s : State) (a : Nat) (h1 : a ≠ F.CXL_LINK_STAT_STATE.addr) (h2 : a ≠ F.CXL_CTRL_RETRAIN.addr) :
    s.trainShow.live a = s.live a := by
  unfold State.trainShow
  split
  · rw [State.live_putB_other _ _ _ _ h2, State.live_put_other _ _ _ _ h1]
  · rfl

theorem State.live_eventShow_other (s : State) (a : Nat) (h : a ≠ F.EVC_STATUS_IRQ.addr) : s.eventShow.live a = s.live a := by
  unfold State.eventShow
  dsimp only
  have e0 : a ≠ F.EVC_STATUS_PENDING.addr := h
  have e1 : a ≠ F.EVC_STATUS_TOP_VALID.addr := h
  have e2 : a ≠ F.EVC_STATUS_TOP.addr := h
  have e3 : a ≠ F.EVC_STATUS_IRQ.addr := h
  rw [State.live_put_other _ _ _ _ e0, State.live_putB_other _ _ _ _ e1,
    State.live_put_other _ _ _ _ e2, State.live_putB_other _ _ _ _ e3]

theorem State.live_domainShow_other (s : State) (a : Nat) (h : a ≠ F.PWR_DOMAIN_STAT_DECODE.addr) :
    s.domainShow.live a = s.live a := by
  unfold State.domainShow
  dsimp only
  have e0 : a ≠ F.PWR_DOMAIN_STAT_CXL_L1.addr := h
  have e1 : a ≠ F.PWR_DOMAIN_STAT_RADIO.addr := h
  have e2 : a ≠ F.PWR_DOMAIN_STAT_CIPHER.addr := h
  have e3 : a ≠ F.PWR_DOMAIN_STAT_DECODE.addr := h
  rw [State.live_putB_other _ _ _ _ e0, State.live_putB_other _ _ _ _ e1,
    State.live_putB_other _ _ _ _ e2, State.live_putB_other _ _ _ _ e3]

theorem State.live_queueShow_other (s : State) (a : Nat) (h1 : a ≠ F.BLY_STAT_BUSY.addr) (h2 : a ≠ F.LOG_PROT_STAT_FULL.addr)
    (h3 : a ≠ F.HAL_STATUS_CMD_QUEUE.addr) (h4 : a ≠ F.BST_REPLACE_STAT_SERVICE.addr) : s.queueShow.live a = s.live a := by
  unfold State.queueShow
  dsimp only
  have e0 : a ≠ F.BST_REPLACE_STAT_SERVICE.addr := h4
  have e1 : a ≠ F.HAL_STATUS_CMD_QUEUE.addr := h3
  have e2 : a ≠ F.LOG_PROT_STAT_FULL.addr := h2
  have e3 : a ≠ F.BLY_STAT_BUSY.addr := h1
  rw [State.live_putB_other _ _ _ _ e0, State.live_put_other _ _ _ _ e1,
    State.live_putB_other _ _ _ _ e2, State.live_put_other _ _ _ _ e3]

theorem State.live_summaryShow_other (s : State) (a : Nat) (h : a ≠ F.GLB_STATUS_OWNER.addr) :
    s.summaryShow.live a = s.live a := by
  unfold State.summaryShow
  dsimp only
  have e0 : a ≠ F.GLB_STATUS_IRQ.addr := h
  have e1 : a ≠ F.GLB_STATUS_THERM_STOP.addr := h
  have e2 : a ≠ F.GLB_STATUS_SERVICE.addr := h
  have e3 : a ≠ F.GLB_STATUS_FENCED.addr := h
  have e4 : a ≠ F.GLB_STATUS_CACHE_ONLY.addr := h
  have e5 : a ≠ F.GLB_STATUS_OWNER.addr := h
  have e6 : a ≠ F.GLB_STATUS_NO_IMAGE.addr := h
  have e7 : a ≠ F.GLB_STATUS_SWITCHING.addr := h
  rw [State.live_putB_other _ _ _ _ e0, State.live_putB_other _ _ _ _ e1,
    State.live_putB_other _ _ _ _ e2, State.live_putB_other _ _ _ _ e3,
    State.live_putB_other _ _ _ _ e4, State.live_putB_other _ _ _ _ e5,
    State.live_putB_other _ _ _ _ e6, State.live_putB_other _ _ _ _ e7]

/-- Every other word reads as it did. -/
theorem State.live_settle_other (s : State) (a : Nat) (h : a ∉ settledAddrs) : s.settle.live a = s.live a := by
  simp only [settledAddrs, List.mem_cons, List.not_mem_nil, or_false, not_or] at h
  obtain ⟨h1, h2, h3, h4, h5, h6, h7, h8, h9⟩ := h
  unfold State.settle
  rw [State.live_summaryShow_other _ _ h7, State.live_queueShow_other _ _ h3 h4 h5 h6, State.live_domainShow_other _ _ h2,
    State.live_eventShow_other _ _ h1, State.live_trainShow_other _ _ h8 h9]

end Sys2Proof.Machine
end

