-- ==== Sys2Proof/Laws/Events.lean ====
section
/-! SUPPORT. All that raising an event, writing the trouble log or noting a register write can change. -/
namespace Sys2Proof.Machine
open Sys2Proof

/-- `t` differs from `s` only where the event controller, the log and the belay slots write. -/
def State.EventOnly (s t : State) : Prop :=
  ∃ r a b c d e j, t = { s with regs := r, rates := a, outq := b, log := c, protArmed := d, nearArmed := e, jobs := j }

theorem State.EventOnly.refl (s : State) : s.EventOnly s := ⟨_, _, _, _, _, _, _, rfl⟩

theorem State.EventOnly.trans {s t u : State} (h : s.EventOnly t) (h' : t.EventOnly u) : s.EventOnly u := by
  obtain ⟨r, a, b, c, d, e, j, rfl⟩ := h
  obtain ⟨r', a', b', c', d', e', j', rfl⟩ := h'
  exact ⟨r', a', b', c', d', e', j', rfl⟩

theorem State.eventOnly_regs (s : State) (r : Table Word) : s.EventOnly { s with regs := r } := ⟨_, _, _, _, _, _, _, rfl⟩
theorem State.eventOnly_setLive (s : State) (a : Nat) (w : Word) : s.EventOnly (s.setLive a w) := s.eventOnly_regs _
theorem State.eventOnly_put (s : State) (f : Fld) (o v : Nat) : s.EventOnly (s.put f o v) := s.eventOnly_regs _
theorem State.eventOnly_incSat (s : State) (f : Fld) (o n : Nat) : s.EventOnly (s.incSat f o n) := s.eventOnly_regs _
theorem State.eventOnly_incWrap (s : State) (f : Fld) (o n : Nat) : s.EventOnly (s.incWrap f o n) := s.eventOnly_regs _
theorem State.eventOnly_dec (s : State) (f : Fld) (o n : Nat) : s.EventOnly (s.dec f o n) := s.eventOnly_regs _
theorem State.eventOnly_emit (s : State) (c t n : Nat) (b : List Byte) (l : List Nat) : s.EventOnly (s.emit c t n b l) :=
  ⟨_, _, _, _, _, _, _, rfl⟩
theorem State.eventOnly_logs (s : State) (l : Table LogEntry) : s.EventOnly { s with log := l } := ⟨_, _, _, _, _, _, _, rfl⟩
theorem State.eventOnly_rates (s : State) (l : Table EvRate) : s.EventOnly { s with rates := l } := ⟨_, _, _, _, _, _, _, rfl⟩
theorem State.eventOnly_prot (s : State) (b : Bool) : s.EventOnly { s with protArmed := b } := ⟨_, _, _, _, _, _, _, rfl⟩
theorem State.eventOnly_near (s : State) (b : Bool) : s.EventOnly { s with nearArmed := b } := ⟨_, _, _, _, _, _, _, rfl⟩
theorem State.eventOnly_onJob (s : State) (k : Nat) (f : JobS → JobS) : s.EventOnly (s.onJob k f) := ⟨_, _, _, _, _, _, _, rfl⟩

theorem State.eventOnly_foldl {β : Type} (l : List β) (f : State → β → State) (hf : ∀ (u : State) x, u.EventOnly (f u x)) (s : State) :
    s.EventOnly (l.foldl f s) := by
  induction l generalizing s with
  | nil => exact State.EventOnly.refl s
  | cons x t ih => exact (hf s x).trans (ih _)

theorem State.eventOnly_logProtect (s : State) (e : LogEntry) : s.EventOnly (s.logProtect e).1 := by
  unfold State.logProtect
  extract_lets n s1 s2 s3
  split
  · exact .refl s
  · split
    · exact ((s.eventOnly_logs _).trans (s1.eventOnly_put _ _ _)).trans (State.eventOnly_put _ _ _ _)
    · exact (s.eventOnly_incSat _ _ _).trans (s3.eventOnly_prot _)

theorem State.eventOnly_logPut (s : State) (a b c d e : Nat) (l : List Byte) (t : Nat) :
    s.EventOnly (s.logPut a b c d e l t).1 := by
  unfold State.logPut
  split
  · exact .refl s
  · extract_lets en old s1 s2 s3
    have h1 : s.EventOnly s1 := by
      show s.EventOnly (if _ then _ else _)
      split
      · exact (s.eventOnly_incSat _ _ _).trans (State.eventOnly_dec _ _ _ _)
      · exact .refl s
    have h3 : s.EventOnly s3 :=
      ((h1.trans (s1.eventOnly_logs _)).trans (s2.eventOnly_put _ _ _)).trans (State.eventOnly_incSat _ _ _ _)
    clear_value s3
    split
    · exact h3.trans (State.eventOnly_logProtect _ _)
    · exact h3

theorem State.eventOnly_deliver (s : State) (e n f l : Nat) (own : Bool) : s.EventOnly (s.deliver e n f l own).1 := by
  unfold State.deliver
  extract_lets k body u
  have h : s.EventOnly u := by
    show s.EventOnly (if _ then _ else _)
    split
    · exact s.eventOnly_emit _ _ _ _ _
    · exact .refl s
  clear_value u
  split
  · exact h.trans (State.eventOnly_logPut _ _ _ _ _ _ _ _)
  · exact h

theorem State.eventOnly_raise0 (s : State) (e src : Nat) (own : Bool) : s.EventOnly (s.raise0 e src own).1 := by
  unfold State.raise0
  extract_lets a s1 s2 s3 s4
  have h3 : s.EventOnly s3 :=
    ((((s.eventOnly_setLive _ _).trans (s1.eventOnly_put _ _ _)).trans (State.eventOnly_incWrap _ _ _ _)).trans
      (s2.eventOnly_setLive _ _)).trans (State.eventOnly_setLive _ _ _)
  have h4 : s.EventOnly s4 := by
    show s.EventOnly (match evSrcAddr e with | some r => _ | none => _)
    split
    · exact h3.trans (s3.eventOnly_setLive _ _)
    · exact h3
  clear_value s4
  split
  · exact h4
  · split
    · exact (h4.trans (s4.eventOnly_rates _)).trans (State.eventOnly_deliver _ _ _ _ _ _)
    · exact h4.trans (s4.eventOnly_rates _)

theorem State.eventOnly_jobStatus (s : State) (k : Nat) : s.EventOnly (s.jobStatus k) := s.eventOnly_emit _ _ _ _ _

theorem State.eventOnly_jobStart (s : State) (a b c d : Nat) (ps : List Nat) (n : Nat) (own : Bool) :
    s.EventOnly (s.jobStart a b c d ps n own).1 := by
  unfold State.jobStart
  split
  · exact .refl s
  · extract_lets o busy s1 s2 s3 s4 span s5 s6
    have h3 : s.EventOnly s3 :=
      (((((((s.eventOnly_setLive _ _).trans (s1.eventOnly_put _ _ _)).trans (State.eventOnly_put _ _ _ _)).trans
        (State.eventOnly_put _ _ _ _)).trans (State.eventOnly_put _ _ _ _)).trans (s2.eventOnly_put _ _ _)).trans
        (State.eventOnly_put _ _ _ _)).trans (State.eventOnly_put _ _ _ _)
    have h4 : s.EventOnly s4 := h3.trans (State.eventOnly_foldl _ _ (fun u x => u.eventOnly_put _ _ _) _)
    exact ((h4.trans (s4.eventOnly_onJob _ _)).trans (s5.eventOnly_incWrap _ _ _)).trans (s6.eventOnly_jobStatus _)

theorem State.eventOnly_logDues (s : State) (due : Bool) : s.EventOnly (s.logDues due) := by
  unfold State.logDues
  dsimp only
  have h : s.EventOnly (if due = true then (s.raise0 Ev.LOG_PROTECTED_FULL 0).1 else s) := by
    split
    · exact State.eventOnly_raise0 _ _ _ _
    · exact .refl s
  generalize (if due = true then (s.raise0 Ev.LOG_PROTECTED_FULL 0).1 else s) = u at h ⊢
  split
  · have h1 : s.EventOnly ({ u with nearArmed := false }.raise0 Ev.LOG_NEAR_FULL (u.get F.LOG_STAT_UNEXPORTED)).1 :=
      (h.trans (u.eventOnly_near _)).trans (State.eventOnly_raise0 _ _ _ _)
    generalize ({ u with nearArmed := false }.raise0 Ev.LOG_NEAR_FULL (u.get F.LOG_STAT_UNEXPORTED)).1 = v at h1 ⊢
    split
    · have h2 := h1.trans (State.eventOnly_jobStart v 5 0 4 0 [0, 0] (((v.logSpan true []).2 + 31) / 32) true)
      split
      · exact h2
      · exact h2.trans (State.eventOnly_raise0 _ _ _ _)
    · exact h1
  · split
    · exact h
    · exact h.trans (u.eventOnly_near _)

/-- A raising changes registers, the rate limits, the output queue, the log and, through an export of the log, the job
slots; nothing else. -/
theorem State.eventOnly_raise (s : State) (e src : Nat) : s.EventOnly (s.raise e src) :=
  (State.eventOnly_raise0 s e src false).trans (State.eventOnly_logDues _ _)

theorem State.eventOnly_raiseIf (s : State) (c : Bool) (e src : Nat) : s.EventOnly (s.raiseIf c e src) := by
  unfold State.raiseIf
  split
  · exact State.eventOnly_raise _ _ _
  · exact .refl s

theorem State.eventOnly_logEntry (s : State) (a b c d : Nat) (l : List Byte) (t : Nat) : s.EventOnly (s.logEntry a b c d l t) :=
  (State.eventOnly_logPut _ _ _ _ _ _ _ _).trans (State.eventOnly_logDues _ _)

theorem State.eventOnly_raiseLogged (s : State) (e src code set : Nat) (l : List Byte) :
    s.EventOnly (s.raiseLogged e src code set l) :=
  ((State.eventOnly_logPut _ _ _ _ _ _ _ _).trans (State.eventOnly_raise0 _ _ _ _)).trans (State.eventOnly_logDues _ _)

theorem State.eventOnly_wlogClose (s : State) (e : WriteLog) : s.EventOnly (s.wlogClose e) :=
  (s.eventOnly_incWrap _ _ _).trans (State.eventOnly_logEntry _ _ _ _ _ _ _)

/-- What reads none of those fields reads the same afterwards. -/
theorem State.EventOnly.field {β : Type} {s t : State} (h : s.EventOnly t) (p : State → β)
    (hp : ∀ (u : State) r a b c d e j, p { u with regs := r, rates := a, outq := b, log := c, protArmed := d, nearArmed := e, jobs := j }
      = p u) : p t = p s := by
  obtain ⟨r, a, b, c, d, e, j, rfl⟩ := h
  exact hp s _ _ _ _ _ _ _

end Sys2Proof.Machine
end

