-- ==== Sys2Proof/Laws/Memory.lean ====
section
/-! SUPPORT. The byte memories (Vault, contexts, home copies): the canonical form that every write keeps, and what a byte
reads after one. -/
namespace Sys2Proof.Machine
open Sys2Proof

/-! ### Bytes stored in a row -/

/-- A row of stored bytes keeps the canonical form. -/
theorem twf_vaultStore (l : List Byte) (v : Table Byte) (a : Nat) (h : twf (fun _ => (0 : Byte)) v = true) :
    twf (fun _ => (0 : Byte)) (vaultStore v a l) = true := by
  induction l generalizing v a with
  | nil => exact h
  | cons b t ih => exact ih _ _ (twf_tset _ _ _ _ h)

/-- A byte outside the stored row reads as before. -/
theorem tget_vaultStore_outside (l : List Byte) (v : Table Byte) (a j : Nat) (h : j < a ∨ a + l.length ≤ j) :
    tget (fun _ => (0 : Byte)) (vaultStore v a l) j = tget (fun _ => (0 : Byte)) v j := by
  induction l generalizing v a with
  | nil => rfl
  | cons b t ih =>
    simp only [List.length_cons] at h
    rw [vaultStore, ih _ _ (by omega), tget_tset_other _ _ _ _ _ (by omega)]

/-- A byte inside it reads what was stored. -/
theorem tget_vaultStore_inside (l : List Byte) (v : Table Byte) (a j : Nat) (h : j < l.length) :
    tget (fun _ => (0 : Byte)) (vaultStore v a l) (a + j) = l[j] := by
  induction l generalizing v a j with
  | nil => exact absurd h (by simp)
  | cons b t ih =>
    rw [vaultStore]
    cases j with
    | zero => rw [tget_vaultStore_outside t _ _ _ (by omega)]; simp
    | succ j =>
      have := ih (tset (fun _ => 0) v a b) (a + 1) j (by simpa using h)
      rw [Nat.add_assoc, Nat.add_comm 1 j] at this
      simpa using this

/-! ### A range replaced -/

variable {α : Type} [DecidableEq α]

theorem twfFrom_filter (d : Nat → α) (p : Nat × α → Bool) (t : Table α) (lo : Nat) (h : twfFrom d lo t = true) :
    twfFrom d lo (t.filter p) = true := by
  induction t generalizing lo with
  | nil => rfl
  | cons e t ih =>
    obtain ⟨j, w⟩ := e
    simp only [twfFrom, Bool.and_eq_true, decide_eq_true_eq] at h
    have hr := ih (j + 1) h.2
    by_cases hp : p (j, w)
    · simp only [List.filter_cons, hp, if_true, twfFrom, Bool.and_eq_true, decide_eq_true_eq]
      exact ⟨h.1, hr⟩
    · simp only [List.filter_cons, hp]
      exact twfFrom_mono d _ lo (j + 1) (by omega) hr

/-- Entries taken out keep the canonical form. -/
theorem twf_filter (d : Nat → α) (p : Nat × α → Bool) (t : Table α) (h : twf d t = true) : twf d (t.filter p) = true :=
  twfFrom_filter d p t 0 h

theorem twfFrom_append (d : Nat → α) (a b : Table α) (lo k : Nat) (ha : twfFrom d lo a = true)
    (hk : ∀ e ∈ a, e.1 < k) (hlo : lo ≤ k) (hb : twfFrom d k b = true) : twfFrom d lo (a ++ b) = true := by
  induction a generalizing lo with
  | nil => exact twfFrom_mono d b lo k hlo hb
  | cons e t ih =>
    obtain ⟨j, w⟩ := e
    simp only [twfFrom, Bool.and_eq_true, decide_eq_true_eq] at ha
    have hj : j < k := hk (j, w) (by simp)
    simp only [List.cons_append, twfFrom, Bool.and_eq_true, decide_eq_true_eq]
    exact ⟨ha.1, ih (j + 1) ha.2 (fun e he => hk e (List.mem_cons_of_mem _ he)) (by omega)⟩

theorem twfFrom_above (d : Nat → α) (t : Table α) (lo hi : Nat) (h : twfFrom d lo t = true)
    (ht : ∀ e ∈ t, hi ≤ e.1) : twfFrom d hi t = true := by
  cases t with
  | nil => rfl
  | cons e t =>
    obtain ⟨j, w⟩ := e
    simp only [twfFrom, Bool.and_eq_true, decide_eq_true_eq] at h ⊢
    exact ⟨⟨ht (j, w) (by simp), h.1.2⟩, h.2⟩

/-- Replacing a range by entries of that range in canonical form keeps the canonical form. -/
theorem twf_tsplice (d : Nat → α) (lo hi : Nat) (mid t : Table α) (hlh : lo ≤ hi) (h : twf d t = true)
    (hm : twfFrom d lo mid = true) (hu : ∀ e ∈ mid, e.1 < hi) : twf d (tsplice lo hi mid t) = true := by
  unfold twf tsplice
  rw [List.append_assoc]
  refine twfFrom_append d _ _ 0 lo (twfFrom_filter d _ t 0 h) (by simp) (Nat.zero_le _) ?_
  refine twfFrom_append d _ _ lo hi hm hu hlh ?_
  exact twfFrom_above d _ 0 hi (twfFrom_filter d _ t 0 h) (by simp)

theorem cellsOf_below (l : List Byte) (a : Nat) : ∀ e ∈ cellsOf a l, e.1 < a + l.length := by
  induction l generalizing a with
  | nil => simp [cellsOf]
  | cons b t ih =>
    intro e he
    by_cases hb : b = 0
    · simp only [cellsOf, hb, if_true] at he
      have := ih (a + 1) e he
      simp only [List.length_cons]; omega
    · simp only [cellsOf, hb, if_false, List.mem_cons] at he
      rcases he with rfl | he
      · simp
      · have := ih (a + 1) e he
        simp only [List.length_cons]; omega

/-- The entries of a row of bytes are in canonical form. -/
theorem twfFrom_cellsOf (l : List Byte) (a : Nat) : twfFrom zeroB a (cellsOf a l) = true := by
  induction l generalizing a with
  | nil => rfl
  | cons b t ih =>
    by_cases hb : b = 0
    · simp only [cellsOf, hb, if_true]
      exact twfFrom_mono _ _ a (a + 1) (by omega) (ih (a + 1))
    · simp only [cellsOf, hb, if_false, twfFrom, Bool.and_eq_true, decide_eq_true_eq, Bool.not_eq_true',
        decide_eq_false_iff_not]
      exact ⟨⟨Nat.le_refl a, hb⟩, ih (a + 1)⟩

/-- An image written over a home copy or a cached context keeps the canonical form. -/
theorem twf_image (k : Nat) (img : List Byte) (t : Table Byte) (hl : img.length ≤ 2048) (h : twf zeroB t = true) :
    twf zeroB (tsplice (2048 * k) (2048 * k + 2048) (cellsOf (2048 * k) img) t) = true :=
  twf_tsplice zeroB _ _ _ _ (by omega) h (twfFrom_cellsOf img _)
    (fun e he => by have := cellsOf_below img (2048 * k) e he; omega)

/-- So does a context taken out of the cache or a home copy. -/
theorem twf_image_gone (k : Nat) (t : Table Byte) (h : twf zeroB t = true) :
    twf zeroB (tsplice (2048 * k) (2048 * k + 2048) [] t) = true :=
  twf_tsplice zeroB _ _ _ _ (by omega) h rfl (by simp)

/-! ### Reset -/

/-- The memories and registers after reset are in canonical form. -/
theorem reset_tables_wf : (twf zeroB State.reset.vault && twf zeroB State.reset.ctx && twf zeroB State.reset.home
    && twf resetWord State.reset.regs && twf resetWord State.reset.shadow) = true := rfl

end Sys2Proof.Machine
end

