-- ==== Sys2Proof/Laws/Shares.lean ====
section
/-! SUPPORT. What masking leaves of a value (R331): remasking does not change it, and the masked product, square and inverse are those of
the values. -/
namespace Sys2Proof.Laws
open Sys2Proof Sys2Proof.Machine

theorem xor_left_comm (a b c : Byte) : a ^^^ (b ^^^ c) = b ^^^ (a ^^^ c) := by
  rw [← BitVec.xor_assoc, BitVec.xor_comm a, BitVec.xor_assoc]

theorem xor_cancel (a b : Byte) : a ^^^ (a ^^^ b) = b := by rw [← BitVec.xor_assoc, BitVec.xor_self, BitVec.zero_xor]

theorem xtime_xor (a b : Byte) : xtime (a ^^^ b) = xtime a ^^^ xtime b := by
  unfold xtime
  rw [BitVec.msb_xor, BitVec.shiftLeft_xor_distrib]
  cases a.msb <;> cases b.msb <;> simp [BitVec.xor_assoc, BitVec.xor_comm, xor_left_comm]

/-- The product is linear in its first factor. -/
theorem gmulN_xor_left (a b c : Byte) (n : Nat) : gmulN (a ^^^ b) c n = gmulN a c n ^^^ gmulN b c n := by
  induction n generalizing a b c with
  | zero => simp [gmulN]
  | succ n ih =>
    simp only [gmulN, xtime_xor, ih]
    split <;> simp [BitVec.xor_assoc, xor_left_comm]

/-- The product is linear in its second factor. -/
theorem gmulN_xor_right (a b c : Byte) (n : Nat) : gmulN a (b ^^^ c) n = gmulN a b n ^^^ gmulN a c n := by
  induction n generalizing a b c with
  | zero => simp [gmulN]
  | succ n ih =>
    simp only [gmulN, BitVec.ushiftRight_xor_distrib, ih, BitVec.getLsbD_xor]
    cases b.getLsbD 0 <;> cases c.getLsbD 0 <;> simp [BitVec.xor_assoc, xor_left_comm, xor_cancel]

/-- The value of a masked byte. -/
def MByte.value (x : MByte) : Byte := x.1 ^^^ x.2

theorem fresh_value (x : MByte) (m : Byte) : MByte.value (MByte.fresh x m) = MByte.value x := by
  simp [MByte.value, MByte.fresh, BitVec.xor_assoc, xor_left_comm]

/-- The masked product is the product of the values, whatever the mask. -/
theorem mulSh_value (m : Byte) (x y : MByte) : MByte.value (mulSh m x y) = gmul (MByte.value x) (MByte.value y) := by
  simp only [MByte.value, mulSh, gmul, gmulN_xor_left, gmulN_xor_right]
  simp [BitVec.xor_assoc, xor_left_comm, xor_cancel]

/-- Remasking leaves the value as it is, where the shares are of one length. -/
theorem xorL_mask (a b m : List Byte) (h : m.length = a.length) (h' : b.length = a.length) :
    xorL (xorL a m) (xorL b m) = xorL a b := by
  induction a generalizing b m with
  | nil => cases m <;> simp_all [xorL]
  | cons x a ih =>
    match b, m, h, h' with
    | y :: b, z :: m, h, h' =>
      simp only [xorL, List.cons.injEq]
      refine ⟨by simp [BitVec.xor_assoc, xor_left_comm], ih b m (by simpa using h) (by simpa using h')⟩

theorem remask_value (r : Masks) (lane : List Nat) (x : Shares) (h : x.b.length = x.a.length) :
    (x.remask r lane).value = x.value := by
  exact xorL_mask x.a x.b _ (by simp) h

end Sys2Proof.Laws
end

