-- ==== Sys2Proof/WellFormed.lean ====
section
/-! DEFINITION. The operands that a sender can send: what the types of the operands leave open and the spec fixes.  The machine answers every
command, well-formed or not; a test program keeps to the well-formed ones. -/
namespace Sys2Proof

/-- The operands of a command are such as the spec lets it have: a register address is a multiple of 4 (R499), an image its 2,048 bytes (R224, R225), a journal entry stays inside its image (R231), a round names a session once (R192), the quick self-test those of its 30 targets (R469), a link has 1, 2 or 4 lanes (`CXL_LINK_STAT.WIDTH`), and a topology names a
node once (R386). -/
def Instr.wf : Instr → Bool
  | .powerReset => true
  | .vinUvloFall => true
  | .pinReset => true
  | .softReset => true
  | .startUp _ => true
  | .perstRelease => true
  | .pllLocked => true
  | .imageLoadDone _ => true
  | .quickSelfTest obs => obs.length == 30
  | .startDone => true
  | .headendWaitExpiry => true
  | .refclkLost => true
  | .pllUnlock => true
  | .pllRelock _ => true
  | .xt32Check _ => true
  | .ppsEdge => true
  | .ppsLost => true
  | .ppsOutPulse => true
  | .clkCommit _ _ => true
  | .cordEngineStop _ => true
  | .cordEngineWake _ => true
  | .domainIdleStop _ => true
  | .cxlL1Entry => true
  | .supplyMonitor _ _ => true
  | .glbProfileCmd _ _ => true
  | .profileSwitchCheckStep _ _ _ => true
  | .profileSwitchDrainEnd _ => true
  | .profileSwitchWaitEnd _ _ _ => true
  | .coreLost _ => true
  | .linkGcmWaitExpiry _ => true
  | .lpCommit _ _ => true
  | .lpCommitApply _ => true
  | .lpPgaWrite _ _ _ => true
  | .overrangeWindow _ _ => true
  | .pgaUpStepRequest _ _ => true
  | .pgaStepEffect _ => true
  | .pgaHeldGrant _ => true
  | .pgaRequestWithdraw _ _ => true
  | .watchWindow _ _ => true
  | .monBlock _ _ => true
  | .transmissionStart _ => true
  | .transmissionEnd _ _ => true
  | .txExit _ => true
  | .lrefFault _ _ => true
  | .lrefClear _ _ => true
  | .lpFlagsClear _ _ _ => true
  | .aenShiftRequest _ _ _ => true
  | .aenShift => true
  | .aenLatch => true
  | .aenIdleShift => true
  | .aenTailExpiry _ => true
  | .maskBlock _ _ => true
  | .chainOutput _ _ => true
  | .chainSettled _ _ => true
  | .fadeEnd _ => true
  | .fcSwap _ _ _ => true
  | .swapStart _ => true
  | .fcCommit _ _ => true
  | .fcCommitApply _ => true
  | .coefWrite _ _ _ _ => true
  | .fcAuxDataAccess _ _ => true
  | .fcSetDirWrite _ _ _ _ => true
  | .fcSyncCmd _ _ => true
  | .syncRestart _ _ => true
  | .listenWindowOpen _ => true
  | .listenWindowClose _ => true
  | .halfSymbolEvaluation _ _ => true
  | .symbolBoundary _ _ => true
  | .qualifyTimeout _ => true
  | .qualifyLevelDrop _ => true
  | .strSyncTimeout _ => true
  | .levelLost _ => true
  | .headerVerdict _ => true
  | .frameSymbolsDelivered _ _ => true
  | .replayStart _ => true
  | .replayLive _ => true
  | .strCommit _ _ => true
  | .strCommitApply _ => true
  | .strCntClr _ _ => true
  | .deinterleaveDone _ => true
  | .viterbiDecodeStart _ => true
  | .viterbiDecodeDone _ => true
  | .ccmVerifyDone _ => true
  | .meterPhaseReport => true
  | .mainsCoastTimeout _ => true
  | .phaseAbsent _ _ => true
  | .predictedCycleStart _ => true
  | .binEnd _ _ => true
  | .mapWindow _ _ => true
  | .mnsPortClear _ _ _ => true
  | .mnsCommit _ _ => true
  | .mnsCommitApply _ _ => true
  | .roundFix _ members => decide (members.map (·.1)).Nodup
  | .roundDelayed _ => true
  | .laterFramesSend _ => true
  | .readDue _ => true
  | .readOverdue _ => true
  | .planOverload _ => true
  | .unreachablePollDue _ => true
  | .discoverySweepDue _ _ _ => true
  | .phasePollDue _ => true
  | .sweepEnd _ => true
  | .assocRefuseHoldEnd => true
  | .assignTriesExhausted _ => true
  | .plnPinSet _ _ => true
  | .plnPinClearAll _ _ => true
  | .plnPinRead _ _ => true
  | .plnCommitGroups _ _ => true
  | .plnCommitRate _ _ => true
  | .plnCommitLimits _ _ => true
  | .plnCommitApply => true
  | .plnLimitsApply => true
  | .sesCmdDelete _ _ => true
  | .sesCmdSetPrio _ _ => true
  | .sesCmdClearPrio _ _ => true
  | .sesCmdRead _ _ => true
  | .sesCmdWrite _ _ => true
  | .sesCmdFlush _ _ => true
  | .sesCmdRestore _ _ => true
  | .sesCmdRestoreEnd _ _ => true
  | .leaseRequest _ _ => true
  | .leaseRelease _ _ _ => true
  | .leaseRenew _ _ _ => true
  | .leaseExpiry _ => true
  | .leaseWaitTimeout _ _ => true
  | .contextPrefetch _ => true
  | .contextFillDone _ _ => true
  | .contextRebuildDone _ _ _ => true
  | .journalWriteDone => true
  | .journalUpdateResume => true
  | .writeBackDone _ => true
  | .storeHeaderWrite => true
  | .spoolWrite => true
  | .recordSend _ => true
  | .credit _ => true
  | .creditStall => true
  | .halAck _ _ => true
  | .drainRewind _ => true
  | .cxlLinkDown => true
  | .cxlRequestTimeout => true
  | .cxlLinkUp lanes _ _ _ => lanes.val == 1 || lanes.val == 2 || lanes.val == 4
  | .cxlCacheOnly => true
  | .cxlRetrainTimer => true
  | .cxlRetrain _ _ => true
  | .cxlMediaPoll _ => true
  | .rhLinkUp _ => true
  | .rhLinkDown _ => true
  | .rhLinkInitRetry _ => true
  | .superframeStart => true
  | .pairLease => true
  | .slotStart => true
  | .phase2Prep => true
  | .responderSend => true
  | .slotTail _ => true
  | .rhScriptLate _ _ => true
  | .pairRelease _ => true
  | .radioAssignExpire _ => true
  | .radioCmdFailed _ => true
  | .parentBeacon => true
  | .parentLost => true
  | .coordIndependent => true
  | .macCommit _ _ => true
  | .macCommitApply => true
  | .macScriptDataAccess _ _ => true
  | .macCtrlRun _ _ => true
  | .macCtrlSubord _ _ => true
  | .routeAgeOut => true
  | .seenExpire => true
  | .meshResend _ => true
  | .mshRouteClearOne _ _ => true
  | .mshRouteClearAll _ _ => true
  | .mshCommit _ _ => true
  | .mshCommitApply => true
  | .anchorProgram _ _ => true
  | .anchorProgramDone _ => true
  | .keyDerivationDone => true
  | .kcacheFlush _ _ => true
  | .drbgReseed => true
  | .entropyFail => true
  | .entropyRetest _ => true
  | .vaultWriteDone _ => true
  | .rawJobStart _ _ => true
  | .rawJobAbort _ _ => true
  | .rawJobDone _ => true
  | .cipSesRead _ _ => true
  | .cipSesRekeyDue _ _ => true
  | .cipSesReprovision _ _ => true
  | .cipCommit _ _ => true
  | .chkArm _ _ _ => true
  | .chkStop _ _ _ => true
  | .chkClrExpect _ _ _ => true
  | .chkExpectWrite _ _ _ => true
  | .chkWindowStart _ => true
  | .chkWindowEnd _ _ _ _ => true
  | .chkCommit _ _ => true
  | .chkCommitApply _ => true
  | .laneUp _ _ => true
  | .laneDown _ _ => true
  | .helloSend _ => true
  | .linkHello _ _ _ => true
  | .linkConfirm _ => true
  | .linkBringupTimeout _ => true
  | .linkSilenceTimeout _ => true
  | .linkFrameRejected _ _ => true
  | .ownershipRefresh => true
  | .ownWatchdogExpiry => true
  | .spliceStartWaitEnd => true
  | .takeoverTimeout => true
  | .claimGuardEnd => true
  | .ownInFall => true
  | .splitClaimTimeout => true
  | .claimRetryDelayEnd => true
  | .splSwitchover _ _ => true
  | .splUnpair _ _ => true
  | .splResync _ _ => true
  | .splCommit _ _ => true
  | .splHeartbeatSend => true
  | .splHeartbeat _ _ _ _ _ => true
  | .splJrn _ _ _ _ offset data => decide (offset.val + data.length ≤ 2048)
  | .splVault _ _ _ _ _ _ _ => true
  | .splPlan _ _ _ => true
  | .splRoute _ _ _ _ _ _ _ => true
  | .splCtx _ _ image => image.length == 2048
  | .splAck _ _ => true
  | .splAudit _ _ _ => true
  | .splSwitch _ => true
  | .splCtxReq _ _ _ => true
  | .mirrorAuditStep => true
  | .brdKeepaliveSend _ => true
  | .brdKeepalive _ => true
  | .walkStart => true
  | .knotWalkTimer => true
  | .brdWalk _ _ _ => true
  | .brdTopology _ nodes _ _ _ => decide (nodes.map (·.id)).Nodup
  | .delayExchangeTimer _ => true
  | .brdDelayReq _ => true
  | .brdDelayResp _ _ _ => true
  | .timeSendTimer => true
  | .brdTime _ _ _ _ => true
  | .brdMeshRelay _ _ _ _ _ _ _ => true
  | .brdBroadcast _ _ => true
  | .brdBcastCmd _ _ => true
  | .brdHoCmd _ _ => true
  | .brdHoOffer _ _ _ image _ => image.length == 2048
  | .brdHoAccept _ _ _ => true
  | .brdHoRefuse _ _ _ => true
  | .brdHoDone _ _ => true
  | .brdHoFail _ _ => true
  | .hoAckTimeout _ => true
  | .brdJoinRing _ _ => true
  | .bightLane1Open => true
  | .bightCutoverQueue => true
  | .bightCutover => true
  | .bightMember => true
  | .bightInsertRetry => true
  | .brdLeave _ _ => true
  | .brdCommit _ _ => true
  | .halLinkUp _ => true
  | .halLinkDown _ => true
  | .halPortReturn => true
  | .halFrameReceive _ _ => true
  | .halHelloSend => true
  | .halNegotiationEnd => true
  | .halVersion _ => true
  | .halCommand _ _ _ => true
  | .cmdMeterCommand => true
  | .cmdCsrRead => true
  | .cmdCsrWrite => true
  | .cmdRawJob => true
  | .cmdJobStart => true
  | .cmdJobCancel => true
  | .cmdReplaceAck => true
  | .halCommit _ _ => true
  | .halMsecInstall _ _ _ => true
  | .halMsecEnable _ _ _ => true
  | .halMsecDisable _ _ _ => true
  | .mgtWrite _ _ _ => true
  | .mgtRead _ _ => true
  | .mgtStatus _ => true
  | .mgtId _ => true
  | .mgtInvalidTransaction _ _ => true
  | .writeLogEntry => true
  | .eventRecordDue => true
  | .evcLatchClear _ _ _ => true
  | .blyStart _ _ => true
  | .blyCancel _ _ => true
  | .blyOverrun _ => true
  | .jobStatusReport _ => true
  | .sessionScrubStep _ _ => true
  | .rekeySweepStep _ => true
  | .cxlScrubStep _ _ _ _ => true
  | .logExportStep _ => true
  | .noiseMapExportStep _ => true
  | .cxlAuditStep _ _ _ => true
  | .cipherTestStep _ _ => true
  | .nvmReadStep _ _ _ => true
  | .nvmProgramStep _ _ => true
  | .nvmEraseStep _ => true
  | .nvmStatusPoll _ _ => true
  | .selfTestStep _ _ => true
  | .testCordMove _ _ => true
  | .selfTestPeriodicStart => true
  | .bstClearMark _ _ => true
  | .bstReplaceAck _ _ => true
  | .bstReplaceClr _ _ => true
  | .replaceRequestRepeat => true
  | .logClearProt _ _ => true
  | .logMarkExported _ _ => true
  | .glbCommit _ _ => true
  | .glbRevert _ _ => true
  | .glbTimeCapture _ _ => true
  | .gpioCapture _ _ => true
  | .wideValueRead _ a => a.toNat % 4 == 0
  | .registerWrite _ a _ => a.toNat % 4 == 0
  | .tapInstructionUpdate _ => true
  | .bightCutoverProposal _ _ _ _ => true
  | .braidTimeValidLapse => true
  | .entropyStartupTest _ => true

end Sys2Proof
end

