-- ==== Sys2Proof/Tests/Slice0.lean ====
section
/-! SUPPORT. Tests on fixed values, whose expected results are the spec's worked examples and tables or published vectors, the refusal of
ill-formed operands, and a witness for every statement that has hypotheses. -/
set_option maxRecDepth 100000
namespace Sys2Proof.Tests
open Sys2Proof Sys2Proof.Machine

/-- The state the witnesses start from: long after reset, with the start-up sequence over. -/
def base : State := { State.reset with tick := 1000000000000, up := { State.reset.up with run := 2 } }

/-- A word with one one-bit field set. -/
def word (f : Fld) : Word := BitVec.ofNat 32 (2 ^ f.lo)

/-- A received frame body of receiver `r`. -/
def aBody (r : Nat) : Body :=
  { rx := r, group := [r], hdr := ⟨4, 0, 0, 0, 1, false, 0⟩, prio := false, tick := 0, blockNo := none, vals := [], collided := [], snr := 0, sync := 0, syncs := [], erasedPct := 0 }

/-- A frame of 20 symbols of 320 ticks that a line port sends. -/
def aBurst : Burst := ⟨36, 0, 320, List.replicate 20 1, 3000, 100, 0, 255, none, true⟩

/-- An exchange of session `k`. -/
def anExch (k : Nat) : Exch :=
  { session := k, cord := 0, ports := [0], slot := 0, cls := 2, attempt := 0, request := 0, seq := 0, mode := ⟨0, 0, 0⟩, block := false, round := 1,
    step := 2, openAt := 0, closeAt := 9, blockRounds := 0, needAck := false, due := 0, again := false, tx := [], txMode := ⟨0, 0, 0⟩, wait := 0,
    heard := [], pollS := 0 }

/-- A fabric message heading, of sequence number 5 on port 1. -/
def aHdr : BHdr := { port := 1, seq := 5, bcast := true, wrapped := false, dst := 0, src := 0, hops := 5, bseq := 1 }

/-- The state a meaning answers. -/
def after (o : Out) : State := match o with | .next t => t | _ => State.reset

/-! ## Ill-formed operands are refused -/

theorem test_wf_splice_image : Instr.wf (.splCtx 1 5 [1]) = false := by decide
theorem test_wf_offer_image : Instr.wf (.brdHoOffer aHdr 1 2 [1] []) = false := by decide
theorem test_wf_journal_entry : Instr.wf (.splJrn 1 1 5 0 2047 [1, 2]) = false := by decide
theorem test_wf_lanes : Instr.wf (.cxlLinkUp 3 0 0 false) = false := by decide
theorem test_wf_read_address : Instr.wf (.wideValueRead .mgt 0x202#24) = false := by decide
theorem test_wf_write_address : Instr.wf (.registerWrite .mgt 0x201#24 0) = false := by decide
theorem test_wf_round_members : Instr.wf (.roundFix 3 [(5, 1), (5, 2)]) = false := by decide
theorem test_wf_quick_targets : Instr.wf (.quickSelfTest []) = false := by decide
theorem test_wf_topology_nodes : Instr.wf (.brdTopology aHdr [⟨1, 2, 0⟩, ⟨3, 2, 1⟩] none 0 none) = false := by decide
theorem test_wf_accepts : Instr.wf (.registerWrite .mgt 0x200#24 0) = true ∧ Instr.wf (.splJrn 1 1 5 0 2046 [1, 2]) = true := by decide
theorem test_no_table_word : decodeTableWord 32 0 = none := by decide

/-! ## Codes -/

/-- "123456789". -/
def nine : List Byte := [0x31, 0x32, 0x33, 0x34, 0x35, 0x36, 0x37, 0x38, 0x39]

-- the table of R354
theorem test_crc_ccitt : (crcGen 16 0x1021#32 0xFFFF#32 0#32 false false nine).toNat = 0x29B1 := by decide +kernel
theorem test_crc32 : (State.reset.put F.CHK_CFG_ALG 0 1).chkCompute 0 nine = 0xCBF43926#32 := by decide +kernel
theorem test_crc32c : (State.reset.put F.CHK_CFG_ALG 0 2).chkCompute 0 nine = 0xE3069283#32 := by decide +kernel
theorem test_fletcher : (State.reset.put F.CHK_CFG_ALG 0 3).chkCompute 0 [0x61, 0x62, 0x63, 0x64, 0x65] = 0xF04FC729#32 := by decide +kernel

/-- A key in use, with mask bytes of its own. -/
def testKey (l : List Byte) : Key :=
  let r : Masks := fun lane i => BitVec.ofNat 8 (37 * lane.sum + 101 * i + 11)
  ⟨(Shares.pub l).remask r [9], r, []⟩

-- FIPS 197, appendices C.1 and C.3: the masked cipher gives what the cipher gives
theorem test_aes128 :
    aesEnc (testKey ((List.range 16).map (fun k => BitVec.ofNat 8 k))) ((List.range 16).map (fun k => BitVec.ofNat 8 (0x11 * k)))
    = [0x69, 0xC4, 0xE0, 0xD8, 0x6A, 0x7B, 0x04, 0x30, 0xD8, 0xCD, 0xB7, 0x80, 0x70, 0xB4, 0xC5, 0x5A] := by decide +kernel
theorem test_aes256_inverse :
    aesDec (testKey ((List.range 32).map (fun k => BitVec.ofNat 8 k)))
      [0x8E, 0xA2, 0xB7, 0xCA, 0x51, 0x67, 0x45, 0xBF, 0xEA, 0xFC, 0x49, 0x90, 0x4B, 0x49, 0x60, 0x89]
    = (List.range 16).map (fun k => BitVec.ofNat 8 (0x11 * k)) := by decide +kernel

-- the lengths of the worked example of the poll planner: an MPDU of 20 bytes and one of 86 at rate 1/2
theorem test_body_lengths : PhyHdr.bodyLen ⟨20, 0, 0, 0, 1, false, 0⟩ = 336 ∧ PhyHdr.bodyLen ⟨86, 0, 0, 0, 1, false, 0⟩ = 1392 := by decide

-- the worked example of combining
theorem test_combining : combValue [(127, 5, 4), (64, -2, 4), (25, 1, 2)] = (3, 4) ∧ combValue [(127, 0, 0), (64, 4, 4), (25, 3, 4)] = (4, 2) := by
  decide +kernel

/-! ## The worked examples of chains, mains, events and commits -/

theorem test_settling_counts :
    let s := (base.setLive 0x078210 0x802E0100#32).setLive 0x061280 0x06004002#32
    let s := (s.setLive 0x078224 0x80CF0200#32).setLive 0x069300 0x06214005#32
    let s := (s.put F.FC_BANK_ACTIVE_SET (fcO 37) 4).put F.FC_BANK_ACTIVE_SET (fcO 294) 9
    s.settleD 37 = 23 ∧ s.settleD 294 = 43 := by decide +kernel

theorem test_phase_of_meter :
    let z := 1000000000000
    let s : State := { base with sets := [(0, { SetS.init with crossed :=
      [(0, z + 768000), (4, z + 640560), (2, z + 511900), (3, z + 384100), (1, z + 256480), (5, z + 127950), (0, z)] })] }
    let r := ((s.put F.MNS_SET_STAT_STATE 0 1).put F.MNS_PERIOD_TICKS 0 768000).phaseOf 0 3560#16 (z + 100000) (z + 768000)
    r.result = 2 ∧ r.conf = 3 := by decide +kernel

/-- The state of the worked example of events: EV141 raised for class 3. -/
def spoolFull : State := ((base.putB F.MGT_STATUS_READY 0 true).raise 141 3).settle

theorem test_event_shown : (after (execMgtRead 0x010088#24 64 spoolFull)).sdo = [0xD1, 0x18, 0x01, 0x00] ∧ spoolFull.live 0x1000F4 = 3 := by
  decide +kernel

theorem test_event_cleared :
    let t := after (execMgtWrite 0x010010#24 [0x00, 0x20, 0x00, 0x00] false spoolFull)
    t.evLatched 141 = false ∧ t.bit F.EVC_STATUS_IRQ = false := by decide +kernel

theorem test_commit_rejected :
    let s := after (execRegisterWrite .mgt 0x069300#24 0x062C8064#32 base)
    let s := after (execFcCommit .mgt 294#32 s)
    s.live F.GLB_EV_SRC3.addr = 0x01260330#32 ∧ s.evLatched 3 = true ∧ s.commits = [] := by decide +kernel

theorem test_management_id : (after (execMgtId 5 base)).sdo = [0x4B, 0x4E, 0x14, 0x40, 0x00] := by decide +kernel


/-! ## Witnesses of the completion statements: for each command with conditions, a state and operands that meet them all -/

theorem witness_ResetAndStartUpCommandsComplete :
    -- powerReset
    (∃ (s : State),
      s.up.run = 0) ∧
    -- pinReset
    (∃ (s : State),
      s.up.run ≠ 0) ∧
    -- softReset
    (∃ (s : State),
      ∃ t, s.up.softAt = some t ∧
      t ≤ s.tick) ∧
    -- startUp
    (∃ (s : State) (pins : Fin 4),
      s.up.run = 1) ∧
    -- perstRelease
    (∃ (s : State),
      s.up.run ≠ 0 ∧
      s.up.perst = false ∧
      s.up.goodAt + msTicks (s.get F.PWR_CXL_CFG_PERST_MIN) ≤ s.tick) ∧
    -- pllLocked
    (∃ (s : State),
      s.up.run = 2 ∧
      s.startCode = 1) ∧
    -- imageLoadDone
    (∃ (s : State) (image : Option (List Byte)),
      s.up.run = 2 ∧
      s.startCode = 2) ∧
    -- quickSelfTest
    (∃ (s : State) (obs : List QuickObs),
      s.get F.PWR_START_STAT_STEP = 3) ∧
    -- startDone
    (∃ (s : State),
      s.up.run = 2 ∧
      s.startCode = 5 ∧
      s.spl.want.isEmpty = true) ∧
    -- headendWaitExpiry
    (∃ (s : State),
      ∃ t, s.waitEnd = some t ∧
      s.classHeld = true ∧
      t ≤ s.tick) :=
  ⟨⟨{ base with up := { base.up with run := 0 } }, by decide⟩,
   ⟨base, by decide⟩,
   ⟨{ base with up := { base.up with softAt := some 5 } }, _, rfl, by decide⟩,
   ⟨{ base with up := { base.up with run := 1 } }, 3, by decide⟩,
   ⟨base, by decide, by decide, by decide⟩,
   ⟨(base.put F.PWR_START_STAT_STEP 0 1), by decide, by decide⟩,
   ⟨(base.put F.PWR_START_STAT_STEP 0 2), none, by decide, by decide⟩,
   ⟨(base.put F.PWR_START_STAT_STEP 0 3), [], by decide⟩,
   ⟨(base.put F.PWR_START_STAT_STEP 0 5), by decide, by decide, by decide⟩,
   ⟨{ base with waitEnd := some 7, classHeld := true }, _, rfl, by decide, by decide⟩⟩

theorem witness_ClockCommandsComplete :
    -- refclkLost
    (∃ (s : State),
      s.up.run = 2 ∧
      s.bit F.CLK_STATUS_REFCLK_OK = true) ∧
    -- pllUnlock
    (∃ (s : State),
      s.up.run = 2 ∧
      s.bit F.CLK_STATUS_PLL_LOCK = true ∧
      s.bit F.CLK_STATUS_REFCLK_OK = true) ∧
    -- pllRelock
    (∃ (s : State) (prev : Option (List Byte)),
      s.up.run = 2 ∧
      s.up.clockLost = true ∧
      6 ≤ s.startCode) ∧
    -- ppsLost
    (∃ (s : State),
      ∃ t, s.ppsLast = some t ∧
      t + 38400000 + 57600000 ≤ s.tick) ∧
    -- ppsOutPulse
    (∃ (s : State),
      let m := s.tick / 38400000 * 38400000
      s.bit F.CLK_PPS_OUT_EN = true ∧
      s.tick < m + 1172) ∧
    -- braidTimeValidLapse
    (∃ (s : State),
      s.bit F.BRD_TIME_STAT_VALID = true ∧
      s.brd.timeAt + 4 * sTicks (s.get F.BRD_TIME_CFG_INTERVAL) ≤ s.tick) :=
  ⟨⟨(base.put F.CLK_STATUS_REFCLK_OK 0 1), by decide, by decide⟩,
   ⟨((base.put F.CLK_STATUS_REFCLK_OK 0 1).put F.CLK_STATUS_PLL_LOCK 0 1), by decide, by decide, by decide⟩,
   ⟨{ (base.put F.PWR_START_STAT_STEP 0 6) with up := { base.up with clockLost := true } }, none, by decide, by decide, by decide⟩,
   ⟨{ base with ppsLast := some 5 }, _, rfl, by decide⟩,
   ⟨{ (base.put F.CLK_PPS_OUT_EN 0 1) with tick := 38400000 }, by decide, by decide⟩,
   ⟨((base.put F.BRD_TIME_STAT_VALID 0 1).put F.BRD_TIME_CFG_INTERVAL 0 1), by decide, by decide⟩⟩

theorem witness_PowerProfileAndCoreCommandsComplete :
    -- cordEngineStop
    (∃ (s : State) (e : Fin 10),
      let cords := (List.range 9).filter (fun c => s.engineOf c == e.val)
      s.bit F.PWR_SLEEP_CFG_SLEEP_EN = true ∧
      s.bitAt F.PWR_DOMAIN_STAT 0 e.val = true ∧
      cords.any (fun c => s.cordBusy c) = false ∧
      ¬(e.val = 9 ∧ s.spareTested)) ∧
    -- cordEngineWake
    (∃ (s : State) (cord : Fin 9),
      s.wakeNear cord.val 0 = true) ∧
    -- cxlL1Entry
    (∃ (s : State),
      s.cxlUp = true ∧
      s.cxlWork = false) ∧
    -- profileSwitchCheckStep
    (∃ (s : State) (k : Fin 16) (entry : Option (Nat × Word)) (data : List Byte),
      s.jobTurn k.val 7 = true ∧
      s.profPhase < 2) ∧
    -- profileSwitchDrainEnd
    (∃ (s : State) (k : Fin 16),
      let drained := !profBlocks.any (fun b => s.commitPending b) && s.rounds.isEmpty && s.exchs.isEmpty && s.radioDrained
      s.jobTurn k.val 7 = true ∧
      s.profPhase = 2 ∧
      (drained || s.bit F.PWR_DOMAIN_STAT_THERM_STOP) = true) ∧
    -- profileSwitchWaitEnd
    (∃ (s : State) (k : Fin 16) (data : List Byte) (prev : Option (List Byte)),
      s.jobTurn k.val 7 = true ∧
      s.profPhase = 3 ∧
      s.lineWaited k.val = true) ∧
    -- coreLost
    (∃ (s : State) (core : Fin 4),
      s.up.run = 2 ∧
      s.up.coresOut.testBit core.val = false) ∧
    -- linkGcmWaitExpiry
    (∃ (s : State) (l : Fin 4),
      let old := fun (m : Msg) => decide (m.sent + usTicks 8 ≤ s.tick)
      s.engineUp = true) :=
  ⟨⟨((base.put F.PWR_SLEEP_CFG_SLEEP_EN 0 1).put F.PWR_DOMAIN_STAT_CE_RUN 0 8), 3, by decide, by decide, by decide, by decide⟩,
   ⟨{ base with rounds := [⟨1, 3, [48], 1000000, 1000000, 900000⟩] }, 3, by decide⟩,
   ⟨(base.put F.CXL_LINK_STAT_STATE 0 2), by decide, by decide⟩,
   ⟨((base.put F.BLY_SLOT_STAT_STATE 0 2).put F.BLY_SLOT_STAT_KIND 0 7), 0, none, [], by decide, by decide⟩,
   ⟨{ ((base.put F.BLY_SLOT_STAT_STATE 0 2).put F.BLY_SLOT_STAT_KIND 0 7) with profPhase := 2 }, 0, by decide, by decide, by decide⟩,
   ⟨{ ((base.put F.BLY_SLOT_STAT_STATE 0 2).put F.BLY_SLOT_STAT_KIND 0 7) with profPhase := 3 }, 0, [], none, by decide, by decide, by decide⟩,
   ⟨base, 2, by decide, by decide⟩,
   ⟨(base.put F.CIP_STATUS_ENTROPY_OK 0 1), 3, by decide⟩⟩

theorem witness_PortGainAndLevelCommandsComplete :
    -- lpCommitApply
    (∃ (s : State) (cord : Fin 9),
      let c := cord.val
      s.instPending 2 c = true ∧
      (s.lpChanged c).any s.exchOn = false) ∧
    -- overrangeWindow
    (∃ (s : State) (p : Fin 144) (n : Fin 65),
      let o := lpO p.val
      4 ≤ n.val ∧
      s.pgaAuto p.val = true) ∧
    -- pgaUpStepRequest
    (∃ (s : State) (p : Fin 144) (peak : Int),
      let cur := s.get F.LP_STATUS_GAIN_CODE (lpO p.val)
      s.pgaAuto p.val = true ∧
      s.upCond p.val peak = true ∧
      cur < s.get F.LP_PGA_MAX_CODE (lpO p.val)) ∧
    -- pgaStepEffect
    (∃ (s : State) (p : Fin 144),
      let o := lpO p.val
      ∃ up t, (s.port p.val).step = some (up, t) ∧
      t ≤ s.tick) ∧
    -- pgaHeldGrant
    (∃ (s : State) (p : Fin 144),
      ∃ u1, (s.port p.val).held = some u1) ∧
    -- pgaRequestWithdraw
    (∃ (s : State) (p : Fin 144) (peak : Int),
      let x := s.port p.val
      ∃ up, x.held = some up ∧
      let due := if up then !s.upCond p.val peak else decide (x.lastOver + 24000 * 32 ≤ s.tick)
      s.bit F.LP_PGA_MODE (lpO p.val) = true ∧
      due = true) ∧
    -- watchWindow
    (∃ (s : State) (p : Fin 144) (a : AdcRun),
      let o := lpO p.val
      let inWatch := s.portSt p.val == 1 || (s.portSt p.val == 4 && !s.cordRuns (p.val / 16))
      inWatch = true ∧
      a.words.length = 64) ∧
    -- monBlock
    (∃ (s : State) (p : Fin 144) (adc : List (BitVec 14)),
      let o := lpO p.val
      let n := (s.port p.val).monN
      let due := decide ((s.port p.val).txStart + 4096 * (n + 1) ≤ s.tick) && decide (256 * (n + 1) ≤ s.txSamples p.val)
      s.portSt p.val = 3 ∧
      due = true ∧
      adc.length = 128) :=
  ⟨⟨{ base with commits := [⟨2, [4], [], false⟩] }, 4, by decide, by decide⟩,
   ⟨((base.put F.LP_PGA_MODE (0x100 * 9) 1).put F.LP_STATUS_STATE (0x100 * 9) 1), 9, 4, by decide, by decide⟩,
   ⟨(((base.put F.LP_PGA_MODE (0x100 * 9) 1).put F.LP_STATUS_STATE (0x100 * 9) 1).put F.LP_PGA_MAX_CODE (0x100 * 9) 5), 9, -2101, by decide, by decide, by decide⟩,
   ⟨{ base with ports := [(9, { PortS.init with step := some (true, 6) })] }, 9, _, _, rfl, by decide⟩,
   ⟨{ base with ports := [(9, { PortS.init with held := some true })] }, 9, _, rfl⟩,
   ⟨{ (base.put F.LP_PGA_MODE (0x100 * 9) 1) with ports := [(9, { PortS.init with held := some false })] }, 9, -3000, _, rfl, by decide, by decide⟩,
   ⟨(base.put F.LP_STATUS_STATE (0x100 * 9) 1), 9, ⟨List.replicate 64 0, 4096⟩, by decide, by decide⟩,
   ⟨{ (base.put F.LP_STATUS_STATE (0x100 * 9) 3) with ports := [(9, { PortS.init with tx := [aBurst] })] }, 9, List.replicate 128 0, by decide, by decide, by decide⟩⟩

theorem witness_PortTransmissionCommandsComplete :
    -- transmissionStart
    (∃ (s : State) (p : Fin 144),
      let o := lpO p.val
      let x := s.port p.val
      ∃ u1, x.planned = some u1 ∧
      ∃ en, x.enabledAt = some en) ∧
    -- transmissionEnd
    (∃ (s : State) (p : Fin 144) (limited : Nat),
      let o := lpO p.val
      let x := s.port p.val
      let done := txOver x.tx
      s.portSt p.val = 3 ∧
      x.tx.isEmpty = false ∧
      done ≤ s.tick) ∧
    -- txExit
    (∃ (s : State) (p : Fin 144),
      let x := s.port p.val
      ∃ t, x.clearedAt = some t ∧
      s.portSt p.val = 3 ∧
      x.tx.isEmpty = true ∧
      t + 384 ≤ s.tick) ∧
    -- lrefFault
    (∃ (s : State) (cord : Fin 9) (mv : Int),
      250 < mv.natAbs ∧
      s.bitAt F.LP_LREF_STAT 0 cord.val = false) ∧
    -- lrefClear
    (∃ (s : State) (cord : Fin 9) (mv : Int),
      mv.natAbs < 200 ∧
      s.bitAt F.LP_LREF_STAT 0 cord.val = true) ∧
    -- aenShiftRequest
    (∃ (s : State) (p : Fin 144) (on : Bool) (t0 : Nat),
      s.own = true) ∧
    -- aenShift
    (∃ (s : State),
      s.own = true ∧
      s.aen.shifting.isNone = true ∧
      s.aen.lastEnd ≤ s.tick ∧
      (s.aen.waiting || s.aen.zeroOwed) = true) ∧
    -- aenLatch
    (∃ (s : State),
      ∃ word t0, s.aen.shifting = some (word, t0) ∧
      t0 + 576 ≤ s.tick) ∧
    -- aenIdleShift
    (∃ (s : State),
      s.own = true ∧
      s.aen.shifting.isNone = true ∧
      s.aen.lastEnd + msTicks 1 ≤ s.tick) ∧
    -- aenTailExpiry
    (∃ (s : State) (p : Fin 144),
      ∃ t, (s.port p.val).tailDue = some t ∧
      t ≤ s.tick) ∧
    -- maskBlock
    (∃ (s : State) (p : Fin 144) (b : Nat),
      let o := lpO p.val
      let n := (s.port p.val).maskN
      let from' := (s.port p.val).txStart + 4096 * n
      s.portSt p.val = 3 ∧
      b = n ∧
      from' + 4096 ≤ s.tick ∧
      256 * (n + 1) ≤ s.txSamples p.val) :=
  ⟨⟨{ (base.put F.LP_STATUS_STATE (0x100 * 9) 2) with ports := [(9, { PortS.init with planned := some 600, enabledAt := some 300 })], own := true }, 9, _, rfl, _, rfl⟩,
   ⟨{ (base.put F.LP_STATUS_STATE (0x100 * 9) 3) with ports := [(9, { PortS.init with tx := [aBurst] })] }, 9, 0, by decide, by decide, by decide⟩,
   ⟨{ (base.put F.LP_STATUS_STATE (0x100 * 9) 3) with ports := [(9, { PortS.init with clearedAt := some 600 })] }, 9, _, rfl, by decide, by decide, by decide⟩,
   ⟨base, 8, -251, by decide, by decide⟩,
   ⟨(base.put F.LP_LREF_STAT 0 0x100), 8, 199, by decide, by decide⟩,
   ⟨{ base with own := true }, 143, true, 600, by decide⟩,
   ⟨{ base with own := true, aen := { State.reset.aen with waiting := true } }, by decide, by decide, by decide, by decide⟩,
   ⟨{ base with aen := { State.reset.aen with shifting := some (5#144, 600) } }, _, _, rfl, by decide⟩,
   ⟨{ base with own := true }, by decide, by decide, by decide⟩,
   ⟨{ base with ports := [(9, { PortS.init with tailDue := some 600 })] }, 9, _, rfl, by decide⟩,
   ⟨{ (base.put F.LP_STATUS_STATE (0x100 * 9) 3) with ports := [(9, { PortS.init with tx := [aBurst] })] }, 9, 0, by decide, by decide, by decide, by decide⟩⟩

theorem witness_FilterChainCommandsComplete :
    -- chainSettled
    (∃ (s : State) (c : Fin 758) (ins : List ChainIn),
      let x := s.chain c.val
      s.bit F.FC_STATUS_SETTLED (fcO c.val) = false ∧
      x.held = false ∧
      x.settleN ≤ x.outs) ∧
    -- swapStart
    (∃ (s : State) (c : Fin 758),
      s.atBoundary c.val = true ∧
      (s.chain c.val).swapReq.isNone = true) ∧
    -- fcCommitApply
    (∃ (s : State) (c : Fin 758),
      s.atBoundary c.val = true) ∧
    -- syncRestart
    (∃ (s : State) (g : Fin 16) (t : Nat),
      ∃ d, s.syncDue.find? (fun d => d.group == g.val && decide (d.due ≤ t)) = some d ∧
      t ≤ s.tick ∧
      d.done = false) :=
  ⟨⟨{ base with chains := [(757, { ChainS.init with held := false, outs := 9999 })] }, 757, [], by decide, by decide, by decide⟩,
   ⟨{ (base.put F.FC_BANK_PENDING (0x80 * 9) 1) with chains := [(9, { ChainS.init with idx := 1 })] }, 9, by decide, by decide⟩,
   ⟨{ base with chains := [(757, { ChainS.init with idx := 1 })], commits := [⟨3, [757], [], false⟩] }, 757, by decide⟩,
   ⟨{ base with syncDue := [⟨15, 600, false, false, []⟩] }, 15, 600, _, rfl, by decide, by decide⟩⟩

theorem witness_StrandCommandsComplete :
    -- listenWindowOpen
    (∃ (s : State) (r : Fin 608),
      let n := r.val
      (s.rx n).listen = false) ∧
    -- listenWindowClose
    (∃ (s : State) (r : Fin 608),
      let n := r.val
      let x := s.rx n
      let early := match x.shutAt with
        | some t => decide (s.tick < t) && (if n < 576 then (s.exchOfRx n).isSome || (s.sweepSlot n s.tick).isSome
            else (s.radioWindow n).isSome)
        | none => false
      x.listen = true ∧
      early = false) ∧
    -- halfSymbolEvaluation
    (∃ (s : State) (r : Fin 608) (t : Nat),
      let n := r.val
      let x := s.rx n
      x.replayWait.isSome = false ∧
      s.evalDue n t = true ∧
      s.rxTxStarts n = false ∧
      ¬(s.rxSt n != 1 && s.rxSt n != 2)) ∧
    -- symbolBoundary
    (∃ (s : State) (r : Fin 608) (t : Nat),
      let n := r.val
      2 ≤ s.rxSt n ∧
      s.boundaryAt n t = true ∧
      s.rxReads n t = true ∧
      s.frameFull n = false ∧
      s.rxTxStarts n = false) ∧
    -- qualifyTimeout
    (∃ (s : State) (r : Fin 608),
      let n := r.val
      s.rxSt n = 2 ∧
      s.get F.STR_DET_QUAL_M (rxO n) + 16 ≤ (s.rx n).symbols) ∧
    -- qualifyLevelDrop
    (∃ (s : State) (r : Fin 608),
      let n := r.val
      s.rxSt n = 2 ∧
      4 ≤ (s.rx n).lowRun) ∧
    -- strSyncTimeout
    (∃ (s : State) (r : Fin 608),
      let n := r.val
      s.rxSt n = 3 ∧
      s.get F.STR_SYNC_CFG_WINDOW (rxO n) ≤ (s.rx n).symbols) ∧
    -- levelLost
    (∃ (s : State) (r : Fin 608),
      let n := r.val
      4 ≤ s.rxSt n ∧
      8 ≤ (s.rx n).lowRun) ∧
    -- headerVerdict
    (∃ (s : State) (r : Fin 608),
      let n := r.val
      s.rxSt n = 4 ∧
      88 ≤ (s.frameSoft n 88).length ∧
      s.rxTxStarts n = false) ∧
    -- frameSymbolsDelivered
    (∃ (s : State) (r : Fin 608) (t : Nat),
      let n := r.val
      s.frameFull n = true ∧
      t = (s.rx n).pos ∧
      s.rxTxStarts n = false) ∧
    -- replayStart
    (∃ (s : State) (r : Fin 608),
      let n := r.val
      ∃ cap, (s.rx n).replayWait = some cap ∧
      s.replayDue n = true) ∧
    -- replayLive
    (∃ (s : State) (r : Fin 608),
      let n := r.val
      s.bit F.STR_STATUS_REPLAY (rxO n) = true ∧
      2 * s.rxNow n < 2 * (s.rx n).pos + s.symT n) :=
  ⟨⟨base, 9, by decide⟩,
   ⟨{ base with rxs := [(9, { RxS.init with listen := true })] }, 9, by decide, by decide⟩,
   ⟨{ ((base.put F.STR_STATUS_STATE (0x100 * 9) 1).put F.STR_TONE_SPACING_EN (0x100 * 9) 1) with rxs := [(9, { RxS.init with buf := [⟨0, 0, true, 200, 0⟩] })] }, 9, 200, by decide, by decide, by decide, by decide⟩,
   ⟨{ ((base.put F.STR_STATUS_STATE (0x100 * 9) 2).put F.STR_TONE_SPACING_EN (0x100 * 9) 1) with rxs := [(9, { RxS.init with buf := [⟨0, 0, true, 200, 0⟩] })] }, 9, 200, by decide, by decide, by decide, by decide, by decide⟩,
   ⟨{ (base.put F.STR_STATUS_STATE (0x100 * 9) 2) with rxs := [(9, { RxS.init with symbols := 99 })] }, 9, by decide, by decide⟩,
   ⟨{ (base.put F.STR_STATUS_STATE (0x100 * 9) 2) with rxs := [(9, { RxS.init with lowRun := 4 })] }, 9, by decide, by decide⟩,
   ⟨{ (base.put F.STR_STATUS_STATE (0x100 * 9) 3) with rxs := [(9, { RxS.init with symbols := 65535 })] }, 9, by decide, by decide⟩,
   ⟨{ (base.put F.STR_STATUS_STATE (0x100 * 9) 4) with rxs := [(9, { RxS.init with lowRun := 8 })] }, 9, by decide, by decide⟩,
   ⟨{ (base.put F.STR_STATUS_STATE (0x100 * 9) 4) with rxs := [(9, { RxS.init with soft := List.replicate 88 (1, 3) })] }, 9, by decide, by decide, by decide⟩,
   ⟨{ (base.put F.STR_STATUS_STATE (0x100 * 9) 5) with rxs := [(9, { RxS.init with soft := List.replicate 200 (0, 0) })] }, 9, 0, by decide, by decide, by decide⟩,
   ⟨{ base with rxs := [(9, { RxS.init with replayWait := some true })], replayQ := [9] }, 9, _, rfl, by decide⟩,
   ⟨(base.put F.STR_STATUS_REPLAY (0x100 * 9) 1), 9, by decide, by decide⟩⟩

theorem witness_FrameAndMainsCommandsComplete :
    -- deinterleaveDone
    (∃ (s : State) (r : Fin 608),
      ∃ b0, s.delivered.find? (fun b => b.rx == r.val) = some b0) ∧
    -- viterbiDecodeStart
    (∃ (s : State) (u : Fin 2),
      ¬((tget (fun _ => none) s.viterbi u.val).isSome) ∧
      s.vitMarked u.val = false) ∧
    -- viterbiDecodeDone
    (∃ (s : State) (u : Fin 2),
      ∃ b, tget (fun _ => none) s.viterbi u.val = some b) ∧
    -- ccmVerifyDone
    (∃ (s : State) (mismatch : Bool),
      s.workUp 1 = true ∧
      ∃ w, s.macNext = some w) ∧
    -- mainsCoastTimeout
    (∃ (s : State) (a : Fin 2),
      let o := setO a.val
      let p := s.get F.MNS_PERIOD_TICKS o
      ∃ z, (s.mset a.val).prevZ = some z ∧
      s.get F.MNS_SET_STAT_STATE o = 1 ∧
      2 * z + 3 * p ≤ 2 * s.tick) ∧
    -- phaseAbsent
    (∃ (s : State) (a : Fin 2) (ph : Fin 3),
      let o := setO a.val
      let p0 := s.get F.MNS_PERIOD_TICKS o
      let p := if p0 = 0 then 853333 else p0
      ∃ t, (s.mset a.val).lastX.getD ph.val none = some t ∧
      s.bitAt F.MNS_SET_STAT o (2 + ph.val) = true ∧
      t + 3 * p ≤ s.tick) ∧
    -- predictedCycleStart
    (∃ (s : State) (a : Fin 2),
      let o := setO a.val
      let p := s.get F.MNS_PERIOD_TICKS o
      ∃ z, (s.mset a.val).prevZ = some z ∧
      let t := nextPredicted z p (s.mset a.val).cycleZ
      s.get F.MNS_SET_STAT_STATE o = 2 ∧
      0 < p ∧
      t ≤ s.tick) ∧
    -- mapWindow
    (∃ (s : State) (p : Fin 144) (a : AdcRun),
      let n := p.val
      let st := s.portSt n
      a.words.length = 64 ∧
      (st == 1 || st == 2 || st == 4) = true) ∧
    -- mnsCommitApply
    (∃ (s : State) (c : Fin 9) (g : Fin 16),
      let n := 16 * c.val + g.val
      let a := F.MNS_COMB_GRP.addr + mnO n
      s.instPending 5 n = true ∧
      let mem := wordMembers c.val (s.live a) ++ wordMembers c.val (s.after (s.pendingCells 5) a)
      mem.any s.frozen = false) :=
  ⟨⟨{ base with delivered := [aBody 9] }, 9, _, rfl⟩,
   ⟨{ base with bodies := [aBody 9] }, 1, by decide, by decide⟩,
   ⟨{ base with viterbi := [(1, some (aBody 9))] }, 1, _, rfl⟩,
   ⟨{ (base.put F.CIP_STATUS_ENTROPY_OK 0 1) with macWait := [⟨aBody 9, List.replicate 30 0, true, 5, 0⟩] }, false, by decide, _, rfl⟩,
   ⟨{ ((base.put F.MNS_SET_STAT_STATE 0x40 1).put F.MNS_PERIOD_TICKS 0x40 768000) with sets := [(1, { SetS.init with prevZ := some 600 })] }, 1, _, rfl, by decide, by decide⟩,
   ⟨{ ((base.put F.MNS_SET_STAT 0x40 16).put F.MNS_PERIOD_TICKS 0x40 768000) with sets := [(1, { SetS.init with lastX := [none, none, some 600] })] }, 1, 2, _, rfl, by decide, by decide⟩,
   ⟨{ ((base.put F.MNS_SET_STAT_STATE 0x40 2).put F.MNS_PERIOD_TICKS 0x40 768000) with sets := [(1, { SetS.init with prevZ := some 600 })] }, 1, _, rfl, by decide, by decide, by decide⟩,
   ⟨(base.put F.LP_STATUS_STATE (0x100 * 9) 1), 9, ⟨List.replicate 64 0, 4096⟩, by decide, by decide⟩,
   ⟨{ base with commits := [⟨5, [16 * 8 + 15], [], false⟩] }, 8, 15, by decide, by decide⟩⟩

theorem witness_PlannerRoundCommandsComplete :
    -- roundDelayed
    (∃ (s : State) (cord : Fin 9),
      let waits := fun (ports : List Nat) (t : Nat) => (ports.flatMap s.withTriple).any (fun p => s.instPending 4 (4 * p + t))
      let late := fun (r : Round) =>
        r.cord == cord.val && decide (r.t0 ≤ s.tick + 3840)
          && (s.exchs.any (fun e => e.round == r.num && e.step == 0 && waits e.ports e.slot)
            || s.sweeps.any (fun w => w.round == r.num && decide (s.tick < w.e) && waits w.ports w.slot))
      ∃ r, s.rounds.find? late = some r) ∧
    -- laterFramesSend
    (∃ (s : State) (cord : Fin 9),
      let ready := fun (r : Round) =>
        let xs := s.exchs.filter (fun e => e.round == r.num)
        r.cord == cord.val && !xs.isEmpty && xs.all (fun e => e.step == 6 || e.step == 7)
      ∃ r, s.rounds.find? ready = some r ∧
      let xs := s.exchs.filter (fun e => e.round == r.num)
      let len := fun (e : Exch) => s.frameTicks ((e.strands).headD 0) e.txMode (s.laterFrame e).length
      let longest := xs.foldl (fun (n : Nat) e => max n (len e)) 0
      let t0 := s.tick + msTicks 2
      let en := t0 + longest
      let guard := usTicks (100 * s.get F.PLN_TIMING_TA_GUARD)
      let next := fun (e : Exch) =>
        let turn := s.ctxNum e.session 0x04C 4
        let q := (e.strands).headD 0
        let d := e.mode.ticks true (s.preBits q) + e.mode.ticks true (s.syncLen q)
        if e.step = 6 then
          { e with step := 3, tx := s.laterFrame e, blockRounds := e.blockRounds + 1, openAt := en + turn - guard,
                   closeAt := en + turn + d + guard }
        else { e with step := 5, tx := s.laterFrame e }
      let clear := xs.all (fun e =>
        let x := next e
        x.step != 3 || x.strands.all (fun q => s.winClear r.ports q x.openAt x.closeAt))
      clear = true) ∧
    -- readDue
    (∃ (s : State) (sess : BitVec 16),
      let k := sess.toNat
      let due := s.ctxNum k 0x054 8
      s.lineActive k = true ∧
      s.reach k ≠ 2 ∧
      due ≤ s.tick ∧
      s.readOn k = false) ∧
    -- readOverdue
    (∃ (s : State) (sess : BitVec 16),
      let k := sess.toNat
      let h := s.servant k
      let late := fun (q : PReq) => q.session == k && (q.cls == 2 || q.cls == 3) && !q.missed
        && decide (q.due + s.intervalOf k ≤ s.tick)
      s.planQ.any late = true) ∧
    -- unreachablePollDue
    (∃ (s : State) (sess : BitVec 16),
      let k := sess.toNat
      let last := tget (fun _ => 0) s.unrPoll k / 16
      s.lineActive k = true ∧
      s.reach k = 2 ∧
      s.readOn k = false ∧
      (last == 0 || decide (last + sTicks (s.get F.PLN_DISC_PERIOD) ≤ s.tick)) = true) ∧
    -- discoverySweepDue
    (∃ (s : State) (cord : Fin 9) (slot : Fin 4) (mask : BitVec 16),
      let c := cord.val
      let t := slot.val
      let ports := ((List.range 16).filter (fun j => mask.getLsbD j)).map (16 * c + ·)
      let all := (ports.flatMap s.withTriple).eraseDups
      let modes := all.map (fun p => (4 * p + t, s.joinMode, s.joinMode))
      let before := s.planQ.any (fun q => decide (q.cls < 4) && s.planCan c q
        && (let x := s.memberOf q; x.slot == t && (s.roundPorts x).any all.contains))
      s.cordPlans c = true ∧
      ports.isEmpty = false ∧
      ports.all (fun p => s.sweepCan c p t) = true ∧
      before = false ∧
      s.modesWait modes = false ∧
      let m := s.joinMode
      let r0 := 4 * ports.headD 0 + t
      let guard := usTicks (100 * s.get F.PLN_TIMING_TA_GUARD)
      let gap := usTicks (100 * s.get F.PLN_TIMING_GAP)
      let free := all.foldl (fun (n : Nat) p => max n (tget (fun _ => 0) s.roundEnd p + gap)) 0
      let t0 := max (s.tick + msTicks 2) free
      let e := t0 + s.frameTicks r0 m 20
      let join := s.frameTicks r0 m 28 + 2 * guard
      let slotLen := (join + msTicks 1 - 1) / msTicks 1 * msTicks 1
      let n0 := tget (fun _ => 0) s.sweepSize (sweepKey t ports)
      let n := if n0 = 0 then s.get F.PLN_DISC_SLOTS_MIN else n0
      let num := (s.sweepNum + 1) % 65536
      let rn := s.roundNum + 1
      let w : Sweep := ⟨c, t, ports, num, n, [], [], [], e, slotLen, e + msTicks 10 + n * slotLen, rn⟩
      ports.all (fun p => s.winClear all (4 * p + t) (e + msTicks 10 : Nat) w.ends) = true) ∧
    -- phasePollDue
    (∃ (s : State) (sess : BitVec 16),
      let k := sess.toNat
      let iv := s.get F.PLN_PHASE_INTERVAL
      let last := tget (fun _ => 0) s.phaseAt k
      s.lineActive k = true ∧
      s.reach k ≠ 2 ∧
      iv ≠ 0 ∧
      s.ctxNum k 0x080 1 / 16 % 4 < 3 ∧
      last + sTicks (3600 * iv) ≤ s.tick ∧
      s.planQ.any (fun q => q.session == k && q.cls == 5) = false) ∧
    -- sweepEnd
    (∃ (s : State) (cord : Fin 9),
      ∃ w, s.sweeps.find? (fun w => w.cord == cord.val && decide (w.ends ≤ s.tick)) = some w ∧
      s.roleWaits assocHolder = false) ∧
    -- assignTriesExhausted
    (∃ (s : State) (sess : BitVec 16),
      let k := sess.toNat
      ∃ a, s.assocs.find? (fun a => a.session == k) = some a ∧
      let busy := s.exchs.any (fun e => e.session == k) || s.planQ.any (fun q => q.session == k && q.request == 7)
      busy = false ∧
      s.get F.PLN_ASSOC_ASSIGN_TRIES ≤ a.tries) :=
  ⟨⟨{ base with rounds := [⟨1, 3, [48], 1000000, 1000000, 900000⟩], exchs := [{ anExch 5 with cord := 3, ports := [48], round := 1, step := 0 }], commits := [⟨4, [192], [], false⟩] }, 3, _, rfl⟩,
   ⟨{ base with rounds := [⟨1, 3, [48], 1000000, 1000000, 900000⟩], exchs := [{ anExch 5 with cord := 3, ports := [48], round := 1, step := 6 }] }, 3, _, rfl, by decide⟩,
   ⟨{ base with slots := [(5, ⟨2, false, false, none⟩)] }, 5, by decide, by decide, by decide, by decide⟩,
   ⟨{ base with slots := [(5, ⟨2, false, false, none⟩)], planQ := [⟨5, 2, 0, 0, 0, false, false⟩] }, 5, by decide⟩,
   ⟨{ base with slots := [(5, ⟨2, false, false, none⟩)], home := [(2048 * 5 + 0x41, 0x80#8)] }, 5, by decide, by decide, by decide, by decide⟩,
   ⟨{ (((((base.put F.GLB_STATUS_STARTED 0 1).put F.PLN_CTRL_CLASS_EN 0 31).put F.LP_STATUS_STATE 0 1).put F.STR_TONE_SPACING_EN 0 1).put F.PLN_DISC2_CAP 0 50) with own := true }, 0, 0, 1#16, by decide, by decide, by decide, by decide, by decide, by decide⟩,
   ⟨{ (base.put F.PLN_PHASE_INTERVAL 0 1) with slots := [(5, ⟨2, false, false, none⟩)] }, 5, by decide, by decide, by decide, by decide, by decide, by decide⟩,
   ⟨{ base with sweeps := [⟨3, 0, [48], 1, 4, [], [], [], 500, 10, 600, 1⟩] }, 3, _, rfl, by decide⟩,
   ⟨{ base with assocs := [⟨5, 1, 200, false, 77, 1, 20, [(9, 40)], 0, 1, ⟨0, 0, 0⟩⟩] }, 5, _, rfl, by decide, by decide⟩⟩

theorem witness_PlannerPinAndCommitCommandsComplete :
    -- plnLimitsApply
    (∃ (s : State),
      let radio := (List.range 32).any (fun n => s.frozen (576 + n) || (s.rx (576 + n)).txOn)
      s.instPending 6 9 = true ∧
      s.rounds.isEmpty = true ∧
      radio = false) :=
  ⟨{ base with commits := [⟨6, [9], [], false⟩] }, by decide, by decide, by decide⟩

theorem witness_SessionCommandAndLeaseCommandsComplete :
    -- leaseRequest
    (∃ (s : State) (sess : BitVec 16) (holder : Fin 25),
      let k := sess.toNat
      s.hasCtx k = true ∧
      holder.val ≠ 4 ∧
      holder.val ≠ 5) ∧
    -- leaseRelease
    (∃ (s : State) (sess : BitVec 16) (id : BitVec 16) (holder : Fin 25),
      s.leaseIs sess.toNat id.toNat holder.val = true) ∧
    -- leaseRenew
    (∃ (s : State) (sess : BitVec 16) (id : BitVec 16) (holder : Fin 25),
      s.leaseIs sess.toNat id.toNat holder.val = true) ∧
    -- leaseExpiry
    (∃ (s : State) (sess : BitVec 16),
      let k := sess.toNat
      ∃ l, s.leaseOf k = some l ∧
      let queued := s.jq.any (fun u => u.session == k && u.lease == some l.id)
      l.expires ≤ s.tick ∧
      queued = false ∧
      s.releaseWaits k = false) ∧
    -- leaseWaitTimeout
    (∃ (s : State) (sess : BitVec 16) (holder : Fin 25),
      let k := sess.toNat
      ∃ q, s.leaseQ.find? (fun q => q.session == k && q.holder == holder.val) = some q ∧
      q.since + msTicks (s.get F.SES_LEASE_CFG_WAIT_MAX) ≤ s.tick) :=
  ⟨⟨{ base with slots := [(5, ⟨2, false, false, none⟩)] }, 5, 1, by decide, by decide, by decide⟩,
   ⟨{ base with leases := [⟨5, 7, 1, 900⟩] }, 5, 7, 1, by decide⟩,
   ⟨{ base with leases := [⟨5, 7, 1, 900⟩] }, 5, 7, 1, by decide⟩,
   ⟨{ base with leases := [⟨5, 7, 1, 900⟩] }, 5, _, rfl, by decide, by decide, by decide⟩,
   ⟨{ base with leaseQ := [⟨5, 1, 600⟩] }, 5, 1, _, rfl, by decide⟩⟩

theorem witness_ContextJournalAndSpoolCommandsComplete :
    -- contextPrefetch
    (∃ (s : State) (sess : BitVec 16),
      s.hasCtx sess.toNat = true) ∧
    -- contextFillDone
    (∃ (s : State) (sess : BitVec 16) (poison : Bool),
      let k := sess.toNat
      s.fillCan k = true ∧
      s.cxlHeld 1 = false) ∧
    -- contextRebuildDone
    (∃ (s : State) (sess : BitVec 16) (homePoison : Bool) (jrnPoison : Bool),
      let k := sess.toNat
      let flight := match s.jq with | u :: _ => u.session == k && !u.waits | [] => false
      s.rebuilds.contains k = true ∧
      flight = false) ∧
    -- journalWriteDone
    (∃ (s : State),
      ∃ u rest, s.jq = u :: rest ∧
      u.waits = false ∧
      s.cxlUp = true ∧
      s.journals = true) ∧
    -- journalUpdateResume
    (∃ (s : State),
      ∃ u rest, s.jq = u :: rest ∧
      u.waits = true ∧
      s.jrnRoom u.bytes.length = true) ∧
    -- writeBackDone
    (∃ (s : State) (sess : BitVec 16),
      let k := sess.toNat
      s.backCan k = true ∧
      s.cxlHeld 2 = false) ∧
    -- storeHeaderWrite
    (∃ (s : State),
      ∃ h, s.store = some h ∧
      let t := s.jrnTail
      s.journals = true ∧
      s.cxlUp = true ∧
      s.hdrTail ≠ t ∧
      s.hdrAt + sTicks 1 ≤ s.tick) ∧
    -- spoolWrite
    (∃ (s : State),
      s.outq.isEmpty = false ∧
      (s.queueSpools || (s.cxlUp && !s.cxlHeld 3)) = true) ∧
    -- recordSend
    (∃ (s : State) (poison : Bool),
      s.bit F.HAL_STATUS_NEGOTIATED = true ∧
      s.halCan = true ∧
      s.get F.SES_CREDIT_BALANCE ≠ 0) ∧
    -- creditStall
    (∃ (s : State),
      ∃ t, s.creditZero = some t ∧
      t + sTicks (s.get F.SES_DRAIN_CFG_STALL) ≤ s.tick ∧
      s.stallRaised = false) :=
  ⟨⟨{ base with slots := [(5, ⟨1, false, false, none⟩)] }, 5, by decide⟩,
   ⟨{ (base.put F.CXL_LINK_STAT_STATE 0 2) with storeOpen := true, fills := [5], cache := [⟨5, false, 0, false⟩] }, 5, false, by decide, by decide⟩,
   ⟨{ base with rebuilds := [5] }, 5, false, false, by decide, by decide⟩,
   ⟨{ (base.put F.CXL_LINK_STAT_STATE 0 2) with storeOpen := true, jq := [⟨5, 0, 1, none, 0x40, [1], [], false⟩] }, _, _, rfl, by decide, by decide, by decide⟩,
   ⟨{ base with jq := [⟨5, 0, 1, none, 0x40, [1], [], true⟩] }, _, _, rfl, by decide, by decide⟩,
   ⟨{ (base.put F.CXL_LINK_STAT_STATE 0 2) with storeOpen := true, wbq := [5], cache := [⟨5, true, 0, true⟩] }, 5, by decide, by decide⟩,
   ⟨{ (base.put F.CXL_LINK_STAT_STATE 0 2) with storeOpen := true, store := some ⟨1, 1, 1, 0⟩, jrnSeq := 3 }, _, rfl, by decide, by decide, by decide, by decide⟩,
   ⟨{ base with outq := [⟨0, 2, 0, 5, [], [], 0, 0, 0⟩] }, by decide, by decide⟩,
   ⟨{ ((((base.put F.HAL_STATUS_NEGOTIATED 0 1).put F.HAL_STATUS_SENDING 0 0).put F.HAL_STATUS_LINK 0 1).put F.SES_CREDIT_BALANCE 0 5) with spool := [⟨⟨0, 2, 0, 5, [], [], 0, 0, 0⟩, none, 0⟩] }, false, by decide, by decide, by decide⟩,
   ⟨{ base with creditZero := some 6 }, _, rfl, by decide, by decide⟩⟩

theorem witness_CxlAndRadioLinkCommandsComplete :
    -- cxlLinkDown
    (∃ (s : State),
      s.cxlUp = true) ∧
    -- cxlRequestTimeout
    (∃ (s : State),
      s.cxlUp = true) ∧
    -- cxlLinkUp
    (∃ (s : State) (lanes : Fin 5) (speed : Fin 3) (mib : Nat) (kept : Bool),
      let step := s.get F.PWR_START_STAT_STEP
      s.up.run = 2 ∧
      s.up.perst = true ∧
      s.cxlUp = false ∧
      4 ≤ step ∧
      step ≠ 7 ∧
      lanes.val ≠ 0 ∧
      lanes.val ≠ 3) ∧
    -- cxlCacheOnly
    (∃ (s : State),
      s.cacheOnly = false ∧
      s.cacheOnlyDue = true) ∧
    -- cxlRetrainTimer
    (∃ (s : State),
      s.cacheOnly = true ∧
      s.bit F.SES_CTRL_AUTO_RETURN = true ∧
      s.retrainAt + sTicks 10 ≤ s.tick) ∧
    -- cxlMediaPoll
    (∃ (s : State) (ce : Nat),
      s.cxlUp = true) ∧
    -- rhLinkUp
    (∃ (s : State) (head : Fin 4),
      let h := head.val
      s.bit F.RFS_HEAD_CFG_ENABLE (rhO h) = true ∧
      s.get F.RFS_HEAD_STAT_LINK (rhO h) = 1) ∧
    -- rhLinkDown
    (∃ (s : State) (head : Fin 4),
      let h := head.val
      s.get F.RFS_HEAD_STAT_LINK (rhO h) = 2) ∧
    -- rhLinkInitRetry
    (∃ (s : State) (head : Fin 4),
      let h := head.val
      let due := tget (fun _ => 0) s.mac.linkRetry h + msTicks 100
      s.bit F.RFS_HEAD_CFG_ENABLE (rhO h) = true ∧
      s.get F.RFS_HEAD_STAT_LINK (rhO h) ≠ 2 ∧
      due ≤ s.tick) :=
  ⟨⟨(base.put F.CXL_LINK_STAT_STATE 0 2), by decide⟩,
   ⟨(base.put F.CXL_LINK_STAT_STATE 0 2), by decide⟩,
   ⟨{ (base.put F.PWR_START_STAT_STEP 0 4) with up := { base.up with perst := true } }, 4, 2, 512, true, by decide, by decide, by decide, by decide, by decide, by decide, by decide⟩,
   ⟨{ base with cxlDown := some 6 }, by decide, by decide⟩,
   ⟨((base.put F.SES_STATUS_MODE 0 1).put F.SES_CTRL_AUTO_RETURN 0 1), by decide, by decide, by decide⟩,
   ⟨(base.put F.CXL_LINK_STAT_STATE 0 2), 3, by decide⟩,
   ⟨((base.put F.RFS_HEAD_CFG_ENABLE (0x100 * 3) 1).put F.RFS_HEAD_STAT_LINK (0x100 * 3) 1), 3, by decide, by decide⟩,
   ⟨(base.put F.RFS_HEAD_STAT_LINK (0x100 * 3) 2), 3, by decide⟩,
   ⟨((base.put F.RFS_HEAD_CFG_ENABLE (0x100 * 3) 1).put F.RFS_HEAD_STAT_LINK (0x100 * 3) 1), 3, by decide, by decide, by decide⟩⟩

theorem witness_SuperframeCommandsComplete :
    -- superframeStart
    (∃ (s : State),
      ∃ b, s.mac.next = some b ∧
      let ends := match s.mac.slot with
        | some (63, _) => s.mac.phase == 3
        | some _ => false
        | none => s.mac.fresh
      s.own = true ∧
      s.macCan = true ∧
      b ≤ s.tick ∧
      ends = true) ∧
    -- pairLease
    (∃ (s : State),
      ∃ j st, s.mac.slot = some (j, st) ∧
      let start := st + s.slotLen
      let n := j + 1
      n < 64 ∧
      s.mac.leasedFor ≠ some n ∧
      start ≤ s.tick + msTicks 2 ∧
      s.tick < start ∧
      s.noDecoder = false) ∧
    -- slotStart
    (∃ (s : State),
      ∃ j st0, s.mac.slot = some (j, st0) ∧
      let st := st0 + s.slotLen
      let n := j + 1
      n < 64 ∧
      s.mac.phase = 3 ∧
      st ≤ s.tick) ∧
    -- phase2Prep
    (∃ (s : State),
      ∃ j st, s.mac.slot = some (j, st) ∧
      j ≠ 0 ∧
      s.mac.phase = 0 ∧
      st + s.p2Ticks ≤ s.tick + halfMs) ∧
    -- responderSend
    (∃ (s : State),
      ∃ j st, s.mac.slot = some (j, st) ∧
      j ≠ 0 ∧
      s.mac.phase = 1 ∧
      st + s.p2Ticks ≤ s.tick) ∧
    -- slotTail
    (∃ (s : State) (slot : Nat),
      ∃ j st, s.mac.slot = some (j, st) ∧
      let ready := (j == 0 && s.mac.phase == 0) || s.mac.phase == 2
      ready = true ∧
      slot = j ∧
      st + s.slotLen ≤ s.tick + halfMs) ∧
    -- rhScriptLate
    (∃ (s : State) (head : Fin 4) (rx : Bool),
      s.bit F.RFS_HEAD_CFG_ENABLE (rhO head.val) = true) ∧
    -- pairRelease
    (∃ (s : State) (sess : BitVec 16),
      let k := sess.toNat
      ∃ u1 sf, s.mac.holds.find? (fun x => x.1 == k) = some (u1, sf) ∧
      let l := s.leaseTry k 3
      sf + 9 ≤ s.mac.sfs ∧
      l.2 = true) ∧
    -- radioAssignExpire
    (∃ (s : State) (sess : BitVec 16),
      let k := sess.toNat
      ∃ a, s.rassoc k = some a ∧
      let n := s.get F.PLN_ASSOC_ASSIGN_TRIES
      let past := if a.mesh then decide (n ≤ a.sent) && decide (a.lastSf + s.get F.MSH_TIMING_RESEND_SF ≤ s.mac.sfs)
        else decide (n ≤ a.active)
      let l := s.leaseTry k 3
      a.ho.isSome = false ∧
      past = true ∧
      l.2 = true) ∧
    -- radioCmdFailed
    (∃ (s : State) (sess : BitVec 16),
      let k := sess.toNat
      let l := s.leaseTry k 3
      s.mac.cmdOut.contains k = true ∧
      s.get F.MAC_ASSOC_CMD_TRIES ≤ s.ctxNum k 0x0D6 2 ∧
      l.2 = true) ∧
    -- parentLost
    (∃ (s : State),
      s.get F.MAC_STATUS_MODE = 2 ∧
      3 ≤ s.get F.MAC_STATUS_PARENT_MISS) ∧
    -- coordIndependent
    (∃ (s : State),
      s.get F.MAC_STATUS_MODE = 3 ∧
      s.mac.lostSf + 64 ≤ s.mac.sfs) :=
  ⟨⟨{ ((base.put F.MAC_CTRL_RUN 0 1).put F.GLB_STATUS_STARTED 0 1) with own := true, mac := { MacS.init with next := some 600, fresh := true } }, _, rfl, by decide, by decide, by decide, by decide⟩,
   ⟨{ (base.put F.MAC_SF_CFG_SLOT_MS 0 100) with tick := 3840000, mac := { MacS.init with slot := some (62, 1) } }, _, _, rfl, by decide, by decide, by decide, by decide, by decide⟩,
   ⟨{ (base.put F.MAC_SF_CFG_SLOT_MS 0 100) with mac := { MacS.init with slot := some (62, 1), phase := 3 } }, _, _, rfl, by decide, by decide, by decide⟩,
   ⟨{ ((base.put F.MAC_SF_CFG_SLOT_MS 0 100).put F.MAC_SF_CFG_P2_MS 0 40) with mac := { MacS.init with slot := some (63, 1), phase := 0 } }, _, _, rfl, by decide, by decide, by decide⟩,
   ⟨{ ((base.put F.MAC_SF_CFG_SLOT_MS 0 100).put F.MAC_SF_CFG_P2_MS 0 40) with mac := { MacS.init with slot := some (63, 1), phase := 1 } }, _, _, rfl, by decide, by decide, by decide⟩,
   ⟨{ (base.put F.MAC_SF_CFG_SLOT_MS 0 100) with mac := { MacS.init with slot := some (0, 1), phase := 0 } }, 0, _, _, rfl, by decide, by decide, by decide⟩,
   ⟨(base.put F.RFS_HEAD_CFG_ENABLE (0x100 * 3) 1), 3, true, by decide⟩,
   ⟨{ base with mac := { MacS.init with holds := [(5, 1)], sfs := 20 }, leases := [⟨5, 7, 3, 900⟩] }, 5, _, _, rfl, by decide, by decide⟩,
   ⟨{ base with mac := { MacS.init with assocs := [⟨5, 77, 1, 200, 200, false, false, false, [], 0, 0, none, 0⟩] }, leases := [⟨5, 7, 3, 900⟩] }, 5, _, rfl, by decide, by decide, by decide⟩,
   ⟨{ (base.put F.MAC_ASSOC_CMD_TRIES 0 0) with mac := { MacS.init with cmdOut := [5] }, leases := [⟨5, 7, 3, 900⟩] }, 5, by decide, by decide, by decide⟩,
   ⟨((base.put F.MAC_STATUS_MODE 0 2).put F.MAC_STATUS_PARENT_MISS 0 3), by decide, by decide⟩,
   ⟨{ (base.put F.MAC_STATUS_MODE 0 3) with mac := { MacS.init with sfs := 64 } }, by decide, by decide⟩⟩

theorem witness_MacAndMeshCommandsComplete :
    -- macCtrlSubord
    (∃ (s : State) (i : Iface) (w : Word),
      F.MAC_CTRL_SUBORD.on w = true) ∧
    -- mshRouteClearOne
    (∃ (s : State) (i : Iface) (w : Word),
      F.MSH_ROUTE_CMD_CLEAR_ONE.on w = true) ∧
    -- mshRouteClearAll
    (∃ (s : State) (i : Iface) (w : Word),
      F.MSH_ROUTE_CMD_CLEAR_ALL.on w = true) :=
  ⟨⟨base, .mgt, 2#32, by decide⟩,
   ⟨base, .mgt, word F.MSH_ROUTE_CMD_CLEAR_ONE, by decide⟩,
   ⟨base, .mgt, word F.MSH_ROUTE_CMD_CLEAR_ALL, by decide⟩⟩

theorem witness_CipherCommandsComplete :
    -- anchorProgramDone
    (∃ (s : State) (good : Bool),
      ∃ ka, s.cip.blowing = some ka) ∧
    -- keyDerivationDone
    (∃ (s : State),
      ∃ t rest, s.keyq = t :: rest ∧
      ((s.cipherUp && !s.keysHeld) || s.cip.flight == 2) = true) ∧
    -- drbgReseed
    (∃ (s : State),
      s.cip.entropy = 1 ∧
      (s.cip.drbgAt + msTicks 1 ≤ s.tick ∨ 65536 ≤ s.cip.drbgUsed)) ∧
    -- entropyFail
    (∃ (s : State),
      s.cip.entropy = 1) ∧
    -- entropyRetest
    (∃ (s : State) (pass : Bool),
      s.cip.entropy = 2) ∧
    -- vaultWriteDone
    (∃ (s : State) (good : Bool),
      ∃ w rest, s.vaultq = w :: rest) ∧
    -- rawJobDone
    (∃ (s : State) (mismatch : Bool),
      ∃ j rest, s.cip.raw = j :: rest ∧
      ((s.engineUp && !s.rawHeld) || s.cip.flight == 3) = true) ∧
    -- entropyStartupTest
    (∃ (s : State) (pass : Bool),
      s.cip.entropy = 0 ∧
      s.up.run = 2) :=
  ⟨⟨{ base with cip := { CipS.init with blowing := some (List.replicate 32 1) } }, true, _, rfl⟩,
   ⟨{ ((base.put F.CIP_STATUS_ANCHOR 0 1).put F.CIP_STATUS_ENTROPY_OK 0 1) with keyq := [⟨5, 0, 0, 0, 0⟩] }, _, _, rfl, by decide⟩,
   ⟨{ base with cip := { CipS.init with entropy := 1 } }, by decide, by decide⟩,
   ⟨{ base with cip := { CipS.init with entropy := 1 } }, by decide⟩,
   ⟨{ base with cip := { CipS.init with entropy := 2 } }, true, by decide⟩,
   ⟨{ base with vaultq := [⟨0, [1, 2, 3, 4], .plain, false⟩] }, true, _, _, rfl⟩,
   ⟨{ (base.put F.CIP_STATUS_ENTROPY_OK 0 1) with cip := { CipS.init with raw := [⟨none, 0, 16, 0, [], [], ⟨[], []⟩, [], 0⟩] } }, false, _, _, rfl, by decide⟩,
   ⟨base, true, by decide, by decide⟩⟩

theorem witness_CheckUnitAndSecuredLinkCommandsComplete :
    -- chkArm
    (∃ (s : State) (i : Iface) (u : Fin 16) (w : Word),
      F.CHK_CMD_ARM.on w = true) ∧
    -- chkStop
    (∃ (s : State) (i : Iface) (u : Fin 16) (w : Word),
      F.CHK_CMD_STOP.on w = true) ∧
    -- chkClrExpect
    (∃ (s : State) (i : Iface) (u : Fin 16) (w : Word),
      F.CHK_CMD_CLR_EXPECT.on w = true) ∧
    -- chkWindowStart
    (∃ (s : State) (u : Fin 16),
      let o := chkO u.val
      let stream := s.get F.CHK_CFG_STREAM o
      s.get F.CHK_STATUS_STATE o = 1 ∧
      stream ≠ 0 ∧
      s.instPending 10 u.val = false ∧
      (readsItself stream || fromOutside stream || !(s.chkTaken u.val).isEmpty) = true) ∧
    -- chkWindowEnd
    (∃ (s : State) (u : Fin 16) (data : List Byte) (tooFast : Bool) (poison : Bool),
      let o := chkO u.val
      let stream := s.get F.CHK_CFG_STREAM o
      s.get F.CHK_STATUS_STATE o = 2) ∧
    -- linkHello
    (∃ (s : State) (l : Fin 3) (insertion : Bool) (h : HelloS),
      let n := l.val
      let st := s.linkSt n
      s.linkEnabled n = true) ∧
    -- linkConfirm
    (∃ (s : State) (l : Fin 3),
      let n := l.val
      let st := s.linkSt n
      s.engineUp = true) ∧
    -- linkBringupTimeout
    (∃ (s : State) (l : Fin 3),
      let n := l.val
      let st := s.linkSt n
      ¬(st ≠ 1 ∧ st ≠ 3) ∧
      (s.link n).firstAt + msTicks 50 ≤ s.tick) ∧
    -- linkSilenceTimeout
    (∃ (s : State) (l : Fin 3),
      let n := l.val
      let x := s.link n
      let st := s.linkSt n
      let limit := if n = 0 then msTicks 4 else msTicks 1
      x.noDownTo ≤ s.tick) ∧
    -- linkFrameRejected
    (∃ (s : State) (l : Fin 3) (tagFail : Bool),
      let n := l.val
      tagFail = true) :=
  ⟨⟨base, .mgt, 5, word F.CHK_CMD_ARM, by decide⟩,
   ⟨base, .mgt, 5, word F.CHK_CMD_STOP, by decide⟩,
   ⟨base, .mgt, 5, word F.CHK_CMD_CLR_EXPECT, by decide⟩,
   ⟨{ ((base.put F.CHK_STATUS_STATE (0x40 * 5) 1).put F.CHK_CFG_STREAM (0x40 * 5) 3) with chkSeen := [(5, [[1]])] }, 5, by decide, by decide, by decide, by decide⟩,
   ⟨{ (((base.put F.CHK_STATUS_STATE (0x40 * 5) 2).put F.CHK_CFG_STREAM (0x40 * 5) 3).put F.CHK_WINDOW_WINDOW (0x40 * 5) 1) with chkSeen := [(5, [[1]])] }, 5, [], false, false, by decide⟩,
   ⟨((base.put F.GLB_STATUS_READY 0 1).put F.BRD_CTRL_EN 0 1), 2, false, ⟨5, 0, 1, 0, 0, 0, 0⟩, by decide⟩,
   ⟨(base.put F.CIP_STATUS_ENTROPY_OK 0 1), 0, by decide⟩,
   ⟨(base.put F.BRD_PORT_STAT_LINK 4 1), 2, by decide, by decide⟩,
   ⟨base, 2, by decide⟩,
   ⟨base, 2, true, by decide⟩⟩

theorem witness_SpliceRoleCommandsComplete :
    -- ownershipRefresh
    (∃ (s : State),
      s.imageIn = true ∧
      s.up.dead = false ∧
      s.spl.refreshAt + msTicks 1 ≤ s.tick) ∧
    -- ownWatchdogExpiry
    (∃ (s : State),
      s.up.run = 2 ∧
      s.spl.expired = false ∧
      s.spl.refreshAt + msTicks 4 ≤ s.tick) ∧
    -- spliceStartWaitEnd
    (∃ (s : State),
      ∃ t, s.spl.start = some t ∧
      s.role = 1 ∧
      s.spl.claimAt.isSome = false ∧
      t + msTicks (10 * s.get F.SPL_CFG_START_WAIT) ≤ s.tick) ∧
    -- takeoverTimeout
    (∃ (s : State),
      s.takesOver = true ∧
      s.spl.retryAt.isNone = true) ∧
    -- claimGuardEnd
    (∃ (s : State),
      ∃ t, s.spl.claimAt = some t ∧
      s.spl.split = false ∧
      t + msTicks 2 ≤ s.tick) ∧
    -- splitClaimTimeout
    (∃ (s : State),
      ∃ t, s.spl.claimAt = some t ∧
      s.spl.split = true ∧
      t + msTicks 6 ≤ s.tick) ∧
    -- claimRetryDelayEnd
    (∃ (s : State),
      ∃ t, s.spl.retryAt = some t ∧
      t ≤ s.tick) :=
  ⟨⟨(base.put F.PWR_START_STAT_STEP 0 3), by decide, by decide, by decide⟩,
   ⟨base, by decide, by decide, by decide⟩,
   ⟨{ (base.put F.SPL_STATUS_ROLE 0 1) with spl := { SplS.init with start := some 6 } }, _, rfl, by decide, by decide, by decide⟩,
   ⟨{ (((base.put F.SPL_STATUS_ROLE 0 4).put F.SPL_CTRL_TAKEOVER_EN 0 1).put F.SPL_CTRL_EN 0 1) with vault := [(0x10010C, 4#8)] }, by decide, by decide⟩,
   ⟨{ base with spl := { SplS.init with claimAt := some 6 } }, _, rfl, by decide, by decide⟩,
   ⟨{ base with spl := { SplS.init with claimAt := some 6, split := true } }, _, rfl, by decide, by decide⟩,
   ⟨{ base with spl := { SplS.init with retryAt := some 6 } }, _, rfl, by decide⟩⟩

theorem witness_SpliceMessageCommandsComplete :
    -- splHeartbeatSend
    (∃ (s : State),
      s.get F.SPL_STATUS_LINK = 2 ∧
      (s.link 0).lastTx + msTicks 1 ≤ s.tick) ∧
    -- splHeartbeat
    (∃ (s : State) (seq : BitVec 64) (role : Fin 6) (term : BitVec 32) (start : BitVec 64) (sfn : BitVec 16),
      ∃ s₁, s.linkTake 0 seq.toNat = some s₁) ∧
    -- splJrn
    (∃ (s : State) (seq : BitVec 64) (jseq : BitVec 64) (sess : BitVec 16) (kind : Fin 3) (offset : Fin 2048) (data : List Byte),
      ∃ s₁, s.linkTake 0 seq.toNat = some s₁) ∧
    -- splVault
    (∃ (s : State) (seq : BitVec 64) (sess : BitVec 16) (txc : BitVec 32) (rxm : BitVec 32) (epoch : BitVec 16) (prov : BitVec 16) (sent : Fin 4096),
      ∃ s₁, s.linkTake 0 seq.toNat = some s₁) ∧
    -- splPlan
    (∃ (s : State) (seq : BitVec 64) (members : List PlanMember) (ended : Option (BitVec 16)),
      ∃ s₁, s.linkTake 0 seq.toNat = some s₁) ∧
    -- splRoute
    (∃ (s : State) (seq : BitVec 64) (dest : BitVec 16) (next : BitVec 16) (metric : BitVec 8) (hops : Fin 16) (valid : Bool) (age : BitVec 16),
      ∃ s₁, s.linkTake 0 seq.toNat = some s₁) ∧
    -- splCtx
    (∃ (s : State) (seq : BitVec 64) (sess : BitVec 16) (image : List Byte),
      ∃ s₁, s.linkTake 0 seq.toNat = some s₁) ∧
    -- splAck
    (∃ (s : State) (seq : BitVec 64) (upTo : BitVec 64),
      ∃ s₁, s.linkTake 0 seq.toNat = some s₁) ∧
    -- splAudit
    (∃ (s : State) (seq : BitVec 64) (first : Fin 1024) (result : BitVec 32),
      ∃ s₁, s.linkTake 0 seq.toNat = some s₁) ∧
    -- splSwitch
    (∃ (s : State) (seq : BitVec 64),
      ∃ s₁, s.linkTake 0 seq.toNat = some s₁) ∧
    -- splCtxReq
    (∃ (s : State) (seq : BitVec 64) (first : BitVec 16) (last : BitVec 16),
      ∃ s₁, s.linkTake 0 seq.toNat = some s₁) ∧
    -- mirrorAuditStep
    (∃ (s : State),
      s.auditTurn = true) :=
  ⟨⟨((base.put F.CIP_STATUS_ENTROPY_OK 0 1).put F.SPL_STATUS_LINK 0 2), by decide, by decide⟩,
   ⟨((base.put F.CIP_STATUS_ENTROPY_OK 0 1).put F.SPL_STATUS_LINK 0 2), 5, 2, 1, 600, 3, _, rfl⟩,
   ⟨((base.put F.CIP_STATUS_ENTROPY_OK 0 1).put F.SPL_STATUS_LINK 0 2), 5, 9, 5, 0, 0x40, [1], _, rfl⟩,
   ⟨((base.put F.CIP_STATUS_ENTROPY_OK 0 1).put F.SPL_STATUS_LINK 0 2), 5, 5, 100, 50, 1, 1, 0, _, rfl⟩,
   ⟨((base.put F.CIP_STATUS_ENTROPY_OK 0 1).put F.SPL_STATUS_LINK 0 2), 5, [], none, _, rfl⟩,
   ⟨((base.put F.CIP_STATUS_ENTROPY_OK 0 1).put F.SPL_STATUS_LINK 0 2), 5, 9, 10, 4, 2, true, 0, _, rfl⟩,
   ⟨((base.put F.CIP_STATUS_ENTROPY_OK 0 1).put F.SPL_STATUS_LINK 0 2), 5, 5, [], _, rfl⟩,
   ⟨((base.put F.CIP_STATUS_ENTROPY_OK 0 1).put F.SPL_STATUS_LINK 0 2), 5, 3, _, rfl⟩,
   ⟨((base.put F.CIP_STATUS_ENTROPY_OK 0 1).put F.SPL_STATUS_LINK 0 2), 5, 0, 0, _, rfl⟩,
   ⟨((base.put F.CIP_STATUS_ENTROPY_OK 0 1).put F.SPL_STATUS_LINK 0 2), 5, _, rfl⟩,
   ⟨((base.put F.CIP_STATUS_ENTROPY_OK 0 1).put F.SPL_STATUS_LINK 0 2), 5, 1, 3, _, rfl⟩,
   ⟨{ ((((base.put F.SPL_STATUS_ROLE 0 2).put F.SPL_STATUS_LINK 0 2).put F.SPL_STATUS_VERSION 0 1).put F.SPL_CFG_AUDIT_STEP 0 1) with spl := { SplS.init with peerRole := 4 } }, by decide⟩⟩

theorem witness_BraidMessageCommandsComplete :
    -- brdKeepaliveSend
    (∃ (s : State) (p : Fin 2),
      let x := s.link (p.val + 1)
      s.linkSt (p.val + 1) = 2 ∧
      x.lastTx + usTicks 250 ≤ s.tick ∧
      s.brdOut.any (fun m => m.1 == p.val && m.2.kind == 0x20) = false) ∧
    -- brdKeepalive
    (∃ (s : State) (h : BHdr),
      ∃ s₁, s.brdTake h 0x20 [] = some s₁) ∧
    -- walkStart
    (∃ (s : State),
      s.brd.walkOwed.isSome = true) ∧
    -- knotWalkTimer
    (∃ (s : State),
      s.bit F.BRD_STATUS_KNOT = true ∧
      s.brd.walkAt + sTicks 10 ≤ s.tick) ∧
    -- brdWalk
    (∃ (s : State) (h : BHdr) (entries : List WalkE) (split : Option Nat),
      ∃ s₁, s.brdTake h 0x21 (walkBytes entries split) = some s₁) ∧
    -- brdTopology
    (∃ (s : State) (h : BHdr) (nodes : List NodeE) (broken : Option Nat) (knot : Nat) (master : Option Nat),
      ∃ s₁ here, s.brdIn h 0x22 (topoBytes nodes broken knot master) = some (s₁, here)) ∧
    -- delayExchangeTimer
    (∃ (s : State) (p : Fin 2),
      let n := p.val
      s.brdTakes n 0x23 = true ∧
      tget (fun _ => 0) s.brd.delayAt n + s.brdInterval ≤ s.tick) ∧
    -- brdDelayReq
    (∃ (s : State) (h : BHdr),
      ∃ s₁, s.brdTake h 0x23 (le 0 1) = some s₁) ∧
    -- brdDelayResp
    (∃ (s : State) (h : BHdr) (t2 : BitVec 64) (t3 : BitVec 64),
      let p := h.port.val
      ∃ s₁, s.brdTake h 0x23 (le 1 1 ++ le t2.toNat 8 ++ le t3.toNat 8) = some s₁) ∧
    -- timeSendTimer
    (∃ (s : State),
      s.bit F.BRD_TIME_STAT_IS_MASTER = true ∧
      s.bit F.BRD_CTRL_TIME_EN = true ∧
      s.brd.timeAt + s.brdInterval ≤ s.tick) ∧
    -- brdTime
    (∃ (s : State) (h : BHdr) (value : BitVec 64) (corr : BitVec 64) (pps : Bool),
      let p := h.port.val
      ∃ s₁, s.brdTake h 0x24 (timeBytes value.toNat corr.toInt pps) = some s₁) ∧
    -- brdMeshRelay
    (∃ (s : State) (h : BHdr) (site : BitVec 6) (rfs : Fin 32) (rssi : BitVec 16) (snr : BitVec 16) (time : BitVec 64) (mpdu : List Byte),
      let body := le site.toNat 1 ++ le rfs.val 1 ++ le rssi.toNat 2 ++ le snr.toNat 2 ++ le time.toNat 8 ++ le mpdu.length 2 ++ mpdu
      ∃ s₁ here, s.brdIn h 0x26 body = some (s₁, here)) ∧
    -- brdBroadcast
    (∃ (s : State) (h : BHdr) (record : List Byte),
      ∃ s₁ here, s.brdIn h 0x27 record = some (s₁, here)) :=
  ⟨⟨((base.put F.CIP_STATUS_ENTROPY_OK 0 1).put F.BRD_PORT_STAT_LINK 4 2), 1, by decide, by decide, by decide⟩,
   ⟨((base.put F.CIP_STATUS_ENTROPY_OK 0 1).put F.BRD_PORT_STAT_LINK 4 2), aHdr, _, rfl⟩,
   ⟨{ base with brd := { BrdS.init with walkOwed := some 0 } }, by decide⟩,
   ⟨(base.put F.BRD_STATUS_KNOT 0 1), by decide, by decide⟩,
   ⟨((base.put F.CIP_STATUS_ENTROPY_OK 0 1).put F.BRD_PORT_STAT_LINK 4 2), aHdr, [], none, _, rfl⟩,
   ⟨((base.put F.CIP_STATUS_ENTROPY_OK 0 1).put F.BRD_PORT_STAT_LINK 4 2), aHdr, [], none, 0, none, _, _, rfl⟩,
   ⟨(((base.put F.CIP_STATUS_ENTROPY_OK 0 1).put F.BRD_PORT_STAT_LINK 4 2).put F.BRD_PORT_STAT_VERSION 4 2), 1, by decide, by decide⟩,
   ⟨((base.put F.CIP_STATUS_ENTROPY_OK 0 1).put F.BRD_PORT_STAT_LINK 4 2), aHdr, _, rfl⟩,
   ⟨((base.put F.CIP_STATUS_ENTROPY_OK 0 1).put F.BRD_PORT_STAT_LINK 4 2), aHdr, 600, 700, _, rfl⟩,
   ⟨((base.put F.BRD_TIME_STAT_IS_MASTER 0 1).put F.BRD_CTRL_TIME_EN 0 1), by decide, by decide, by decide⟩,
   ⟨((base.put F.CIP_STATUS_ENTROPY_OK 0 1).put F.BRD_PORT_STAT_LINK 4 2), aHdr, 600, 0, true, _, rfl⟩,
   ⟨((base.put F.CIP_STATUS_ENTROPY_OK 0 1).put F.BRD_PORT_STAT_LINK 4 2), aHdr, 3, 31, 0, 0, 600, [], _, _, rfl⟩,
   ⟨((base.put F.CIP_STATUS_ENTROPY_OK 0 1).put F.BRD_PORT_STAT_LINK 4 2), aHdr, [], _, _, rfl⟩⟩

theorem witness_HandoverFabricAndBightCommandsComplete :
    -- hoAckTimeout
    (∃ (s : State) (sess : BitVec 16),
      let k := sess.toNat
      ∃ a, s.rassoc k = some a ∧
      ∃ node addr, a.ho = some (node, addr) ∧
      s.get F.PLN_ASSOC_ASSIGN_TRIES ≤ a.active) ∧
    -- bightLane1Open
    (∃ (s : State),
      ∃ t, s.brd.taps = some t ∧
      s.get F.BRD_BIGHT_STAT_STATE = 0 ∧
      s.bit F.BRD_CTRL_EN = true ∧
      s.bit F.BRD_CTRL_LEAVE = false ∧
      s.brd.retryAt.isSome = false ∧
      t + msTicks 100 ≤ s.tick ∧
      s.up.clockLost = false ∧
      s.up.tap ≠ 1) ∧
    -- bightMember
    (∃ (s : State),
      ∃ c, s.brd.cut = some c ∧
      s.get F.BRD_BIGHT_STAT_STATE = 1 ∧
      s.brd.lane0 = true) ∧
    -- bightInsertRetry
    (∃ (s : State),
      ∃ t, s.brd.retryAt = some t ∧
      t ≤ s.tick) :=
  ⟨⟨{ base with mac := { MacS.init with assocs := [⟨5, 77, 1, 200, 200, false, false, false, [], 0, 0, some (3, 9), 0⟩] } }, 5, _, rfl, _, _, rfl, by decide⟩,
   ⟨{ (base.put F.BRD_CTRL_EN 0 1) with brd := { BrdS.init with taps := some 6 } }, _, rfl, by decide, by decide, by decide, by decide, by decide, by decide, by decide⟩,
   ⟨{ (base.put F.BRD_BIGHT_STAT_STATE 0 1) with brd := { BrdS.init with cut := some 6, lane0 := true } }, _, rfl, by decide, by decide⟩,
   ⟨{ base with brd := { BrdS.init with retryAt := some 6 } }, _, rfl, by decide⟩⟩

theorem witness_HalyardCommandsComplete :
    -- halLinkUp
    (∃ (s : State) (p : Fin 2),
      let n := p.val
      s.halRuns = true ∧
      s.halUp n = false) ∧
    -- halPortReturn
    (∃ (s : State),
      s.get F.HAL_CFG_PORTS = 2 ∧
      s.get F.HAL_STATUS_SENDING = 1 ∧
      s.halUp 0 = true ∧
      s.hal.h0At + sTicks 10 ≤ s.tick) ∧
    -- halFrameReceive
    (∃ (s : State) (p : Fin 2) (frame : List Byte),
      let n := p.val
      s.halUp n = true) ∧
    -- halHelloSend
    (∃ (s : State),
      s.bit F.HAL_STATUS_NEGOTIATED = false ∧
      s.halPort.isNone = false ∧
      s.hal.helloAt + sTicks 1 ≤ s.tick) ∧
    -- halNegotiationEnd
    (∃ (s : State),
      ∃ t, s.hal.downAt = some t ∧
      s.bit F.HAL_STATUS_NEGOTIATED = true ∧
      t + sTicks 1 ≤ s.tick) ∧
    -- halVersion
    (∃ (s : State) (version : BitVec 8),
      s.halRuns = true) ∧
    -- halCommand
    (∃ (s : State) (p : Fin 2) (flags : BitVec 8) (body : List Byte),
      s.halUp p.val = true) :=
  ⟨⟨((base.put F.HAL_CTRL_EN 0 1).put F.GLB_STATUS_READY 0 1), 1, by decide, by decide⟩,
   ⟨(((base.put F.HAL_CFG_PORTS 0 2).put F.HAL_STATUS_SENDING 0 1).put F.HAL_STATUS_LINK 0 1), by decide, by decide, by decide, by decide⟩,
   ⟨(base.put F.HAL_STATUS_LINK 0 3), 1, [0, 0, 0, 0], by decide⟩,
   ⟨(base.put F.HAL_STATUS_SENDING 0 1), by decide, by decide, by decide⟩,
   ⟨{ (base.put F.HAL_STATUS_NEGOTIATED 0 1) with hal := { HalS.init with downAt := some 6 } }, _, rfl, by decide, by decide⟩,
   ⟨((base.put F.HAL_CTRL_EN 0 1).put F.GLB_STATUS_READY 0 1), 3, by decide⟩,
   ⟨(base.put F.HAL_STATUS_LINK 0 2), 1, 0, [], by decide⟩⟩

theorem witness_HostCommandAndManagementCommandsComplete :
    -- cmdMeterCommand
    (∃ (s : State),
      ∃ s₁ u1 b, s.cmdHead 1 = some (s₁, u1, b)) ∧
    -- cmdCsrRead
    (∃ (s : State),
      ∃ s₁ i b, s.cmdHead 2 = some (s₁, i, b)) ∧
    -- cmdCsrWrite
    (∃ (s : State),
      ∃ s₁ i b, s.cmdHead 3 = some (s₁, i, b)) ∧
    -- cmdRawJob
    (∃ (s : State),
      ∃ s₁ u1 b, s.cmdHead 4 = some (s₁, u1, b)) ∧
    -- cmdJobStart
    (∃ (s : State),
      ∃ s₁ i b, s.cmdHead 5 = some (s₁, i, b)) ∧
    -- cmdJobCancel
    (∃ (s : State),
      ∃ s₁ u1 b, s.cmdHead 6 = some (s₁, u1, b)) ∧
    -- cmdReplaceAck
    (∃ (s : State),
      ∃ s₁ u1 b, s.cmdHead 7 = some (s₁, u1, b)) ∧
    -- mgtWrite
    (∃ (s : State) (a : BitVec 24) (data : List Byte) (cut : Bool),
      s.up.run = 2) ∧
    -- mgtRead
    (∃ (s : State) (a : BitVec 24) (bits : Nat),
      s.up.run = 2) ∧
    -- mgtStatus
    (∃ (s : State) (n : Nat),
      s.up.run = 2) ∧
    -- mgtId
    (∃ (s : State) (n : Nat),
      s.up.run = 2) ∧
    -- mgtInvalidTransaction
    (∃ (s : State) (bytes : List Byte) (cut : Bool),
      s.up.run = 2) :=
  ⟨⟨{ base with cmdQ := [(1, [1, 0, 0, 0, 1, 0, 5, 0])] }, _, _, _, rfl⟩,
   ⟨{ base with cmdQ := [(1, [1, 0, 0, 0, 2, 0, 5, 0])] }, _, _, _, rfl⟩,
   ⟨{ base with cmdQ := [(1, [1, 0, 0, 0, 3, 0, 5, 0])] }, _, _, _, rfl⟩,
   ⟨{ base with cmdQ := [(1, [1, 0, 0, 0, 4, 0, 5, 0])] }, _, _, _, rfl⟩,
   ⟨{ base with cmdQ := [(1, [1, 0, 0, 0, 5, 0, 5, 0])] }, _, _, _, rfl⟩,
   ⟨{ base with cmdQ := [(1, [1, 0, 0, 0, 6, 0, 5, 0])] }, _, _, _, rfl⟩,
   ⟨{ base with cmdQ := [(1, [1, 0, 0, 0, 7, 0, 5, 0])] }, _, _, _, rfl⟩,
   ⟨base, 0x000040, [1, 2, 3, 4], false, by decide⟩,
   ⟨base, 0x000000, 32, by decide⟩,
   ⟨base, 1, by decide⟩,
   ⟨base, 4, by decide⟩,
   ⟨base, [0x77#8], false, by decide⟩⟩

theorem witness_BelayCommandsComplete :
    -- blyOverrun
    (∃ (s : State) (k : Fin 16),
      s.jobState k.val = 2) ∧
    -- jobStatusReport
    (∃ (s : State) (k : Fin 16),
      s.jobLive k.val = true ∧
      (s.job k.val).statusDue ≤ s.tick) ∧
    -- sessionScrubStep
    (∃ (s : State) (k : Fin 16) (bad : List (BitVec 16)),
      s.jobTurn k.val 1 = true ∧
      s.journals = true ∧
      s.cxlUp = true ∧
      s.cxlHeld 5 = false) ∧
    -- rekeySweepStep
    (∃ (s : State) (k : Fin 16),
      s.jobTurn k.val 2 = true) ∧
    -- cxlScrubStep
    (∃ (s : State) (k : Fin 16) (ctxs : List (BitVec 16)) (recs : List (Fin 5 × Nat)) (other : List Nat),
      s.jobTurn k.val 4 = true ∧
      s.journals = true ∧
      s.cxlUp = true ∧
      s.cxlHeld 5 = false) ∧
    -- logExportStep
    (∃ (s : State) (k : Fin 16),
      s.jobTurn k.val 5 = true) ∧
    -- noiseMapExportStep
    (∃ (s : State) (k : Fin 16),
      s.jobTurn k.val 6 = true) ∧
    -- cxlAuditStep
    (∃ (s : State) (k : Fin 16) (data : List Byte) (poison : Bool),
      let st := s.jobState k.val
      let waits := decide (st = 3) && s.get F.BLY_SLOT_STAT_KIND (blyO k.val) == 10 && s.jobFirst k.val
      (s.jobTurn k.val 10 || waits) = true ∧
      s.cxlUp = true ∧
      s.cxlHeld 5 = false) :=
  ⟨⟨(base.put F.BLY_SLOT_STAT_STATE (0x20 * 15) 2), 15, by decide⟩,
   ⟨(base.put F.BLY_SLOT_STAT_STATE (0x20 * 15) 4), 15, by decide, by decide⟩,
   ⟨{ (((base.put F.BLY_SLOT_STAT_STATE 0 2).put F.BLY_SLOT_STAT_KIND 0 1).put F.CXL_LINK_STAT_STATE 0 2) with storeOpen := true }, 0, [], by decide, by decide, by decide, by decide⟩,
   ⟨((base.put F.BLY_SLOT_STAT_STATE 0 2).put F.BLY_SLOT_STAT_KIND 0 2), 0, by decide⟩,
   ⟨{ (((base.put F.BLY_SLOT_STAT_STATE 0 2).put F.BLY_SLOT_STAT_KIND 0 4).put F.CXL_LINK_STAT_STATE 0 2) with storeOpen := true }, 0, [], [], [], by decide, by decide, by decide, by decide⟩,
   ⟨((base.put F.BLY_SLOT_STAT_STATE 0 2).put F.BLY_SLOT_STAT_KIND 0 5), 0, by decide⟩,
   ⟨((base.put F.BLY_SLOT_STAT_STATE 0 2).put F.BLY_SLOT_STAT_KIND 0 6), 0, by decide⟩,
   ⟨(((base.put F.BLY_SLOT_STAT_STATE 0 2).put F.BLY_SLOT_STAT_KIND 0 10).put F.CXL_LINK_STAT_STATE 0 2), 0, [], false, by decide, by decide, by decide⟩⟩

theorem witness_NvmAndSelfTestCommandsComplete :
    -- nvmReadStep
    (∃ (s : State) (k : Fin 16) (data : List Byte) (expect : Option Word),
      s.jobTurn k.val 8 = true ∧
      s.nvmOp k.val = 1 ∧
      data.length = s.jobParam k.val 2) ∧
    -- nvmProgramStep
    (∃ (s : State) (k : Fin 16) (same : Bool),
      let j := s.job k.val
      s.jobTurn k.val 8 = true ∧
      s.nvmOp k.val = 2) ∧
    -- nvmEraseStep
    (∃ (s : State) (k : Fin 16),
      let op := s.nvmOp k.val
      s.jobTurn k.val 8 = true ∧
      (op == 3 || op == 4) = true ∧
      (s.job k.val).phase = 0) ∧
    -- nvmStatusPoll
    (∃ (s : State) (k : Fin 16) (busy : Bool),
      let j := s.job k.val
      s.jobTurn k.val 8 = true ∧
      j.phase = 1) ∧
    -- testCordMove
    (∃ (s : State) (c : Fin 9) (toSpare : Bool),
      s.cordTalks c.val = false) ∧
    -- selfTestPeriodicStart
    (∃ (s : State),
      s.bit F.BST_CFG_AUTO_EN = true ∧
      s.bit F.GLB_STATUS_READY = true ∧
      s.tst.periodAt + sTicks (3600 * s.get F.BST_CFG_PERIOD_H) ≤ s.tick) ∧
    -- replaceRequestRepeat
    (∃ (s : State),
      let open' := s.live F.BST_REPLACE_STAT.addr &&& ~~~ s.live F.BST_REPLACE_ACKED.addr &&& bitsMask 8 0
      open' ≠ 0 ∧
      s.repeatAt + sTicks (60 * s.get F.BST_REPLACE_CFG_REPEAT_MIN) ≤ s.tick) :=
  ⟨⟨{ ((base.put F.BLY_SLOT_STAT_STATE 0 2).put F.BLY_SLOT_STAT_KIND 0 8) with jobs := [(0, { JobS.init with params := [1, 0, 4, 0] })] }, 0, [1, 2, 3, 4], none, by decide, by decide, by decide⟩,
   ⟨{ ((base.put F.BLY_SLOT_STAT_STATE 0 2).put F.BLY_SLOT_STAT_KIND 0 8) with jobs := [(0, { JobS.init with params := [2, 0, 4, 0] })] }, 0, true, by decide, by decide⟩,
   ⟨{ ((base.put F.BLY_SLOT_STAT_STATE 0 2).put F.BLY_SLOT_STAT_KIND 0 8) with jobs := [(0, { JobS.init with params := [3, 0, 4, 0] })] }, 0, by decide, by decide, by decide⟩,
   ⟨{ ((base.put F.BLY_SLOT_STAT_STATE 0 2).put F.BLY_SLOT_STAT_KIND 0 8) with jobs := [(0, { JobS.init with params := [3, 0, 4, 0], phase := 1 })] }, 0, false, by decide, by decide⟩,
   ⟨base, 3, true, by decide⟩,
   ⟨(((base.put F.BST_CFG_AUTO_EN 0 1).put F.GLB_STATUS_READY 0 1).put F.BST_CFG_PERIOD_H 0 1), by decide, by decide, by decide⟩,
   ⟨((base.put F.BST_REPLACE_STAT_REASONS 0 0x100).put F.BST_REPLACE_CFG_REPEAT_MIN 0 1), by decide, by decide⟩⟩

theorem witness_LogAndRegisterCommandsComplete :
    -- logClearProt
    (∃ (s : State) (i : Iface) (w : Word),
      F.LOG_CMD_CLEAR_PROT.on w = true) ∧
    -- logMarkExported
    (∃ (s : State) (i : Iface) (w : Word),
      F.LOG_CMD_MARK_EXPORTED.on w = true) :=
  ⟨⟨base, .mgt, word F.LOG_CMD_CLEAR_PROT, by decide⟩,
   ⟨base, .mgt, word F.LOG_CMD_MARK_EXPORTED, by decide⟩⟩

/-! ## Witnesses: states and operands that meet the hypotheses of the statements about the whole machine and its parts -/

theorem witness_StepRunsFrontCommand : ∃ (s : State) (c : Instr) (rest : List Instr), s.pending = c :: rest :=
  ⟨{ base with pending := [.mgtId 4, .pinReset] }, .mgtId 4, [.pinReset], rfl⟩

theorem witness_EmptyQueueIdles : ∃ s : State, s.pending = [] := ⟨base, rfl⟩

theorem witness_QueueDrainsInOrder :
    (∃ (s : State) (k : Nat), k ≤ s.pending.length ∧ k = 2) ∧ (∃ (s : State) (k : Nat), k ≤ s.pending.length ∧ k = 0) :=
  ⟨⟨{ base with pending := [.mgtId 4, .pinReset] }, 2, by decide, rfl⟩, ⟨base, 0, by decide, rfl⟩⟩

theorem witness_StatusFollowsEveryStep : ∃ s t : State, step s = .next t := ⟨base, _, rfl⟩

theorem witness_WarmResetKeepsTimeAndLog :
    (∃ s : State, s.up.run ≠ 0 ∧ s.vaultq = [])
    ∧ (∃ s : State, (∃ t, s.up.softAt = some t ∧ t ≤ s.tick) ∧ s.vaultq = []) :=
  ⟨⟨base, by decide, rfl⟩, ⟨{ base with up := { base.up with softAt := some 5 } }, ⟨5, rfl, by decide⟩, rfl⟩⟩

theorem witness_RegisterFieldsApart : ∃ (a : Nat) (r : RegRow) (f : RegField), regRow a = some r ∧ f ∈ r.fields :=
  ⟨F.LP_AEN_CFG_LEAD.addr, _, _, rfl, List.mem_cons_self⟩

-- a field of each access code, an encoding that its RW fields take and one that they do not, and a broken relation
theorem witness_WriteActsFieldByField :
    (∃ (s : State) (a : Nat) (w : Word) (r : RegRow) (f : RegField), regRow a = some r ∧ f ∈ r.fields
      ∧ relationOk a (liveAfterWrite r a (s.live a) w) = true ∧ f.acc = .rw ∧ fieldOk a f (bitsOf w f.hi f.lo) = true)
    ∧ (∃ (a : Nat) (w : Word) (r : RegRow) (f : RegField), regRow a = some r ∧ f ∈ r.fields
      ∧ f.acc = .rw ∧ fieldOk a f (bitsOf w f.hi f.lo) = false)
    ∧ (∃ (s : State) (a : Nat) (w : Word) (r : RegRow) (f : RegField), regRow a = some r ∧ f ∈ r.fields
      ∧ relationOk a (liveAfterWrite r a (s.live a) w) = true ∧ f.acc = .w1c)
    ∧ (∃ (a : Nat) (r : RegRow) (f : RegField), regRow a = some r ∧ f ∈ r.fields ∧ f.acc ≠ .rw ∧ f.acc ≠ .w1c)
    ∧ (∃ (a : Nat) (r : RegRow) (f : RegField), regRow a = some r ∧ f ∈ r.fields ∧ f.acc = .rws ∧ rsvInstance a = false)
    ∧ (∃ (s : State) (a : Nat) (w : Word) (r : RegRow) (f : RegField), regRow a = some r ∧ f ∈ r.fields
      ∧ relationOk a (liveAfterWrite r a (s.live a) w) = false) := by
  refine ⟨⟨base, 0x134000, 0x1#32, _, _, rfl, List.mem_cons_self, ?_, ?_, ?_⟩, ⟨0x134000, 0x0#32, _, _, rfl, List.mem_cons_self, ?_, ?_⟩,
    ⟨base, 0x010000, 0x1#32, _, _, rfl, List.mem_cons_self, ?_, ?_⟩, ⟨0x010088, _, _, rfl, List.mem_cons_self, ?_, ?_⟩,
    ⟨0x089664, _, _, rfl, List.mem_cons_self, ?_, ?_⟩, ⟨base, 0x050028, 0x00640190#32, _, _, rfl, List.mem_cons_self, ?_⟩⟩ <;> decide

-- a lowest word and another word of one value
theorem witness_WideReadLatches :
    ∃ (b c : BitVec 24) (n : Nat), wideOf b.toNat = some (b.toNat, n) ∧ b.toNat % 4 = 0
      ∧ wideOf c.toNat = some (b.toNat, n) ∧ c ≠ b ∧ c.toNat % 4 = 0 := ⟨0x000200#24, 0x000204#24, 2, by decide⟩

theorem witness_ReadsKeepTheMachine :
    (∃ a : BitVec 24, a.toNat ≠ F.FC_AUX_DATA.addr ∧ a.toNat ≠ F.MAC_SCRIPT_DATA.addr) ∧ (∃ s : State, s.up.run = 2) :=
  ⟨⟨0x000200#24, by decide⟩, ⟨base, rfl⟩⟩

theorem witness_TimeIsReadAndCaptured :
    (∃ w : Word, F.GLB_TIME_CAP_CMD_GO.on w = true) ∧ (∃ w : Word, F.GLB_TIME_CAP_CMD_GO.on w = false) :=
  ⟨⟨word F.GLB_TIME_CAP_CMD_GO, by decide⟩, ⟨0, by decide⟩⟩

-- a word that names two blocks
theorem witness_RevertRestoresShadows :
    ∃ (w : Word), F.GLB_COMMIT_REVERT.on w = true ∧ 2 ≤ (glbBlocks w).length := ⟨word F.GLB_COMMIT_REVERT ||| 0x18#32, by decide⟩

theorem witness_CommitWaitsOrIsRejected :
    (∃ (s : State) (i : Iface) (b : Nat) (insts : List Nat) (rules : State → List (Nat × Word) → Option (Nat × Nat)),
      s.profHolds i b = false ∧ rules s (s.capture b insts) = none)
    ∧ (∃ (s : State) (b : Nat) (insts : List Nat) (rules : State → List (Nat × Word) → Option (Nat × Nat)),
      (rules s (s.capture b insts)).isSome = true)
    ∧ (∃ (s : State) (i : Iface) (b : Nat), s.profHolds i b = true) :=
  ⟨⟨base, .mgt, 3, [5], fun _ _ => none, by decide, rfl⟩, ⟨base, 3, [5], fun _ _ => some (0x30, 5), rfl⟩,
    ⟨{ base with profPhase := 2 }, .mgt, 3, by decide⟩⟩

theorem witness_CapturedWordsApply : ∃ cells : List (Nat × Word), (cells.map (·.1)).Nodup ∧ cells.length = 2 :=
  ⟨[(0x069300, 5#32), (0x089664, 3#32)], by decide, rfl⟩

theorem witness_RaisingSetsTheLatch : ∃ (s : State) (e x : Nat), e < 256 ∧ x < 256 ∧ s.evLatched x = true ∧ e = 255 ∧ x = 0 :=
  ⟨base.setLive F.EVC_LATCH.addr 1, 255, 0, by decide, by decide, by decide, rfl, rfl⟩

theorem witness_DisabledSourceIsNotDelivered : ∃ (s : State) (e : Nat), e < 256 ∧ s.evOn e = false ∧ e = 255 :=
  ⟨base.setLive 0x01003C 0, 255, by decide, by decide, rfl⟩

-- the next place at the end of the ring, and a free protected place
theorem witness_LogEntryTakesNextPlace :
    ∃ s : State, s.logNext (s.get F.LOG_STAT_HEAD) 34 = some 7935 ∧ s.logMarked 7936 = false ∧ s.get F.LOG_PROT_STAT_COUNT < 256 :=
  ⟨base.put F.LOG_STAT_HEAD 0 7935, by decide, by decide, by decide⟩

theorem witness_WriteLogHoldsSixteen :
    (∃ s : State, s.wlog.length ≤ 16 ∧ s.wlog.length = 16)
    ∧ (∃ (s : State) (i : Iface) (a : Nat), i ≠ .module ∧ ∃ e ∈ s.wlog, e.iface = i.id ∧ e.addr = a ∧ s.tick < e.tick + sTicks 1) :=
  ⟨⟨{ base with wlog := List.replicate 16 ⟨0, 0x200, 1, 1, 1, base.tick⟩ }, by decide, rfl⟩,
    ⟨{ base with wlog := [⟨0, 0x200, 1, 1, 1, base.tick⟩] }, .mgt, 0x200, by decide, _, List.mem_cons_self, rfl, rfl, by decide⟩⟩

-- a set bit, a bit that starts an episode, and one that does not
theorem witness_ReasonBitSets :
    (∃ (s : State) (b : Nat), b < 9 ∧ (s.get F.BST_REPLACE_STAT_REASONS).testBit b = true)
    ∧ (∃ (s : State) (b : Nat), b < 9 ∧ (s.get F.BST_REPLACE_STAT_REASONS).testBit b = false ∧ s.get F.BST_REPLACE_STAT_REASONS = 0)
    ∧ (∃ (s : State) (b : Nat), b < 9 ∧ (s.get F.BST_REPLACE_STAT_REASONS).testBit b = false ∧ s.get F.BST_REPLACE_STAT_REASONS ≠ 0) :=
  ⟨⟨base.put F.BST_REPLACE_STAT_REASONS 0 256, 8, by decide, by decide⟩, ⟨base, 0, by decide, by decide, by decide⟩,
    ⟨base.put F.BST_REPLACE_STAT_REASONS 0 256, 0, by decide, by decide, by decide⟩⟩

theorem witness_PortGainCommandsKeepTheRest :
    ∃ (p : Fin 144) (c : Instr) (q a : Nat), (∃ n, c = .overrangeWindow p n) ∧ q < 144 ∧ q ≠ p.val ∧ a < 0x100 :=
  ⟨0, .overrangeWindow 0 4, 143, 0xFF, ⟨4, rfl⟩, by decide, by decide, by decide⟩

theorem witness_ProfileCommandIsBlyStart :
    ∃ (s : State) (i : Iface) (w wb : Word) (k : Nat), F.GLB_PROFILE_CMD_GO.on w = true ∧ F.BLY_START_GO.on wb = true
      ∧ F.BLY_START_KIND.of wb = 7 ∧ F.BLY_START_PRIORITY.of wb = 1
      ∧ (List.range 4).map (fun j => (s.wlogNote i F.BLY_START.addr wb).get F.BLY_PARAM (4 * j)) = [F.GLB_PROFILE_CMD_PROFILE.of w, 0, 0, 0]
      ∧ (s.jobRequest 7 1 i.id 0 [F.GLB_PROFILE_CMD_PROFILE.of w, 0, 0, 0]).2.1 = some k :=
  ⟨base, .mgt, word F.GLB_PROFILE_CMD_GO, BitVec.ofNat 32 (2 ^ F.BLY_START_GO.lo + 7 * 2 ^ F.BLY_START_KIND.lo + 2 ^ F.BLY_START_PRIORITY.lo),
    0, by decide, by decide, by decide, by decide, by decide, by decide⟩

-- an NVM job that runs, a second one that waits, and a job of the module's own in the slots kept for it
theorem witness_JobTakesLowestFreeSlot :
    (∃ s t : State, ∃ k, s.jobStart 8 1 0 5 [1, 0, 4, 0] 1 false = (t, some k) ∧ k = 0)
    ∧ (∃ s t : State, ∃ k, s.jobStart 8 1 0 5 [1, 0, 4, 0] 1 false = (t, some k) ∧ t.jobState k = 3)
    ∧ (∃ s t : State, ∃ k, s.jobStart 5 3 4 0 [] 7 true = (t, some k) ∧ k = 12) :=
  ⟨⟨base, _, _, rfl, by decide⟩, ⟨(base.jobStart 8 1 0 5 [1, 0, 4, 0] 1 false).1, _, _, rfl, by decide⟩, ⟨base, _, _, rfl, by decide⟩⟩

-- a lease taken, one refused, and a state with at most one lease on a session
theorem witness_LeaseIsExclusive :
    (∃ (s : State) (k h : Nat), (s.leaseTry k h).2 = true ∧ ∀ l, s.leaseOf k = some l → False)
    ∧ (∃ (s : State) (k h : Nat) (l : Lease), s.leaseOf k = some l ∧ l.holder ≠ h ∧ (s.leaseTry k h).2 = false)
    ∧ (∃ s : State, s.leases ≠ [] ∧ ∀ j, (s.leases.filter (fun l => l.session == j)).length ≤ 1) := by
  refine ⟨⟨{ base with slots := [(5, ⟨2, false, false, none⟩)], cache := [⟨5, false, 0, true⟩] }, 5, 1, by decide, ?_⟩,
    ⟨{ base with leases := [⟨5, 7, 1, 900⟩] }, 5, 2, _, rfl, by decide, by decide⟩, ⟨{ base with leases := [⟨5, 7, 1, 900⟩] }, by decide, ?_⟩⟩
  · intro l h
    have h' : (none : Option Lease) = some l := h
    cases h'
  · intro j
    show (List.filter _ [_]).length ≤ 1
    exact List.length_filter_le _ _

theorem witness_SealedImageIsGood : ∃ img : List Byte, img.length = 2048 := ⟨List.replicate 2048 0, List.length_replicate⟩

theorem witness_CoefficientWriteStoresOneWord :
    (∃ (s : State) (m : Fin 9) (k : BitVec 16), s.wordInUse m.val k.toNat = false)
    ∧ (∃ (s : State) (m : Fin 9) (k : BitVec 16), s.wordInUse m.val k.toNat = true) :=
  ⟨⟨base, 0, 0xFFFF#16, by decide +kernel⟩, ⟨((base.setLive 0x078210 0x802E0100#32).put F.FC_BANK_ACTIVE_SET (fcO 37) 4).putB F.GLB_STATUS_READY 0 true, 2, 0x100#16, by decide +kernel⟩⟩

theorem witness_ViterbiServesInOrder :
    ∃ (s : State) (u : Fin 2), tget (fun _ => none) s.viterbi u.val = none ∧ s.vitMarked u.val = false ∧ s.bodies ≠ []
      ∧ (∃ x ∈ s.bodies, x.prio = true) ∧ (∃ x ∈ s.bodies, x.prio = false) :=
  ⟨{ base with bodies := [aBody 9, { aBody 7 with prio := true }] }, 1, by decide, by decide, by decide,
    ⟨{ aBody 7 with prio := true }, by decide, rfl⟩, ⟨aBody 9, by decide, rfl⟩⟩

theorem witness_HeaderDecodesItsEncoding :
    ∃ (h : PhyHdr) (q : Nat → Nat), h.length < 2048 ∧ h.rate < 8 ∧ h.levels < 2 ∧ h.coding < 4 ∧ h.version < 4 ∧ h.blockMap < 256
      ∧ (h.block = false → h.blockMap = 0) ∧ (∀ i, 0 < q (2 * i) + q (2 * i + 1)) :=
  ⟨⟨2047, 7, 1, 3, 3, true, 255⟩, fun _ => 1, by decide, by decide, by decide, by decide, by decide, by decide, by decide, fun _ => (by decide : 0 < 1 + 1)⟩

theorem witness_DeinterleaverUndoesInterleaver : ∃ l : List Bool, l.length % 8 = 0 ∧ l.length = 16 :=
  ⟨List.replicate 16 true, by decide, rfl⟩

theorem witness_MacHeaderReadsBack :
    ∃ h : Mac, h.ftype < 16 ∧ h.dest < 2 ^ 16 ∧ h.src < 2 ^ 16 ∧ h.counter < 2 ^ 32 ∧ h.epoch4 < 16 ∧ h.purpose < 4 :=
  ⟨⟨15, true, true, true, 65535, 65535, 2 ^ 32 - 1, 15, 3⟩, by decide, by decide, by decide, by decide, by decide, by decide⟩

theorem witness_CcmOpensWhatItSeals :
    ∃ (key : Key) (nonce : List Byte) (n : Nat), (key.sh.a.length = 16 ∨ key.sh.a.length = 32) ∧ key.sh.b.length = key.sh.a.length
      ∧ 7 ≤ nonce.length ∧ nonce.length ≤ 13 ∧ n ≤ 16 :=
  ⟨testKey (List.replicate 32 0), List.replicate 13 0, 8, by decide, by decide, by decide, by decide, by decide⟩

theorem witness_GcmOpensWhatItSeals :
    ∃ (key : Key) (iv : List Byte), (key.sh.a.length = 16 ∨ key.sh.a.length = 32) ∧ key.sh.b.length = key.sh.a.length ∧ iv.length = 12 :=
  ⟨testKey (List.replicate 16 0), List.replicate 12 0, by decide, by decide, by decide⟩

end Sys2Proof.Tests
end

section
/-! PROOF SUPPORT. What changes only registers, or only the link frames, leaves the command queue and the time base as they were. -/
namespace Sys2Proof.Machine
open Sys2Proof

/-- What does not read the registers reads the same after a change of registers alone. -/
theorem State.RegsOnly.field {β : Type} {s t : State} (h : s.RegsOnly t) (p : State → β)
    (hp : ∀ (u : State) r, p { u with regs := r } = p u) : p t = p s := by
  obtain ⟨r, rfl⟩ := h
  exact hp s r

/-- The command queue and the time base: what every departing link frame keeps. -/
def State.queueTime (s : State) : List Instr × Nat := (s.pending, s.tick)

theorem State.queueTime_eq_iff (s t : State) : t.queueTime = s.queueTime ↔ t.pending = s.pending ∧ t.tick = s.tick :=
  Prod.mk_inj

@[simp] theorem State.queueTime_chkKeep (s : State) (u : Nat) (l : List (List Byte)) :
    (s.chkKeep u l).queueTime = s.queueTime := rfl
@[simp] theorem State.queueTime_chkCount (s : State) (u : Nat) : (s.chkCount u).queueTime = s.queueTime := rfl
@[simp] theorem State.queueTime_onLink (s : State) (l : Nat) (f : LinkS → LinkS) : (s.onLink l f).queueTime = s.queueTime := rfl
@[simp] theorem State.queueTime_onBrd (s : State) (f : BrdS → BrdS) : (s.onBrd f).queueTime = s.queueTime := rfl
@[simp] theorem State.queueTime_onSpl (s : State) (f : SplS → SplS) : (s.onSpl f).queueTime = s.queueTime := rfl
@[simp] theorem State.queueTime_maskUse (s : State) : s.maskUse.queueTime = s.queueTime := rfl
@[simp] theorem State.queueTime_sysrefTick (s : State) : s.sysrefTick.queueTime = s.queueTime := rfl
@[simp] theorem State.queueTime_brdOut (s : State) (l : List (Nat × Msg)) : { s with brdOut := l }.queueTime = s.queueTime := rfl
@[simp] theorem State.queueTime_splOut (s : State) (l : List Msg) : { s with splOut := l }.queueTime = s.queueTime := rfl

@[simp] theorem State.queueTime_settle (s : State) : s.settle.queueTime = s.queueTime :=
  s.settle_only.field State.queueTime fun _ _ => rfl

/-- The check units' copies of a stream are no commands and take no time. -/
@[simp] theorem State.queueTime_snoop (s : State) (stream sel : Nat) (bytes : List Byte) :
    (s.snoop stream sel bytes).queueTime = s.queueTime := by
  unfold State.snoop
  refine List.foldlRecOn (motive := fun t => State.queueTime t = s.queueTime) _ _ rfl fun t ht u _ => ?_
  split
  · dsimp only
    split <;> simpa using ht
  · exact ht

@[simp] theorem State.queueTime_wireSend (s : State) (l kind seq : Nat) (body : List Byte) :
    (s.wireSend l kind seq body).queueTime = s.queueTime := by
  simp only [State.wireSend, State.queueTime_onLink]
  by_cases hk : kind = 1 <;> by_cases hl : l = 0 <;> simp [hk, hl]

@[simp] theorem State.queueTime_departPort (s : State) (p : Nat) (gcm : Bool) :
    (s.departPort p gcm).queueTime = s.queueTime := by
  unfold State.departPort
  split
  · rfl
  · simp only [State.queueTime_onLink, State.queueTime_wireSend]
    split <;> simp

@[simp] theorem State.queueTime_departSplice (s : State) (gcm : Bool) : (s.departSplice gcm).queueTime = s.queueTime := by
  unfold State.departSplice
  split
  · rfl
  next m _ =>
    simp only [State.queueTime_wireSend]
    split <;> split <;> simp

@[simp] theorem State.queueTime_depart (s : State) : s.depart.queueTime = s.queueTime := by
  simp [State.depart]

theorem State.tickOn_pending (s : State) : s.tickOn.pending = s.pending := rfl

/-- A clock cycle adds a natural number of ticks, 0 where the time base holds (R457). -/
theorem State.tick_le_tickOn (s : State) : s.tick ≤ s.tickOn.tick := Nat.le_add_right _ _

/-- Of an idle cycle only the clock cycle itself touches the time base, and nothing touches the queue. -/
theorem State.queueTime_idle (s : State) : s.idle.queueTime = s.tickOn.queueTime := by
  simp [State.idle]

theorem step_of_pending_nil (s : State) (h : s.pending = []) : step s = .next s.idle := by
  unfold step
  rw [h]

/-- Settles O28: every part of an idle cycle after the clock cycle keeps queue and time base, and the clock cycle only adds ticks. -/
theorem emptyQueueIdles : Obligations.EmptyQueueIdles := by
  intro s hs
  obtain ⟨hq, ht⟩ := (State.queueTime_eq_iff _ _).mp s.queueTime_idle
  refine ⟨step_of_pending_nil s hs, ?_, ?_⟩
  · rw [hq, s.tickOn_pending, hs]
  · rw [ht]
    exact s.tick_le_tickOn

end Sys2Proof.Machine
end

section
/-! PROOF SUPPORT. The order in which the Viterbi units serve bodies (R23), and what VITERBI_DECODE_START does with the one it chooses. -/
namespace Sys2Proof.Machine
open Sys2Proof

/-- R23 lets `b` be served with `x` still waiting: `x` is of no higher priority, and at the same priority was not completed earlier. -/
def Body.MayPrecede (b x : Body) : Prop := (x.prio = true → b.prio = true) ∧ (x.prio = b.prio → b.tick ≤ x.tick)

theorem Body.MayPrecede.refl (b : Body) : b.MayPrecede b := ⟨id, fun _ => le_rfl⟩

theorem Body.mayPrecede_of_prio {b x : Body} (hb : b.prio = true) (hx : x.prio = false) : b.MayPrecede x :=
  ⟨fun _ => hb, fun h => by simp [hb, hx] at h⟩

theorem Body.mayPrecede_of_tick {b x : Body} (hp : b.prio = x.prio) (ht : b.tick ≤ x.tick) : b.MayPrecede x :=
  ⟨hp.trans, fun _ => ht⟩

theorem Body.MayPrecede.trans {a b c : Body} (hab : a.MayPrecede b) (hbc : b.MayPrecede c) : a.MayPrecede c := by
  obtain ⟨pab, tab⟩ := hab
  obtain ⟨pbc, tbc⟩ := hbc
  refine ⟨pab ∘ pbc, fun hca => ?_⟩
  -- `b` stands between two bodies of one priority, so it has that priority too
  have hcb : c.prio = b.prio := Bool.eq_iff_iff.mpr ⟨pbc, fun h => hca ▸ pab h⟩
  exact (tab (hcb ▸ hca)).trans (tbc hcb)

/-- One more body in front: it or the choice among the others is taken, and may precede the one that is not. -/
theorem nextBody_cons_of_some {b x : Body} {t : List Body} (h : nextBody t = some x) :
    (nextBody (b :: t) = some x ∧ x.MayPrecede b) ∨ (nextBody (b :: t) = some b ∧ b.MayPrecede x) := by
  simp only [nextBody, h, Bool.or_eq_true, Bool.and_eq_true, Bool.not_eq_true', beq_iff_eq, decide_eq_true_eq]
  split
  next hx =>
    refine .inl ⟨rfl, ?_⟩
    rcases hx with ⟨hxp, hbp⟩ | ⟨hp, ht⟩
    · exact Body.mayPrecede_of_prio hxp hbp
    · exact Body.mayPrecede_of_tick hp (by omega)
  next hx =>
    refine .inr ⟨rfl, ?_⟩
    by_cases hp : x.prio = b.prio
    · exact Body.mayPrecede_of_tick hp.symm (by simp only [hp, true_and] at hx; omega)
    · cases hxp : x.prio with
      | false => exact Body.mayPrecede_of_prio (by simpa [hxp] using hp) hxp
      | true => exact absurd (.inl ⟨hxp, by simpa [hxp] using hp⟩) hx

theorem nextBody_cons_of_none {b : Body} {t : List Body} (h : nextBody t = none) : nextBody (b :: t) = some b := by
  simp [nextBody, h]

theorem nextBody_eq_none_iff (l : List Body) : nextBody l = none ↔ l = [] := by
  cases l with
  | nil => simp [nextBody]
  | cons b t =>
    cases h : nextBody t with
    | none => simp [nextBody_cons_of_none h]
    | some x => rcases nextBody_cons_of_some (b := b) h with ⟨e, _⟩ | ⟨e, _⟩ <;> simp [e]

/-- The body served next waits, and may precede every other that waits, whatever their order in the list. -/
theorem nextBody_spec {l : List Body} {b : Body} (h : nextBody l = some b) : b ∈ l ∧ ∀ x ∈ l, b.MayPrecede x := by
  induction l generalizing b with
  | nil => cases h
  | cons a t ih =>
    cases ht : nextBody t with
    | none =>
      obtain rfl : a = b := by simpa [nextBody_cons_of_none ht] using h
      obtain rfl := (nextBody_eq_none_iff t).mp ht
      simpa using Body.MayPrecede.refl a
    | some y =>
      obtain ⟨hy, hall⟩ := ih ht
      rcases nextBody_cons_of_some (b := a) ht with ⟨e, hya⟩ | ⟨e, hay⟩
      · obtain rfl : y = b := Option.some.inj (e ▸ h)
        exact ⟨.tail _ hy, List.forall_mem_cons.mpr ⟨hya, hall⟩⟩
      · obtain rfl : a = b := Option.some.inj (e ▸ h)
        exact ⟨.head _, List.forall_mem_cons.mpr ⟨.refl a, fun x hx => hay.trans (hall x hx)⟩⟩

/-- Body `b` has left the queue for Viterbi unit `u`. -/
def State.vitTake (s : State) (u : Nat) (b : Body) : State :=
  { s with bodies := s.bodies.erase b, viterbi := tset (fun _ => none) s.viterbi u (some b) }

theorem State.regsOnly_vitShow (s : State) : s.RegsOnly s.vitShow := ⟨_, rfl⟩

/-- A free unit in service takes the body that `nextBody` chooses. -/
theorem viterbiDecodeStart_goes {s : State} {u : Fin 2} {b : Body} (hfree : tget (fun _ => none) s.viterbi u.val = none)
    (hmark : s.vitMarked u.val = false) (hb : nextBody s.bodies = some b) :
    s.goes (.viterbiDecodeStart u) (s.vitTake u.val b).vitShow := by
  refine s.goes_of_answer _ _ ?_
  show execViterbiDecodeStart u s = _
  simp only [execViterbiDecodeStart, hfree, hmark, hb]
  rfl

/-- Settles O55: what the unit takes is the choice of `nextBody`, which may precede every body that waits. -/
theorem viterbiServesInOrder : Obligations.ViterbiServesInOrder := by
  intro s u hfree hmark hne
  obtain ⟨b, hb⟩ := Option.ne_none_iff_exists'.mp (mt (nextBody_eq_none_iff s.bodies).mp hne)
  obtain ⟨hmem, hfirst⟩ := nextBody_spec hb
  have hregs : (s.vitTake u.val b).RegsOnly (s.vitTake u.val b).vitShow.settle :=
    (State.regsOnly_vitShow _).trans (State.settle_only _)
  have hvit : (s.vitTake u.val b).vitShow.settle.viterbi = tset (fun _ => none) s.viterbi u.val (some b) :=
    hregs.field State.viterbi fun _ _ => rfl
  have hbodies : (s.vitTake u.val b).vitShow.settle.bodies = s.bodies.erase b :=
    hregs.field State.bodies fun _ _ => rfl
  refine ⟨_, b, viterbiDecodeStart_goes hfree hmark hb, hmem, ?_, hbodies, hfirst⟩
  show tget _ (s.vitTake u.val b).vitShow.settle.viterbi u.val = some b
  rw [hvit, tget_tset_same]

end Sys2Proof.Machine
end

section
/-! PROOF SUPPORT. The words that raising an event can write (R425 to R428, R493), and that every other word reads as it did. -/
namespace Sys2Proof.Machine
open Sys2Proof

/-- The words that raising an event can write: those of the event controller and the trouble log, those of the belay slots, and the
source registers of the events. -/
def eventWord (a : Nat) : Bool :=
  (decide (0x010000 ≤ a) && decide (a < 0x020000)) || (decide (0x138000 ≤ a) && decide (a < 0x140000))
    || evSrcRanges.any (fun r => decide (r.2.2 ≤ a) && decide (a ≤ r.2.2 + 4 * (r.2.1 - r.1)))

theorem eventWord_of_controller {a : Nat} (h : 0x010000 ≤ a) (h' : a < 0x020000) : eventWord a = true := by
  simp [eventWord, h, h']

theorem eventWord_of_belay {a : Nat} (h : 0x138000 ≤ a) (h' : a < 0x140000) : eventWord a = true := by
  simp [eventWord, h, h']

theorem eventWord_of_evSrcAddr {e a : Nat} (h : evSrcAddr e = some a) : eventWord a = true := by
  obtain ⟨r, hr, rfl⟩ := Option.map_eq_some_iff.mp h
  have hin := List.find?_some hr
  simp only [Bool.and_eq_true, decide_eq_true_eq] at hin
  refine Bool.or_eq_true_iff.mpr (.inr (List.any_eq_true.mpr ⟨r, List.mem_of_find?_eq_some hr, ?_⟩))
  simp only [Bool.and_eq_true, decide_eq_true_eq]
  omega

theorem State.lt_of_freeSlot {s : State} {lo n k : Nat} (h : s.freeSlot lo n = some k) : k < lo + n := by
  obtain ⟨j, hj, rfl⟩ := List.mem_map.mp (List.mem_of_find?_eq_some h)
  have := List.mem_range.mp hj
  omega

@[simp] theorem State.live_jobStatus (s : State) (k a : Nat) : (s.jobStatus k).live a = s.live a := rfl
@[simp] theorem State.live_onJob (s : State) (k : Nat) (f : JobS → JobS) (a : Nat) : (s.onJob k f).live a = s.live a := rfl

section
variable {a : Nat} (ha : eventWord a = false)
include ha

theorem State.live_setLive_event (s : State) {b : Nat} (w : Word) (hb : eventWord b = true) : (s.setLive b w).live a = s.live a :=
  State.live_setLive_other _ _ _ _ fun h => by simp [h, hb] at ha

theorem State.live_put_event (s : State) {f : Fld} {o : Nat} (v : Nat) (hf : eventWord (f.addr + o) = true) :
    (s.put f o v).live a = s.live a :=
  s.live_setLive_event ha _ hf

theorem State.live_logProtect (s : State) (e : LogEntry) : (s.logProtect e).1.live a = s.live a := by
  unfold State.logProtect
  dsimp only
  split
  · rfl
  · split
    · exact (State.live_put_event ha _ _ rfl).trans (State.live_put_event ha _ _ rfl)
    · exact State.live_put_event ha _ _ rfl

theorem State.live_logPut (s : State) (src code sev iface set : Nat) (data : List Byte) (time : Nat) :
    (s.logPut src code sev iface set data time).1.live a = s.live a := by
  unfold State.logPut
  split
  · rfl
  · extract_lets en old s1 s2 s3
    have h1 : s1.live a = s.live a := by
      show (if _ then _ else _ : State).live a = _
      split
      · exact (State.live_put_event ha _ _ rfl).trans (State.live_put_event ha _ _ rfl)
      · rfl
    have h3 : s3.live a = s.live a :=
      ((State.live_put_event ha _ _ rfl).trans (State.live_put_event ha _ _ rfl)).trans h1
    clear_value s3
    split
    · exact (s3.live_logProtect ha _).trans h3
    · exact h3

theorem State.live_deliver (s : State) (e n first last : Nat) (own : Bool) :
    (s.deliver e n first last own).1.live a = s.live a := by
  unfold State.deliver
  extract_lets k body u
  have hu : u.live a = s.live a := by
    show (if _ then _ else _ : State).live a = _
    split <;> rfl
  split
  · exact (u.live_logPut ha _ _ _ _ _ _ _).trans hu
  · exact hu

theorem State.live_raise0 (s : State) {e : Nat} (he : e < 256) (src : Nat) (own : Bool) :
    (s.raise0 e src own).1.live a = s.live a := by
  have hlatch : eventWord (0x010000 + 4 * (e / 32)) = true := eventWord_of_controller (by omega) (by omega)
  unfold State.raise0
  extract_lets latch s1 s2 s3 s4
  have h3 : s3.live a = s.live a :=
    (State.live_setLive_event ha _ _ rfl).trans <| (State.live_setLive_event ha _ _ rfl).trans <|
      (State.live_put_event ha _ _ rfl).trans <| (State.live_put_event ha _ _ rfl).trans (State.live_setLive_event ha _ _ hlatch)
  have h4 : s4.live a = s.live a := by
    show (match evSrcAddr e with | some r => _ | none => _ : State).live a = _
    split
    next r hr => exact (State.live_setLive_event ha _ _ (eventWord_of_evSrcAddr hr)).trans h3
    · exact h3
  clear_value s4
  split
  · exact h4
  · split
    · exact (State.live_deliver ha _ _ _ _ _ _).trans h4
    · exact h4

theorem State.live_jobStart (s : State) (kind prio origin cmdId : Nat) (params : List Nat) (total : Nat) (own : Bool) :
    (s.jobStart kind prio origin cmdId params total own).1.live a = s.live a := by
  unfold State.jobStart
  split
  · rfl
  next k hk =>
    have hk16 : k < 16 := by split at hk <;> have := State.lt_of_freeSlot hk <;> omega
    -- the words of slot `k` are words of the belay block
    have hslot : ∀ {b : Nat}, 0x138100 ≤ b → b < 0x138120 → eventWord (b + blyO k) = true := fun hb hb' => by
      simp only [blyO]
      exact eventWord_of_belay (by omega) (by omega)
    have hput : ∀ (u : State) (f : Fld) (v : Nat), 0x138100 ≤ f.addr → f.addr < 0x138120 → (u.put f (blyO k) v).live a = u.live a :=
      fun u f v hb hb' => u.live_put_event ha v (hslot hb hb')
    have hdata : ∀ u : State, ((List.range 4).foldl (fun u j => u.put F.BLY_SLOT_DATA (blyO k + 4 * j) 0) u).live a = u.live a := by
      refine fun u => List.foldlRecOn (motive := fun t => State.live t a = u.live a) _ _ rfl fun t ht j hj => ?_
      have := List.mem_range.mp hj
      rw [State.live_put_event ha, ht]
      simp only [blyO, F.BLY_SLOT_DATA]
      exact eventWord_of_belay (by omega) (by omega)
    extract_lets o busy s1 s2 s3 s4 span s5 s6
    have h3 : s3.live a = s.live a := by
      simp only [s3, s2, s1, o]
      rw [hput, hput, hput, hput, hput, hput, hput, State.live_setLive_event ha _ _ (hslot (by decide) (by decide))] <;> decide
    have h4 : s4.live a = s.live a := (hdata s3).trans h3
    clear_value s4
    exact (s6.live_jobStatus k a).trans ((s5.live_put_event ha _ rfl).trans ((s4.live_onJob k _ a).trans h4))

theorem State.live_logDues (s : State) (due : Bool) : (s.logDues due).live a = s.live a := by
  unfold State.logDues
  dsimp only
  generalize hu : (if due = true then (s.raise0 Ev.LOG_PROTECTED_FULL 0).1 else s) = u
  have h : u.live a = s.live a := by
    rw [← hu]
    split
    · exact s.live_raise0 ha (by decide) _ _
    · rfl
  split
  · generalize hv : ({ u with nearArmed := false }.raise0 Ev.LOG_NEAR_FULL (u.get F.LOG_STAT_UNEXPORTED)).1 = v
    have h1 : v.live a = s.live a := by
      rw [← hv]
      exact (State.live_raise0 ha _ (by decide) _ _).trans h
    split
    · have h2 := (v.live_jobStart ha 5 0 4 0 [0, 0] (((v.logSpan true []).2 + 31) / 32) true).trans h1
      split
      · exact h2
      · exact (State.live_raise0 ha _ (by decide) _ _).trans h2
    · exact h1
  · split <;> exact h

/-- Every word but those of events reads the same after a raising. -/
theorem State.live_raise (s : State) {e : Nat} (he : e < 256) (src : Nat) : (s.raise e src).live a = s.live a :=
  (State.live_logDues ha _ _).trans (s.live_raise0 ha he _ _)

theorem State.live_raiseIf (s : State) (c : Bool) {e : Nat} (he : e < 256) (src : Nat) : (s.raiseIf c e src).live a = s.live a := by
  unfold State.raiseIf
  split
  · exact s.live_raise ha he src
  · rfl

theorem State.live_raiseLogged (s : State) {e : Nat} (he : e < 256) (src code set : Nat) (data : List Byte) :
    (s.raiseLogged e src code set data).live a = s.live a :=
  (State.live_logDues ha _ _).trans ((State.live_raise0 ha _ he _ _).trans (s.live_logPut ha _ _ _ _ _ _ _))

end

end Sys2Proof.Machine
end

section
/-! PROOF SUPPORT. The frame of one line port: what changes at most that port, and what every change of registers, event or free value
lets stand beside it. -/
namespace Sys2Proof.Machine
open Sys2Proof

/-- `t` differs from `s` only in what an event changes, in the free values drawn, and in line port `p` and its registers (R50). -/
structure State.PortFrame (p : Nat) (s t : State) : Prop where
  rest : ∃ r a b c d e j n ps,
    t = { s with regs := r, rates := a, outq := b, log := c, protArmed := d, nearArmed := e, jobs := j, free := n, ports := ps }
  ports : ∀ q, q ≠ p → t.port q = s.port q
  words : ∀ q, q < 144 → q ≠ p → ∀ a, a < 0x100 → t.live (0x040000 + lpO q + a) = s.live (0x040000 + lpO q + a)

theorem State.PortFrame.refl (p : Nat) (s : State) : s.PortFrame p s :=
  ⟨⟨_, _, _, _, _, _, _, _, _, rfl⟩, fun _ _ => rfl, fun _ _ _ _ _ => rfl⟩

theorem State.PortFrame.trans {p : Nat} {s t u : State} (h : s.PortFrame p t) (h' : t.PortFrame p u) : s.PortFrame p u := by
  obtain ⟨⟨r, a, b, c, d, e, j, n, ps, rfl⟩, hp, hw⟩ := h
  obtain ⟨⟨r', a', b', c', d', e', j', n', ps', rfl⟩, hp', hw'⟩ := h'
  exact ⟨⟨r', a', b', c', d', e', j', n', ps', rfl⟩, fun q hq => (hp' q hq).trans (hp q hq),
    fun q hq hne a ha => (hw' q hq hne a ha).trans (hw q hq hne a ha)⟩

/-- No word of a line port is a word of events. -/
theorem eventWord_portWord {q a : Nat} (hq : q < 144) (ha : a < 0x100) : eventWord (0x040000 + lpO q + a) = false := by
  have hsrc : ∀ r ∈ evSrcRanges, r.2.2 + 4 * (r.2.1 - r.1) < 0x040000 ∨ 0x050000 ≤ r.2.2 := by decide
  have hlo : 0x040000 ≤ 0x040000 + lpO q + a := by omega
  have hhi : 0x040000 + lpO q + a < 0x050000 := by simp only [lpO]; omega
  generalize 0x040000 + lpO q + a = x at hlo hhi
  have hany : evSrcRanges.any (fun r => decide (r.2.2 ≤ x) && decide (x ≤ r.2.2 + 4 * (r.2.1 - r.1))) = false := by
    refine List.any_eq_false.mpr fun r hr => ?_
    have := hsrc r hr
    simp only [Bool.and_eq_true, decide_eq_true_eq]
    omega
  simp only [eventWord, hany, Bool.or_false, Bool.or_eq_false_iff, Bool.and_eq_false_iff, decide_eq_false_iff_not]
  omega

/-- No word of a line port shows other state. -/
theorem portWord_not_settled {q a : Nat} (hq : q < 144) (ha : a < 0x100) : 0x040000 + lpO q + a ∉ settledAddrs := by
  have hall : ∀ b ∈ settledAddrs, b < 0x040000 ∨ 0x050000 ≤ b := by decide
  intro h
  have := hall _ h
  simp only [lpO] at this
  omega

section
variable {p : Nat} {s t : State}

/-- What changes as an event does, and in words of events only, changes no line port. -/
theorem State.PortFrame.of_eventOnly (h : s.EventOnly t) (hw : ∀ a, eventWord a = false → t.live a = s.live a) : s.PortFrame p t := by
  refine ⟨?_, ?_, fun q hq _ a ha => hw _ (eventWord_portWord hq ha)⟩
  · obtain ⟨r, a, b, c, d, e, j, rfl⟩ := h
    exact ⟨r, a, b, c, d, e, j, _, _, rfl⟩
  · obtain ⟨r, a, b, c, d, e, j, rfl⟩ := h
    exact fun _ _ => rfl

theorem State.portFrame_settle (p : Nat) (s : State) : s.PortFrame p s.settle := by
  refine ⟨?_, fun q _ => s.settle_only.field (fun u => u.port q) fun _ _ => rfl,
    fun q hq _ a ha => s.live_settle_other _ (portWord_not_settled hq ha)⟩
  obtain ⟨r, h⟩ := s.settle_only
  exact ⟨r, _, _, _, _, _, _, _, _, h⟩

/-! What keeps the frame of port `p` once more keeps it. -/
variable (h : s.PortFrame p t)
include h

theorem State.PortFrame.raise {e : Nat} (src : Nat) (he : e < 256 := by decide) : s.PortFrame p (t.raise e src) :=
  h.trans (.of_eventOnly (t.eventOnly_raise e src) fun _ ha => t.live_raise ha he src)

theorem State.PortFrame.raiseIf (c : Bool) {e : Nat} (src : Nat) (he : e < 256 := by decide) : s.PortFrame p (t.raiseIf c e src) :=
  h.trans (.of_eventOnly (t.eventOnly_raiseIf c e src) fun _ ha => t.live_raiseIf ha c he src)

theorem State.PortFrame.raiseLogged {e : Nat} (src code set : Nat) (data : List Byte) (he : e < 256 := by decide) :
    s.PortFrame p (t.raiseLogged e src code set data) :=
  h.trans (.of_eventOnly (t.eventOnly_raiseLogged e src code set data) fun _ ha => t.live_raiseLogged ha he src code set data)

theorem State.PortFrame.draw (w : Nat) : s.PortFrame p (t.draw w).2 :=
  h.trans ⟨⟨_, _, _, _, _, _, _, _, _, rfl⟩, fun _ _ => rfl, fun _ _ _ _ _ => rfl⟩

theorem State.PortFrame.onPort (f : PortS → PortS) : s.PortFrame p (t.onPort p f) :=
  h.trans ⟨⟨_, _, _, _, _, _, _, _, _, rfl⟩, fun _ hq => t.port_onPort_other _ _ f hq, fun _ _ _ _ _ => rfl⟩

/-- A field of the port's own registers (R50). -/
theorem State.PortFrame.put {f : Fld} (v : Nat) (hf : 0x040000 ≤ f.addr ∧ f.addr < 0x040100 := by decide) :
    s.PortFrame p (t.put f (lpO p) v) := by
  refine h.trans ⟨⟨_, _, _, _, _, _, _, _, _, rfl⟩, fun _ _ => rfl, fun q _ hne a ha => ?_⟩
  rw [State.live_put, if_neg]
  simp only [lpO]
  omega

/-! ### The gain -/

theorem State.PortFrame.codesNote : s.PortFrame p (t.codesNote p) := by
  unfold State.codesNote
  exact h.onPort _

theorem State.PortFrame.refUpdate : s.PortFrame p (t.refUpdate p) := by
  unfold State.refUpdate
  split
  · exact h
  · exact h.codesNote.onPort _

theorem State.PortFrame.pgaJudge (auto : Bool) : s.PortFrame p (t.pgaJudge p auto) := by
  unfold State.pgaJudge
  dsimp only
  split
  · exact h
  · split
    · exact h
    · split
      · exact h.onPort _
      · split
        · exact h.onPort _
        · exact (h.onPort _).raiseIf _ _

theorem State.PortFrame.pgaRequest (c : Nat) (auto : Bool) : s.PortFrame p (t.pgaRequest p c auto) := by
  unfold State.pgaRequest
  exact (h.onPort _).pgaJudge auto

/-! ### The monitor -/

theorem State.PortFrame.monRatio (b : Nat) (adc : List (BitVec 14)) : s.PortFrame p (t.monRatio p b adc).2 := by
  unfold State.monRatio
  dsimp only
  split
  · exact h.draw 12
  · exact h

theorem State.PortFrame.monLow (ref : Int) : s.PortFrame p (t.monLow p ref) := by
  unfold State.monLow
  split
  · exact (h.put _).raise _
  · exact h

end

/-! ### The commands -/

/-- The outcome `o` of a command met in `s` is an answer that keeps the frame of port `p`. -/
def State.AnswersInFrame (s : State) (p : Nat) (o : Out) : Prop := ∃ t, o = s.answer (.next t) ∧ s.PortFrame p t

theorem State.PortFrame.answers {p : Nat} {s t : State} (h : s.PortFrame p t) : s.AnswersInFrame p (s.answer (.next t)) := ⟨t, rfl, h⟩

theorem State.answersInFrame_same (s : State) (p : Nat) : s.AnswersInFrame p (s.answer (.next s)) := (State.PortFrame.refl p s).answers

section
variable (p : Fin 144) (s : State)

theorem execOverrangeWindow_inFrame (n : Fin 65) : s.AnswersInFrame p (execOverrangeWindow p n s) := by
  unfold execOverrangeWindow
  extract_lets o s1 s2 s3 cur
  split
  · exact s.answersInFrame_same p
  · -- the window is counted, flagged and raised, and its tick is kept
    have hcount : s.PortFrame p s3 := ((((State.PortFrame.refl p s).put _).put _).raise _).onPort _
    refine State.PortFrame.answers ?_
    split
    · exact hcount.pgaRequest _ _
    · exact hcount

theorem execPgaUpStepRequest_inFrame (peak : Int) : s.AnswersInFrame p (execPgaUpStepRequest p peak s) := by
  unfold execPgaUpStepRequest
  dsimp only
  split
  · exact (((State.PortFrame.refl p s).onPort _).pgaRequest _ _).answers
  · exact s.answersInFrame_same p

theorem execPgaStepEffect_inFrame : s.AnswersInFrame p (execPgaStepEffect p s) := by
  unfold execPgaStepEffect
  dsimp only
  split
  · exact s.answersInFrame_same p
  · split
    · exact s.answersInFrame_same p
    · exact ((((State.PortFrame.refl p s).codesNote.put _).onPort _).refUpdate.pgaJudge _).answers

theorem execPgaHeldGrant_inFrame : s.AnswersInFrame p (execPgaHeldGrant p s) := by
  unfold execPgaHeldGrant
  split
  · exact s.answersInFrame_same p
  · exact ((State.PortFrame.refl p s).refUpdate.pgaJudge _).answers

theorem execPgaRequestWithdraw_inFrame (peak : Int) : s.AnswersInFrame p (execPgaRequestWithdraw p peak s) := by
  unfold execPgaRequestWithdraw
  extract_lets x
  split
  · exact s.answersInFrame_same p
  · extract_lets due
    split
    · exact ((State.PortFrame.refl p s).onPort _).answers
    · exact s.answersInFrame_same p

theorem execMonBlock_inFrame (adc : List (BitVec 14)) : s.AnswersInFrame p (execMonBlock p adc s) := by
  unfold execMonBlock
  dsimp only
  split
  · exact s.answersInFrame_same p
  · -- the block's ratio is shown, and the block counted
    have hshown := (((State.PortFrame.refl p s).monRatio (s.port p).monN adc).put (f := F.LP_STATUS_MON_RATIO)
      (toSigned 12 (s.monRatio p (s.port p).monN adc).1)).onPort (fun x => { x with monN := (s.port p).monN + 1 })
    split
    · split
      · exact (hshown.onPort _).answers
      · exact (((hshown.onPort _).onPort _).monLow _).answers
    · split
      · exact (hshown.onPort _).answers
      · exact (hshown.onPort _).answers
      · exact (((((hshown.onPort _).put _).put _).raiseLogged _ _ _ _).monLow _).answers

end

/-- What an answer that keeps the frame of port `p` leaves, told of the answered state. -/
theorem State.AnswersInFrame.leaves {s : State} {p : Nat} {o : Out} (h : s.AnswersInFrame p o) :
    ∃ t : State, o = .next t
      ∧ (∀ q, q < 144 → q ≠ p → t.port q = s.port q ∧ ∀ a, a < 0x100 → t.live (0x040000 + lpO q + a) = s.live (0x040000 + lpO q + a))
      ∧ t.shadow = s.shadow ∧ t.commits = s.commits ∧ t.chains = s.chains ∧ t.rxs = s.rxs ∧ t.exchs = s.exchs ∧ t.rounds = s.rounds
      ∧ t.coefs = s.coefs ∧ t.vault = s.vault ∧ t.ctx = s.ctx ∧ t.home = s.home ∧ t.spool = s.spool ∧ t.tick = s.tick := by
  obtain ⟨t, rfl, ht⟩ := h
  obtain ⟨hrest, hports, hwords⟩ := ht.trans (t.portFrame_settle p)
  refine ⟨_, rfl, fun q hq hne => ⟨hports q hne, hwords q hq hne⟩, ?_⟩
  generalize t.settle = u at hrest
  obtain ⟨r, a, b, c, d, e, j, n, ps, rfl⟩ := hrest
  exact ⟨rfl, rfl, rfl, rfl, rfl, rfl, rfl, rfl, rfl, rfl, rfl, rfl⟩

/-- Settles O45: each of the six commands answers a state in the frame of its port. -/
theorem portGainCommandsKeepTheRest : Obligations.PortGainCommandsKeepTheRest := by
  rintro s p _ (⟨n, rfl⟩ | ⟨peak, rfl⟩ | rfl | rfl | ⟨peak, rfl⟩ | ⟨adc, rfl⟩)
  · exact (execOverrangeWindow_inFrame p s n).leaves
  · exact (execPgaUpStepRequest_inFrame p s peak).leaves
  · exact (execPgaStepEffect_inFrame p s).leaves
  · exact (execPgaHeldGrant_inFrame p s).leaves
  · exact (execPgaRequestWithdraw_inFrame p s peak).leaves
  · exact (execMonBlock_inFrame p s adc).leaves

end Sys2Proof.Machine
end

section
/-! PROOF SUPPORT. What the commands of the line ports answer when their conditions hold (R29 to R49, R98, R118, R123). -/
namespace Sys2Proof.Machine
open Sys2Proof

/-- A choice between outcomes that are next states is the next state chosen. -/
theorem out_ite_next {c : Prop} [Decidable c] {o o' : Out} {t t' : State} (h : o = .next t) (h' : o' = .next t') :
    (if c then o else o') = .next (if c then t else t') := by
  split
  · exact h
  · exact h'

section
variable {s t : State} {c : Instr} {g : Prop} [Decidable g] {o o' : Out}

/-- A command that acts when `g` holds, and meets it. -/
theorem State.goes_of_guard (h : exec c s = s.answer (if g then o else o')) (ho : o = .next t) (hg : g) : s.goes c t := by
  rw [if_pos hg, ho] at h
  exact h

/-- A command that does nothing when `g` holds, and does not meet it. -/
theorem State.goes_past_guard (h : exec c s = s.answer (if g then o else o')) (ho : o' = .next t) (hg : ¬ g) : s.goes c t := by
  rw [if_neg hg, ho] at h
  exact h

end

/-- Settles O4: the conditions of each command decide its guard, and what it then answers is the state of its rule. -/
theorem portGainAndLevelCommandsComplete : Obligations.PortGainAndLevelCommandsComplete := by
  refine ⟨?lpCommit, ?lpCommitApply, ?lpPgaWrite, ?overrangeWindow, ?pgaUpStepRequest, ?pgaStepEffect, ?pgaHeldGrant,
    ?pgaRequestWithdraw, ?watchWindow, ?monBlock⟩
  case lpCommit => exact fun s i w => rfl
  case lpCommitApply =>
    intro s cord c hpend hfree
    refine State.goes_of_guard rfl rfl ?_
    simp [c, hpend, hfree]
  case lpPgaWrite => exact fun s i p w => s.goes_of_answer _ _ (congrArg s.answer (out_ite_next rfl rfl))
  case overrangeWindow =>
    intro s p n o hn hauto
    refine State.goes_past_guard rfl rfl ?_
    simp [hn, hauto]
  case pgaUpStepRequest =>
    intro s p peak cur hauto hup hcur
    refine State.goes_of_guard rfl rfl ?_
    rw [hauto, hup]
    exact decide_eq_true hcur
  case pgaStepEffect =>
    intro s p o up t hstep ht
    refine s.goes_of_answer _ _ (?_ : execPgaStepEffect p s = _)
    simp only [execPgaStepEffect, hstep]
    rw [if_neg (by omega)]
  case pgaHeldGrant =>
    intro s p up hheld
    refine s.goes_of_answer _ _ (?_ : execPgaHeldGrant p s = _)
    simp only [execPgaHeldGrant, hheld]
  case pgaRequestWithdraw =>
    intro s p peak x up hheld due hauto hdue
    refine s.goes_of_answer _ _ (?_ : execPgaRequestWithdraw p peak s = _)
    unfold execPgaRequestWithdraw
    simp only [x, due] at hheld hdue
    simp only [hheld]
    rw [if_pos (by rw [hauto, hdue]; decide)]
  case watchWindow =>
    intro s p a o inWatch hin hlen
    refine State.goes_past_guard rfl (out_ite_next rfl rfl) ?_
    show ¬ (!inWatch || a.words.length != 64) = true
    simp [hin, hlen]
  case monBlock =>
    intro s p adc o n due hst hdue hlen
    refine State.goes_past_guard rfl ?_ ?guard
    case guard =>
      show ¬ (s.portSt p != 3 || !due || adc.length != 128) = true
      simp [hst, hdue, hlen]
    -- `r` is the block's ratio, `u` the state that shows it
    dsimp only [o, n]
    generalize s.monRatio p (s.port p).monN adc = r
    generalize (r.2.putI F.LP_STATUS_MON_RATIO (lpO p) r.1).onPort p (fun x => { x with monN := (s.port p).monN + 1 }) = u
    cases (u.port p).monRef with
    | none => exact out_ite_next rfl rfl
    | some ref =>
      dsimp only
      cases decide (u.get F.LP_MON_CFG_STEP_DB (lpO p) * 40 < (4 * r.1 - ref).natAbs) with
      | false => rfl
      | true => cases (u.port p).monPrev <;> rfl

/-- Settles O5: the conditions of each command decide its guard, and what it then answers is the state of its rule. -/
theorem portTransmissionCommandsComplete : Obligations.PortTransmissionCommandsComplete := by
  refine ⟨?transmissionStart, ?transmissionEnd, ?txExit, ?lrefFault, ?lrefClear, ?lpFlagsClear, ?aenShiftRequest, ?aenShift,
    ?aenLatch, ?aenIdleShift, ?aenTailExpiry, ?maskBlock⟩
  case transmissionStart =>
    intro s p o x planned hplanned en hen
    refine s.goes_of_answer _ _ (?_ : execTransmissionStart p s = _)
    simp only [x] at hplanned hen
    simp only [execTransmissionStart, hplanned, hen]
    exact congrArg s.answer (out_ite_next rfl (out_ite_next rfl rfl))
  case transmissionEnd =>
    intro s p limited o x done hst htx hdone
    refine State.goes_past_guard rfl rfl ?_
    show ¬ (s.portSt p != 3 || x.tx.isEmpty || decide (s.tick < done)) = true
    simp [hst, htx, hdone]
  case txExit =>
    intro s p x t hclear hst htx ht
    refine s.goes_of_answer _ _ (?_ : execTxExit p s = _)
    simp only [x] at hclear htx
    simp only [execTxExit, hclear]
    rw [if_neg (by simp [hst, htx, ht])]
  case lrefFault =>
    intro s cord mv hmv hbit
    refine State.goes_past_guard rfl rfl ?_
    simp [hmv, hbit]
  case lrefClear =>
    intro s cord mv hmv hbit
    refine State.goes_past_guard rfl rfl ?_
    simp [hmv, hbit]
  case lpFlagsClear => exact fun s i p w => s.goes_of_answer _ _ (congrArg s.answer (out_ite_next rfl rfl))
  case aenShiftRequest =>
    intro s p on t0 hown
    refine State.goes_past_guard rfl (out_ite_next rfl (out_ite_next rfl (out_ite_next rfl rfl))) ?_
    simp [hown]
  case aenShift =>
    intro s hown hidle hover hwant
    refine State.goes_of_guard rfl rfl ?_
    simp [hown, hidle, hover, hwant]
  case aenLatch =>
    intro s word t0 hshift ht
    refine s.goes_of_answer _ _ (?_ : execAenLatch s = _)
    simp only [execAenLatch, hshift]
    rw [if_neg (by omega)]
  case aenIdleShift =>
    intro s hown hidle hover
    refine State.goes_of_guard rfl rfl ?_
    simp [hown, hidle, hover]
  case aenTailExpiry =>
    intro s p t hdue ht
    refine s.goes_of_answer _ _ (?_ : execAenTailExpiry p s = _)
    simp only [execAenTailExpiry, hdue]
    rw [if_neg (by omega)]
  case maskBlock =>
    intro s p b o n from' hst hb hblock hsent
    refine State.goes_past_guard rfl ?_ ?guard
    case guard =>
      show ¬ (s.portSt p != 3 || b != n || decide (s.tick < from' + 4096) || decide (s.txSamples p < 256 * (n + 1))) = true
      simp [hst, hb, hblock, hsent]
    dsimp only [o, n]
    generalize (if s.bit F.LP_MASK_CFG_EN (lpO p) = true then s.maskWorst p (s.port p).maskN else none) = worst
    cases worst with
    | none => rfl
    | some x => exact out_ite_next rfl rfl

end Sys2Proof.Machine
end

section
/-! PROOF SUPPORT. The event latches through a raising: the raised one is set, and none is cleared (R425). -/
namespace Sys2Proof.Machine
open Sys2Proof

/-- Every latch that is set in `s` is set in `t`. -/
def State.LatchesKept (s t : State) : Prop := ∀ e, e < 256 → s.evLatched e = true → t.evLatched e = true

theorem State.LatchesKept.refl (s : State) : s.LatchesKept s := fun _ _ h => h

/-- A source register does not stand among the latch words. -/
theorem not_latch_of_evSrcAddr {e a : Nat} (h : evSrcAddr e = some a) : a < 0x010000 ∨ 0x010020 ≤ a := by
  obtain ⟨r, hr, rfl⟩ := Option.map_eq_some_iff.mp h
  have hin := List.find?_some hr
  simp only [Bool.and_eq_true, decide_eq_true_eq] at hin
  have hall : ∀ r ∈ evSrcRanges, r.2.2 + 4 * (r.2.1 - r.1) < 0x010000 ∨ 0x010020 ≤ r.2.2 := by decide
  have := hall r (List.mem_of_find?_eq_some hr)
  omega

theorem State.evLatched_setLive_other (s : State) {b : Nat} (w : Word) (hb : b < 0x010000 ∨ 0x010020 ≤ b) {e : Nat} (he : e < 256) :
    (s.setLive b w).evLatched e = s.evLatched e := by
  unfold State.evLatched
  rw [State.live_setLive_other _ _ _ _ (by omega)]

theorem State.evLatched_settle (s : State) {e : Nat} (he : e < 256) : s.settle.evLatched e = s.evLatched e := by
  have hall : ∀ a ∈ settledAddrs, a < 0x010000 ∨ 0x010020 ≤ a := by decide
  unfold State.evLatched
  rw [State.live_settle_other _ _ fun h => by have := hall _ h; omega]

/-- The write by which a raising of `e` begins. -/
def State.latch (s : State) (e : Nat) : State :=
  s.setLive (0x010000 + 4 * (e / 32)) (s.live (0x010000 + 4 * (e / 32)) ||| bitsMask (e % 32) (e % 32))

theorem State.evLatched_latch (s : State) (e : Nat) : (s.latch e).evLatched e = true := by
  have hmask : (bitsMask (e % 32) (e % 32)).getLsbD (e % 32) = true := by
    rw [bitsMask_getLsbD _ _ _ (by omega)]
    simp
  simp [State.evLatched, State.latch, hmask]

theorem State.latchesKept_latch (s : State) (e : Nat) : s.LatchesKept (s.latch e) := by
  intro x _ hx
  unfold State.evLatched at hx
  by_cases hw : x / 32 = e / 32
  · rw [hw] at hx
    simp [State.evLatched, State.latch, hw, hx]
  · unfold State.evLatched State.latch
    rwa [State.live_setLive_other _ _ _ _ (by omega)]

/-! What keeps the latches once more keeps them. -/
section
variable {s t : State} (h : s.LatchesKept t)
include h

theorem State.LatchesKept.of_regs {u : State} (hu : u.regs = t.regs) : s.LatchesKept u := fun x hx hs => by
  have := h x hx hs
  unfold State.evLatched State.live at this ⊢
  rwa [hu]

theorem State.LatchesKept.rates (l : Table EvRate) : s.LatchesKept { t with rates := l } := h.of_regs rfl
theorem State.LatchesKept.onJob (k : Nat) (f : JobS → JobS) : s.LatchesKept (t.onJob k f) := h.of_regs rfl
theorem State.LatchesKept.jobStatus (k : Nat) : s.LatchesKept (t.jobStatus k) := h.of_regs rfl
theorem State.LatchesKept.nearArmed (b : Bool) : s.LatchesKept { t with nearArmed := b } := h.of_regs rfl

theorem State.LatchesKept.setLive {b : Nat} (w : Word) (hb : b < 0x010000 ∨ 0x010020 ≤ b := by decide) : s.LatchesKept (t.setLive b w) :=
  fun x hx hs => (t.evLatched_setLive_other w hb hx).trans (h x hx hs)

theorem State.LatchesKept.put {f : Fld} {o : Nat} (v : Nat) (hf : 0x010020 ≤ f.addr := by decide) : s.LatchesKept (t.put f o v) :=
  h.setLive _ (.inr (hf.trans (Nat.le_add_right _ _)))

theorem State.LatchesKept.logProtect (en : LogEntry) : s.LatchesKept (t.logProtect en).1 := by
  unfold State.logProtect
  dsimp only
  split
  · exact h
  · split
    · exact ((h.of_regs rfl).put _).put _
    · exact (h.put _).of_regs rfl

theorem State.LatchesKept.logPut (src code sev iface set : Nat) (data : List Byte) (time : Nat) :
    s.LatchesKept (t.logPut src code sev iface set data time).1 := by
  unfold State.logPut
  split
  · exact h
  · extract_lets en old s1 s2 s3
    have h1 : s.LatchesKept s1 := by
      show s.LatchesKept (if _ then _ else _)
      split
      · exact (h.put _).put _
      · exact h
    have h3 : s.LatchesKept s3 := ((h1.of_regs rfl).put _).put _
    clear_value s3
    split
    · exact h3.logProtect _
    · exact h3

theorem State.LatchesKept.deliver (e n first last : Nat) (own : Bool) : s.LatchesKept (t.deliver e n first last own).1 := by
  unfold State.deliver
  extract_lets k body u
  have hu : s.LatchesKept u := by
    show s.LatchesKept (if _ then _ else _)
    split
    · exact h.of_regs rfl
    · exact h
  split
  · exact hu.logPut _ _ _ _ _ _ _
  · exact hu

theorem State.LatchesKept.latch (e : Nat) : s.LatchesKept (t.latch e) :=
  fun x hx hs => t.latchesKept_latch e x hx (h x hx hs)

theorem State.LatchesKept.jobStart (kind prio origin cmdId : Nat) (params : List Nat) (total : Nat) (own : Bool) :
    s.LatchesKept (t.jobStart kind prio origin cmdId params total own).1 := by
  unfold State.jobStart
  split
  · exact h
  · extract_lets o busy s1 s2 s3 s4 span s5 s6
    have h3 : s.LatchesKept s3 :=
      ((((((((h.setLive 0 (.inr (Nat.le_add_right_of_le (by decide)))).put _).put _).put _).put _).put _).put _).put _)
    have h4 : s.LatchesKept s4 :=
      List.foldlRecOn (motive := fun u => s.LatchesKept u) _ _ h3 fun u hu j _ => hu.put _
    clear_value s4
    exact ((h4.onJob _ _).put _).jobStatus _

end

/-- After its latch, a raising writes no latch word. -/
theorem State.latchesKept_raise0_of_latch (s : State) (e src : Nat) (own : Bool) : (s.latch e).LatchesKept (s.raise0 e src own).1 := by
  unfold State.raise0
  extract_lets a s1 s2 s3 s4
  have h3 : (s.latch e).LatchesKept s3 := ((((State.LatchesKept.refl s1).put _).put _).setLive _).setLive _
  have h4 : (s.latch e).LatchesKept s4 := by
    show (s.latch e).LatchesKept (match evSrcAddr e with | some r => _ | none => _)
    split
    next r hr => exact h3.setLive _ (not_latch_of_evSrcAddr hr)
    · exact h3
  clear_value s4
  split
  · exact h4
  · split
    · exact (h4.rates _).deliver _ _ _ _ _
    · exact h4.rates _

theorem State.LatchesKept.raise0 {s t : State} (h : s.LatchesKept t) (e src : Nat) (own : Bool) : s.LatchesKept (t.raise0 e src own).1 :=
  fun x hx hs => t.latchesKept_raise0_of_latch e src own x hx (h.latch e x hx hs)

theorem State.LatchesKept.logDues {s t : State} (h : s.LatchesKept t) (due : Bool) : s.LatchesKept (t.logDues due) := by
  unfold State.logDues
  dsimp only
  generalize hu : (if due = true then (t.raise0 Ev.LOG_PROTECTED_FULL 0).1 else t) = u
  have hsu : s.LatchesKept u := by
    rw [← hu]
    split
    · exact h.raise0 _ _ _
    · exact h
  split
  · generalize hv : ({ u with nearArmed := false }.raise0 Ev.LOG_NEAR_FULL (u.get F.LOG_STAT_UNEXPORTED)).1 = v
    have hsv : s.LatchesKept v := by
      rw [← hv]
      exact (hsu.nearArmed _).raise0 _ _ _
    split
    · have hjob := hsv.jobStart 5 0 4 0 [0, 0] (((v.logSpan true []).2 + 31) / 32) true
      split
      · exact hjob
      · exact hjob.raise0 _ _ _
    · exact hsv
  · split
    · exact hsu
    · exact hsu.nearArmed _

theorem State.LatchesKept.raise {s t : State} (h : s.LatchesKept t) (e src : Nat) : s.LatchesKept (t.raise e src) :=
  (h.raise0 e src false).logDues _

/-- A raising sets the latch of its source. -/
theorem State.evLatched_raise (s : State) {e : Nat} (he : e < 256) (src : Nat) : (s.raise e src).evLatched e = true :=
  (s.latchesKept_raise0_of_latch e src false).logDues _ e he (s.evLatched_latch e)

end Sys2Proof.Machine
end

section
/-! PROOF SUPPORT. The coefficient memories (R58, R60): what a write of one word stores, and what leaves them alone. -/
namespace Sys2Proof.Machine
open Sys2Proof

/-- The coefficient at place `n` of the memories, 65,536 places each (R58). -/
def State.coef (s : State) (n : Nat) : BitVec 18 := tget (fun _ => 0) s.coefs n

theorem State.EventOnly.coefs {s t : State} (h : s.EventOnly t) : t.coefs = s.coefs := h.field State.coefs fun _ _ _ _ _ _ _ _ => rfl

/-- The write log holds no coefficient (R423). -/
@[simp] theorem State.coefs_wlogNote (s : State) (i : Iface) (a : Nat) (w : Word) : (s.wlogNote i a w).coefs = s.coefs := by
  unfold State.wlogNote
  split
  · rfl
  · extract_lets w' same s1 s2
    split
    · rfl
    · show (match s.wlog with | e :: l => _ | [] => _ : State).coefs = _
      split
      next e l _ =>
        split
        · exact (State.eventOnly_wlogClose { s with wlog := l } e).coefs
        · rfl
      · rfl

@[simp] theorem State.coefs_coefBusy (s : State) (m : Nat) : (s.coefBusy m).coefs = s.coefs :=
  (State.eventOnly_raise _ _ _).coefs

theorem State.evLatched_coefBusy (s : State) (m : Nat) : (s.coefBusy m).evLatched Ev.FC_COEF_BUSY = true :=
  State.evLatched_raise _ (by decide) _

theorem State.coefStore_of_inUse {s : State} {m n : Nat} (h : s.wordInUse m n = true) (v : BitVec 18) :
    s.coefStore m n v = s.coefBusy m := if_pos h

theorem State.coef_coefStore_of_free {s : State} {m n : Nat} (h : s.wordInUse m n = false) (v : BitVec 18) (j : Nat) :
    (s.coefStore m n v).coef j = if j = m * 65536 + n then v else s.coef j := by
  rw [State.coefStore, if_neg (by simp [h])]
  exact tget_tset _ _ _ _ _

theorem State.coef_coefStore_of_inUse {s : State} {m n : Nat} (h : s.wordInUse m n = true) (v : BitVec 18) (j : Nat) :
    (s.coefStore m n v).coef j = s.coef j := by
  rw [State.coefStore_of_inUse h, State.coef, State.coefs_coefBusy, State.coef]

theorem State.coef_coefStore_other (s : State) (m n : Nat) (v : BitVec 18) {j : Nat} (hj : j ≠ m * 65536 + n) :
    (s.coefStore m n v).coef j = s.coef j := by
  cases h : s.wordInUse m n with
  | true => exact State.coef_coefStore_of_inUse h v j
  | false => rw [State.coef_coefStore_of_free h, if_neg hj]

/-- The status registers that follow, and the queue put back, leave the coefficients. -/
theorem State.coef_answered (t : State) (q : List Instr) (n : Nat) : ({ t.settle with pending := q } : State).coef n = t.coef n :=
  t.settle_only.field (fun u => u.coef n) fun _ _ => rfl

@[simp] theorem State.coef_wlogNote (s : State) (i : Iface) (a : Nat) (w : Word) (n : Nat) : (s.wlogNote i a w).coef n = s.coef n := by
  rw [State.coef, State.coefs_wlogNote, State.coef]

theorem coefWrite_goes (s : State) (i : Iface) (m : Fin 9) (k : BitVec 16) (w : Word) :
    s.goes (.coefWrite i m k w)
      ((s.wlogNote i (0x400000 + 0x40000 * m.val + 4 * k.toNat) w).coefStore m.val k.toNat (w.setWidth 18)) := rfl

/-- Settles O54: the answer shows the word as `coefStore` leaves it, and a refused write has raised EV043. -/
theorem coefficientWriteStoresOneWord : Obligations.CoefficientWriteStoresOneWord := by
  intro s i m k w u coef
  have hu : ∀ n, u.coef n = s.coef n := s.coef_wlogNote _ _ _
  refine ⟨_, coefWrite_goes s i m k w, fun n hn => ?_, fun hfree => ?_, fun huse => ⟨?_, ?_⟩⟩
  · show State.coef _ n = State.coef s n
    rw [State.coef_answered, State.coef_coefStore_other _ _ _ _ hn, hu]
  · show State.coef _ _ = _
    rw [State.coef_answered, State.coef_coefStore_of_free hfree, if_pos rfl]
  · show State.coef _ _ = State.coef s _
    rw [State.coef_answered, State.coef_coefStore_of_inUse huse, hu]
  · show (u.coefStore m.val k.toNat (w.setWidth 18)).settle.evLatched _ = true
    rw [State.evLatched_settle _ (by decide), State.coefStore_of_inUse huse, State.evLatched_coefBusy]

end Sys2Proof.Machine
end

section
/-! PROOF SUPPORT. What the commands of the filter chains answer when their conditions hold (R55 to R78). -/
namespace Sys2Proof.Machine
open Sys2Proof

/-- Settles O6: the conditions of each command decide its guard, and what it then answers is the state of its rule. -/
theorem filterChainCommandsComplete : Obligations.FilterChainCommandsComplete := by
  refine ⟨?chainOutput, ?chainSettled, ?fadeEnd, ?fcSwap, ?swapStart, ?fcCommit, ?fcCommitApply, ?coefWrite, ?fcAuxDataAccess,
    ?fcSetDirWrite, ?fcSyncCmd, ?syncRestart⟩
  case chainOutput => exact fun s c ins => rfl
  case chainSettled =>
    intro s c ins x hset hheld hdelay
    refine State.goes_of_guard rfl rfl ?_
    show (!s.bit F.FC_STATUS_SETTLED (fcO c.val) && !x.held && decide (x.settleN ≤ x.outs)) = true
    simp [hset, hheld, hdelay]
  case fadeEnd => exact fun s c => rfl
  case fcSwap =>
    exact fun s i c w => s.goes_of_answer _ _ (congrArg s.answer (out_ite_next rfl (out_ite_next rfl (out_ite_next rfl rfl))))
  case swapStart =>
    intro s c hbound hidle
    refine State.goes_of_guard rfl rfl ?_
    simp [hbound, hidle]
  case fcCommit => exact fun s i w => s.goes_of_answer _ _ (congrArg s.answer (out_ite_next rfl rfl))
  case fcCommitApply => exact fun s c hbound => State.goes_of_guard rfl rfl hbound
  case coefWrite => exact coefWrite_goes
  case fcAuxDataAccess => exact fun s i wr => s.goes_of_answer _ _ (congrArg s.answer (out_ite_next rfl rfl))
  case fcSetDirWrite => exact fun s i m k w => s.goes_of_answer _ _ (congrArg s.answer (out_ite_next rfl rfl))
  case fcSyncCmd => exact fun s i w => rfl
  case syncRestart =>
    intro s g t d hfind ht hdone
    refine s.goes_of_answer _ _ (?_ : execSyncRestart g t s = _)
    simp only [execSyncRestart, hfind]
    rw [if_neg (by simp [hdone, ht])]
    exact congrArg s.answer (out_ite_next rfl rfl)

end Sys2Proof.Machine
end

section
/-! PROOF SUPPORT. What the commands of the strand receivers answer when their conditions hold (R82 to R88, R100, R101, R107, R110, R111). -/
namespace Sys2Proof.Machine
open Sys2Proof

/-- Settles O7: the conditions of each command decide its guard, and what it then answers is the state of its rule. -/
theorem strandCommandsComplete : Obligations.StrandCommandsComplete := by
  refine ⟨?listenWindowOpen, ?listenWindowClose, ?halfSymbolEvaluation, ?symbolBoundary, ?qualifyTimeout, ?qualifyLevelDrop,
    ?strSyncTimeout, ?levelLost, ?headerVerdict, ?frameSymbolsDelivered, ?replayStart, ?replayLive, ?strCommit, ?strCommitApply,
    ?strCntClr⟩
  case listenWindowOpen =>
    intro s r n hclosed
    refine State.goes_past_guard rfl ?_ (by simp [n, hclosed])
    dsimp only [n]
    cases s.windowNow r.val <;> rfl
  case listenWindowClose =>
    intro s r n x early hopen hdue
    refine State.goes_past_guard rfl (out_ite_next rfl rfl) ?_
    show ¬ (!x.listen || early) = true
    simp [hopen, hdue]
  case halfSymbolEvaluation =>
    intro s r t n x hwait hdue htx hst
    refine State.goes_past_guard rfl (out_ite_next rfl ?_) ?guard
    case guard =>
      show ¬ (x.replayWait.isSome || !s.evalDue n t || s.rxTxStarts n || (s.rxSt n != 1 && s.rxSt n != 2)) = true
      simp [hwait, hdue, htx, hst]
    dsimp only [n]
    cases s.symAt r.val 0 t with
    | none => rfl
    | some o => exact out_ite_next (out_ite_next rfl rfl) rfl
  case symbolBoundary =>
    intro s r t n hst hat hreads hfull htx
    refine State.goes_past_guard rfl (out_ite_next rfl ?_) ?guard
    case guard =>
      show ¬ (decide (s.rxSt n < 2) || !s.boundaryAt n t || !s.rxReads n t || s.frameFull n || s.rxTxStarts n) = true
      simpa [hat, hreads, hfull, htx] using Nat.lt_of_succ_le hst
    dsimp only [n]
    cases s.symAt r.val 0 t with
    | none => rfl
    | some o =>
      -- `k` is the receiver's state, by which the symbol is taken
      dsimp only
      generalize s.rxSt r.val = k
      match k with
      | 0 | 1 | 2 | 3 | _ + 4 => rfl
  case qualifyTimeout =>
    intro s r n hst hlate
    exact State.goes_of_guard rfl rfl (by simp [n, hst, hlate])
  case qualifyLevelDrop =>
    intro s r n hst hlow
    exact State.goes_of_guard rfl rfl (by simp [n, hst, hlow])
  case strSyncTimeout =>
    intro s r n hst hlate
    exact State.goes_of_guard rfl rfl (by simp [n, hst, hlate])
  case levelLost =>
    intro s r n hst hlow
    exact State.goes_of_guard rfl rfl (by simp [n, hst, hlow])
  case headerVerdict =>
    intro s r n hst hlen htx
    refine State.goes_past_guard rfl (out_ite_next rfl rfl) ?_
    simp [n, hst, hlen, htx]
  case frameSymbolsDelivered =>
    intro s r t n hfull ht htx
    refine State.goes_past_guard rfl ?_ (by simp [n, hfull, ht, htx])
    -- `u` is the state in which the frame has ended
    dsimp only [n]
    generalize (s.rxEnd r.val 1).blankLast r.val = u
    cases u.combOf r.val with
    | none => rfl
    | some c => exact out_ite_next rfl rfl
  case replayStart =>
    intro s r n cap hwait hdue
    refine s.goes_of_answer _ _ (?_ : execReplayStart r s = _)
    dsimp only [n] at hwait hdue
    simp only [execReplayStart, n, hwait, hdue, if_true]
  case replayLive =>
    intro s r n hreplay hlive
    refine State.goes_past_guard rfl (out_ite_next rfl rfl) ?_
    simp [n, hreplay, hlive]
  case strCommit => exact fun s i w => s.goes_of_answer _ _ (congrArg s.answer (out_ite_next rfl rfl))
  case strCommitApply => exact fun s r => rfl
  case strCntClr => exact fun s i w => s.goes_of_answer _ _ (congrArg s.answer (out_ite_next rfl (out_ite_next rfl rfl)))

end Sys2Proof.Machine
end

section
/-! PROOF SUPPORT. Rows of bits and bytes that carry several numbers: a field reads as the number it was written from. -/
namespace Sys2Proof.Machine
open Sys2Proof

/-- The low `n` bits of `v`, least significant first. -/
def numBits (v n : Nat) : List Bool := (List.range n).map (fun k => Nat.testBit v k)

@[simp] theorem length_numBits (v n : Nat) : (numBits v n).length = n := by simp [numBits]

@[simp] theorem drop_numBits_past {v n k : Nat} (h : n ≤ k) : (numBits v n).drop k = [] :=
  List.drop_of_length_le (by simpa using h)

theorem numBits_succ (v n : Nat) : numBits v (n + 1) = decide (v % 2 = 1) :: numBits (v / 2) n := by
  simp [numBits, List.range_succ_eq_map, Nat.testBit_succ, Function.comp_def]

/-- Bits spell the number they were taken from. -/
@[simp] theorem bitsNum_numBits (v n : Nat) : bitsNum (numBits v n) = v % 2 ^ n := by
  induction n generalizing v with
  | zero => simp [numBits, bitsNum, Nat.mod_one]
  | succ n ih =>
    have hbit : (if v % 2 = 1 then 1 else 0) = v % 2 := by split <;> omega
    simp [numBits_succ, bitsNum, ih, hbit, Nat.pow_succ', Nat.mod_mul]

@[simp] theorem length_leBytes (v n : Nat) : (le v n).length = n := by simp [le]

@[simp] theorem drop_leBytes_past {v n k : Nat} (h : n ≤ k) : (le v n).drop k = [] :=
  List.drop_of_length_le (by simpa using h)

theorem leBytes_succ (v n : Nat) : le v (n + 1) = BitVec.ofNat 8 v :: le (v / 256) n := by
  simp [le, List.range_succ_eq_map, Nat.pow_succ', Nat.div_div_eq_div_mul]

/-- Bytes spell the number they were taken from. -/
@[simp] theorem ofLe_leBytes (v n : Nat) : ofLe (le v n) = v % 256 ^ n := by
  induction n generalizing v with
  | zero => simp [le, ofLe, Nat.mod_one]
  | succ n ih => simp [leBytes_succ, ofLe, ih, Nat.pow_succ', Nat.mod_mul]

end Sys2Proof.Machine
end

section
/-! PROOF SUPPORT. The header of a frame: its bits spell its fields (R128), and a pair of soft values of opposite signs carries
its bit whatever the weights (R129). -/
namespace Sys2Proof.Machine
open Sys2Proof

@[simp] theorem length_crc16Sent (c : BitVec 16) : (crc16Sent c).length = 16 := by simp [crc16Sent]

theorem hdrBits_eq (h : PhyHdr) : hdrBits h = numBits h.length 11 ++ numBits h.rate 3 ++ numBits h.levels 1 ++ numBits h.coding 2
    ++ numBits h.version 2 ++ [h.block] ++ numBits (if h.block then h.blockMap else 0) 8 := rfl

@[simp] theorem length_hdrBits (h : PhyHdr) : (hdrBits h).length = 28 := by simp [hdrBits_eq]

/-- The fields read back from the header's bits, whatever follows them. -/
theorem hdrOf_hdrBits {h : PhyHdr} (c : List Bool) (hlen : h.length < 2048) (hrate : h.rate < 8) (hlev : h.levels < 2)
    (hcod : h.coding < 4) (hver : h.version < 4) (hmap : h.blockMap < 256) (hblk : h.block = false → h.blockMap = 0) :
    hdrOf (hdrBits h ++ c) = h := by
  have hblock : (bitsNum [h.block] == 1) = h.block := by cases h.block <;> rfl
  have hsent : (if h.block then h.blockMap else 0) = h.blockMap := by
    cases hb : h.block
    · exact (hblk hb).symm
    · rfl
  simp [hdrOf, hdrBits_eq, List.drop_append, List.take_append, hblock, hsent, Nat.mod_eq_of_lt hlen, Nat.mod_eq_of_lt hrate,
    Nat.mod_eq_of_lt hlev, Nat.mod_eq_of_lt hcod, Nat.mod_eq_of_lt hver, Nat.mod_eq_of_lt hmap]

/-- The two soft values of bit `i`, sent as itself and then inverted, of weights `q (2 * i)` and `q (2 * i + 1)`. -/
def softPair (q : Nat → Nat) (bit : Nat → Bool) (i : Nat) : List (Int × Nat) :=
  let v : Int := if bit i then 1 else -1
  [(v, q (2 * i)), (-v, q (2 * i + 1))]

/-- The weights of a pair add up: their sum decides, with the sign of the bit. -/
theorem repBits_softPair_append {q : Nat → Nat} {i : Nat} (hq : 0 < q (2 * i) + q (2 * i + 1)) (bit : Nat → Bool)
    (t : List (Int × Nat)) : repBits (softPair q bit i ++ t) = bit i :: repBits t := by
  refine congrArg (· :: repBits t) ?_
  dsimp only
  cases bit i
  · exact decide_eq_false (by simp)
  · exact decide_eq_true (by simp; omega)

theorem repBits_softPairs {q : Nat → Nat} (hq : ∀ i, 0 < q (2 * i) + q (2 * i + 1)) (bit : Nat → Bool) (l : List Nat) :
    repBits (l.flatMap (softPair q bit)) = l.map bit := by
  induction l with
  | nil => rfl
  | cons i t ih => rw [List.flatMap_cons, repBits_softPair_append (hq i), ih, List.map_cons]

theorem length_softPairs (q : Nat → Nat) (bit : Nat → Bool) (l : List Nat) :
    (l.flatMap (softPair q bit)).length = l.length * 2 := by
  simp [List.length_flatMap, softPair]

theorem map_getD_range {α : Type} (l : List α) (d : α) : (List.range l.length).map (l.getD · d) = l :=
  List.ext_getElem (by simp) fun i _ hi => by simp [hi]

/-- Settles O56: the pairs of soft values carry the header's bits and the CRC that was computed over them. -/
theorem headerDecodesItsEncoding : Obligations.HeaderDecodesItsEncoding := by
  intro h q hlen hrate hlev hcod hver hmap hblk hq bits
  have hbits : bits.length = 44 := by simp [bits]
  have hrep : repBits (((List.range 44).flatMap (softPair q (bits.getD · false))).take 88) = bits := by
    rw [List.take_of_length_le (by rw [length_softPairs, List.length_range]), repBits_softPairs hq, ← hbits, map_getD_range]
  have hcrc : bits.drop 28 = crc16Sent (crc16 (bits.take 28)) := by simp [bits]
  calc hdrDecode ((List.range 44).flatMap (softPair q (bits.getD · false)))
      = (hdrOf bits, decide (bits.drop 28 = crc16Sent (crc16 (bits.take 28)))) := by rw [hdrDecode, hrep]
    _ = (h, true) := Prod.ext (hdrOf_hdrBits _ hlen hrate hlev hcod hver hmap hblk) (decide_eq_true hcrc)

end Sys2Proof.Machine
end

section
/-! PROOF SUPPORT. The interleaver and its inverse (R135): the bit in column `f` of row `e` is transmitted in place
`f * 8 + e`. -/
namespace Sys2Proof.Machine
open Sys2Proof

@[simp] theorem length_interleave (l : List Bool) : (interleave l).length = l.length := by simp [interleave]

@[simp] theorem length_deinterleave (l : List (Int × Nat)) : (deinterleave l).length = l.length := by simp [deinterleave]

/-- A place among `8 * r` lies in one of 8 rows and one of `r` columns. -/
theorem exists_row_col {r i : Nat} (hi : i < 8 * r) : ∃ e f, e < 8 ∧ f < r ∧ i = e * r + f :=
  have hr : 0 < r := by omega
  ⟨i / r, i % r, Nat.div_lt_of_lt_mul (Nat.mul_comm 8 r ▸ hi), Nat.mod_lt i hr, (Nat.div_add_mod' i r).symm⟩

section
variable {r e f : Nat} (he : e < 8) (hf : f < r)
include he hf

theorem place_lt : f * 8 + e < 8 * r := by omega

theorem interleave_getElem? {l : List Bool} (hl : l.length = 8 * r) : (interleave l)[f * 8 + e]? = l[e * r + f]? := by
  have hrow : (f * 8 + e) % 8 = e := by omega
  have hcol : (f * 8 + e) / 8 = f := by omega
  have hi : e * r + f < l.length := by nlinarith
  simp [interleave, hl, hrow, hcol, place_lt he hf, List.getElem?_eq_getElem hi]

theorem deinterleave_getElem? {l : List (Int × Nat)} (hl : l.length = 8 * r) : (deinterleave l)[e * r + f]? = l[f * 8 + e]? := by
  have hr : 0 < r := by omega
  have hrow : (e * r + f) / r = e := by rw [Nat.mul_comm, Nat.mul_add_div hr, Nat.div_eq_of_lt hf, Nat.add_zero]
  have hcol : (e * r + f) % r = f := by rw [Nat.mul_comm, Nat.mul_add_mod, Nat.mod_eq_of_lt hf]
  have hi : e * r + f < 8 * r := by nlinarith
  have hj : f * 8 + e < l.length := by omega
  simp [deinterleave, hl, hrow, hcol, hi, List.getElem?_eq_getElem hj]

end

/-- Settles O57: the de-interleaver takes each value back from the place to which the interleaver sent it. -/
theorem deinterleaverUndoesInterleaver : Obligations.DeinterleaverUndoesInterleaver := by
  intro l soft h8
  obtain ⟨r, hr⟩ : ∃ r, l.length = 8 * r := Nat.dvd_of_mod_eq_zero h8
  refine List.ext_getElem? fun i => ?_
  by_cases hi : i < 8 * r
  · obtain ⟨e, f, he, hf, rfl⟩ := exists_row_col hi
    rw [deinterleave_getElem? he hf (by simpa using hr), List.getElem?_map, interleave_getElem? he hf hr, List.getElem?_map]
  · have hlen : l.length ≤ i := by omega
    simp [hlen]

end Sys2Proof.Machine
end

section
/-! PROOF SUPPORT. The MAC header reads back from its bytes (R131). -/
namespace Sys2Proof.Machine
open Sys2Proof

/-- The first byte of the MAC header: the frame type and three flags. -/
def macControl (h : Mac) : Nat :=
  h.ftype + (if h.secured then 16 else 0) + (if h.dir then 32 else 0) + (if h.routed then 64 else 0)

theorem macBytes_eq (h : Mac) : macBytes h = le (macControl h) 1 ++ le h.dest 2 ++ le h.src 2 ++ le h.counter 4
    ++ le (h.epoch4 % 16 + 16 * (h.purpose % 4)) 1 := rfl

theorem macControl_eq (h : Mac) :
    macControl h = h.ftype + 16 * h.secured.toNat + 32 * h.dir.toNat + 64 * h.routed.toNat := by
  have hflag (b : Bool) (n : Nat) : (if b then n else 0) = n * b.toNat := by cases b <;> simp
  simp only [macControl, hflag]

theorem testBit_of_div_mod {n k : Nat} {b : Bool} (h : n / 2 ^ k % 2 = b.toNat) : n.testBit k = b := by
  rw [Nat.testBit_eq_decide_div_mod_eq, h]
  cases b <;> rfl

/-- The control byte holds the frame type below its flags. -/
theorem macControl_fields {h : Mac} (hf : h.ftype < 16) : macControl h < 256 ∧ macControl h % 16 = h.ftype
    ∧ (macControl h).testBit 4 = h.secured ∧ (macControl h).testBit 5 = h.dir ∧ (macControl h).testBit 6 = h.routed := by
  have hs := h.secured.toNat_le
  have hd := h.dir.toNat_le
  have hr := h.routed.toNat_le
  rw [macControl_eq]
  exact ⟨by omega, by omega, testBit_of_div_mod (by omega), testBit_of_div_mod (by omega), testBit_of_div_mod (by omega)⟩

/-- Settles O58: each field stands in its own bytes, or its own bits of the first and the last byte. -/
theorem macHeaderReadsBack : Obligations.MacHeaderReadsBack := by
  intro h rest hftype hdest hsrc hcounter hepoch hpurpose
  obtain ⟨hbyte, htype, hsec, hdir, hrouted⟩ := macControl_fields hftype
  have hlast : (h.epoch4 + 16 * h.purpose) % 256 / 16 % 4 = h.purpose := by omega
  norm_num at hdest hsrc hcounter
  simp [macOf, macBytes_eq, List.drop_append, Nat.mod_eq_of_lt, *]

end Sys2Proof.Machine
end

section
/-! PROOF SUPPORT. What the commands of frame decoding and of the mains answer when their conditions hold (R23, R139 to R180, R322). -/
namespace Sys2Proof.Machine
open Sys2Proof

/-- Settles O8: the conditions of each command decide its guard, and what it then answers is the state of its rule. -/
theorem frameAndMainsCommandsComplete : Obligations.FrameAndMainsCommandsComplete := by
  refine ⟨?deinterleaveDone, ?viterbiDecodeStart, ?viterbiDecodeDone, ?ccmVerifyDone, ?meterPhaseReport, ?mainsCoastTimeout,
    ?phaseAbsent, ?predictedCycleStart, ?binEnd, ?mapWindow, ?mnsPortClear, ?mnsCommit, ?mnsCommitApply⟩
  case deinterleaveDone =>
    intro s r b0 hfind
    refine s.goes_of_answer _ _ (?_ : execDeinterleaveDone r s = _)
    simp only [execDeinterleaveDone, hfind]
    exact congrArg s.answer (out_ite_next rfl (out_ite_next (out_ite_next rfl rfl) (out_ite_next rfl rfl)))
  case viterbiDecodeStart =>
    intro s u hfree hmark
    refine State.goes_past_guard rfl ?_ (by simp [hfree, hmark])
    cases nextBody s.bodies <;> rfl
  case viterbiDecodeDone =>
    intro s u b hbody
    refine s.goes_of_answer _ _ (?_ : execViterbiDecodeDone u s = _)
    simp only [execViterbiDecodeDone, hbody]
    cases b.blockNo <;> rfl
  case ccmVerifyDone =>
    intro s mismatch hup w hnext
    refine State.goes_past_guard rfl ?_ (by simp [hup])
    simp only [hnext]
    refine out_ite_next (out_ite_next rfl rfl) ?_
    -- `u` is the state in which the record has left the queue
    generalize ({ s with macWait := s.macWait.erase w, cip := { s.cip with flight := 0 } } : State) = u
    cases u.rxEpoch (macOf w.mpdu).src (macOf w.mpdu) with
    | none => rfl
    | some e => exact out_ite_next rfl rfl
  case meterPhaseReport =>
    intro s
    refine s.goes_of_answer _ _ (?_ : execMeterPhaseReport s = _)
    unfold execMeterPhaseReport
    cases s.phaseReps.find? (fun e => e.judged.isNone && s.phaseReady e) with
    | some e => rfl
    | none =>
      dsimp only
      cases s.phaseReps.find? (fun e => e.judged.isSome && (s.leaseTry e.session (plannerOf (e.port / 16))).2) <;> rfl
  case mainsCoastTimeout =>
    intro s a o p z hz hst hlate
    refine s.goes_of_answer _ _ (?_ : execMainsCoastTimeout a s = _)
    simp only [execMainsCoastTimeout, hz]
    rw [if_pos ⟨hst, hlate⟩]
  case phaseAbsent =>
    intro s a ph o p0 p t hx hbit hlate
    refine s.goes_of_answer _ _ (?_ : execPhaseAbsent a ph s = _)
    simp only [execPhaseAbsent, hx]
    have hguard : (s.bitAt F.MNS_SET_STAT o (2 + ph.val) && decide (t + 3 * p ≤ s.tick)) = true := by simp [hbit, hlate]
    rw [if_pos hguard]
  case predictedCycleStart =>
    intro s a o p z hz t hst hp hdue
    refine s.goes_of_answer _ _ (?_ : execPredictedCycleStart a s = _)
    simp only [execPredictedCycleStart, hz]
    rw [if_pos ⟨hst, hp, hdue⟩]
  case binEnd =>
    exact fun s p b => s.goes_of_answer _ _ (congrArg s.answer (out_ite_next rfl (out_ite_next rfl rfl)))
  case mapWindow =>
    intro s p a n st hlen hst
    refine State.goes_past_guard rfl rfl ?_
    show ¬ (a.words.length != 64 || !(st == 1 || st == 2 || st == 4)) = true
    simp [hlen, hst]
  case mnsPortClear => exact fun s i p w => rfl
  case mnsCommit => exact fun s i w => rfl
  case mnsCommitApply =>
    intro s c g n a hpend mem hfree
    have hall : (if mem.any s.frozen then s else s.applyInst 5 n) = s.applyInst 5 n := if_neg (by simp [hfree])
    exact State.goes_of_guard rfl (congrArg _ hall) hpend

end Sys2Proof.Machine
end

section
/-! PROOF SUPPORT. What the commands of the poll planner answer when their conditions hold (R187 to R214). -/
namespace Sys2Proof.Machine
open Sys2Proof

/-- Settles O9: each condition decides a guard, or says which round, sweep or association the command's search finds; what is then
answered is the state of the rule. -/
theorem plannerRoundCommandsComplete : Obligations.PlannerRoundCommandsComplete := by
  refine ⟨?roundFix, ?roundDelayed, ?laterFramesSend, ?readDue, ?readOverdue, ?planOverload, ?unreachablePollDue,
    ?discoverySweepDue, ?phasePollDue, ?sweepEnd, ?assocRefuseHoldEnd, ?assignTriesExhausted⟩
  case roundFix =>
    intro s cord members
    refine s.goes_of_answer _ _ (congrArg s.answer (out_ite_next rfl (out_ite_next rfl ?_)))
    -- `o` is the round instant, with the round's end
    generalize State.roundTimes _ _ = o
    cases o <;> rfl
  case roundDelayed =>
    intro s cord waits late r hfind
    refine s.goes_of_answer _ _ (?_ : execRoundDelayed cord s = _)
    simp only [waits, late] at hfind
    simp only [execRoundDelayed, hfind]
  case laterFramesSend =>
    intro s cord ready r hfind xs len longest t0 en guard next clear hclear
    refine s.goes_of_answer _ _ (?_ : execLaterFramesSend cord s = _)
    simp only [ready] at hfind
    simp only [execLaterFramesSend, hfind]
    refine congrArg s.answer (if_neg ?_)
    show ¬ (!clear) = true
    simp [hclear]
  case readDue =>
    intro s sess k due hline hreach hdue hidle
    refine State.goes_of_guard rfl rfl ?_
    simp [k, due, hline, hreach, hdue, hidle]
  case readOverdue =>
    intro s sess k h late hlate
    refine State.goes_past_guard rfl (out_ite_next rfl rfl) ?_
    simp [late, k, hlate]
  case planOverload =>
    intro s cord
    refine s.goes_of_answer _ _ (?_ : execPlanOverload cord s = _)
    unfold execPlanOverload
    dsimp only
    generalize s.planQ.filter _ = old
    cases old with
    | nil => rfl
    | cons q t => exact congrArg s.answer (out_ite_next rfl rfl)
  case unreachablePollDue =>
    intro s sess k last hline hreach hidle hlast
    refine State.goes_of_guard rfl rfl ?_
    simp [k, last, hline, hreach, hidle, hlast]
  case discoverySweepDue =>
    intro s cord slot mask c t ports all modes before hplans hports hcan hbefore hmodes m r0 guard gap free t0 e join slotLen n0 n num
      rn w hclear
    refine State.goes_past_guard rfl (if_neg ?clear) ?_
    case clear =>
      show ¬ (!ports.all (fun p => s.winClear all (4 * p + t) (e + msTicks 10 : Nat) w.ends)) = true
      rw [hclear]
      decide
    show ¬ (!s.cordPlans c || ports.isEmpty || !ports.all (fun p => s.sweepCan c p t) || before || s.modesWait modes) = true
    rw [hplans, hports, hcan, hbefore, hmodes]
    decide
  case phasePollDue =>
    intro s sess k iv last hline hreach hiv hconf hlast hidle
    refine State.goes_of_guard rfl rfl ?_
    show (s.lineActive k && s.reach k != 2 && iv != 0 && decide (s.ctxNum k 0x080 1 / 16 % 4 < 3)
      && decide (last + sTicks (3600 * iv) ≤ s.tick) && !s.planQ.any (fun q => q.session == k && q.cls == 5)) = true
    rw [hidle]
    simp [hline, hreach, hiv, hconf, hlast]
  case sweepEnd =>
    intro s cord w hfind hrole
    refine s.goes_of_answer _ _ (?_ : execSweepEnd cord s = _)
    simp only [execSweepEnd, hfind]
    exact congrArg s.answer (if_neg (by simp [hrole]))
  case assocRefuseHoldEnd => exact fun s => rfl
  case assignTriesExhausted =>
    intro s sess k a hfind busy hbusy htries
    refine s.goes_of_answer _ _ (?_ : execAssignTriesExhausted sess s = _)
    simp only [k] at hfind
    simp only [execAssignTriesExhausted, hfind]
    refine congrArg s.answer (if_neg ?_)
    show ¬ (busy || decide (a.tries < s.get F.PLN_ASSOC_ASSIGN_TRIES)) = true
    simp [hbusy, htries]

/-- Settles O10: a pin or commit command stores what its word asks for; the limits apply when no round is fixed and no
radio frame is under way. -/
theorem plannerPinAndCommitCommandsComplete : Obligations.PlannerPinAndCommitCommandsComplete := by
  refine ⟨?plnPinSet, ?plnPinClearAll, ?plnPinRead, ?plnCommitGroups, ?plnCommitRate, ?plnCommitLimits, ?plnCommitApply,
    ?plnLimitsApply⟩
  case plnPinSet => exact fun s i w => s.goes_of_answer _ _ (congrArg s.answer (out_ite_next rfl rfl))
  case plnPinClearAll => exact fun s i w => s.goes_of_answer _ _ (congrArg s.answer (out_ite_next rfl rfl))
  case plnPinRead => exact fun s i w => s.goes_of_answer _ _ (congrArg s.answer (out_ite_next rfl rfl))
  case plnCommitGroups => exact fun s i w => rfl
  case plnCommitRate => exact fun s i w => rfl
  case plnCommitLimits => exact fun s i w => rfl
  case plnCommitApply => exact fun s => rfl
  case plnLimitsApply =>
    intro s radio hpend hrounds hradio
    refine State.goes_of_guard rfl rfl ?_
    show (s.instPending 6 9 && s.rounds.isEmpty && !radio) = true
    simp [hpend, hrounds, hradio]

end Sys2Proof.Machine
end

section
/-! PROOF SUPPORT. A lease taken at once (R232, R233): what `leaseTry` can answer, and which leases then stand. -/
namespace Sys2Proof.Machine
open Sys2Proof

/-- At most one lease stands on each session. -/
def State.LeasesApart (s : State) : Prop := ∀ j, (s.leases.filter (fun l => l.session == j)).length ≤ 1

theorem State.leaseOf_eq_none_iff {s : State} {k : Nat} : s.leaseOf k = none ↔ s.leases.filter (fun l => l.session == k) = [] := by
  simp [State.leaseOf]

theorem State.leasedBy_iff {s : State} {k h : Nat} : s.leasedBy k h = true ↔ ∃ l, s.leaseOf k = some l ∧ l.holder = h := by
  cases hl : s.leaseOf k <;> simp [State.leasedBy, hl]

/-! ### A lease renewed -/

/-- A renewal changes no session and no holder. -/
theorem State.leaseOf_leaseTouch (s : State) (k j : Nat) : (s.leaseTouch k).leaseOf j =
    (s.leaseOf j).map (fun l => if l.session == k then { l with expires := s.tick + s.leaseTicks } else l) := by
  simp only [State.leaseOf, State.leaseTouch, List.find?_map]
  congr 2
  funext l
  dsimp only [Function.comp]
  split <;> rfl

theorem State.leaseOf_leaseTouch_other (s : State) {k j : Nat} (hj : j ≠ k) : (s.leaseTouch k).leaseOf j = s.leaseOf j := by
  rw [s.leaseOf_leaseTouch]
  cases hl : s.leaseOf j with
  | none => rfl
  | some l =>
    have hs : l.session = j := by simpa using List.find?_some hl
    simp [hs, hj]

theorem State.leasedBy_leaseTouch (s : State) (k j h : Nat) : (s.leaseTouch k).leasedBy j h = s.leasedBy j h := by
  unfold State.leasedBy
  rw [s.leaseOf_leaseTouch]
  cases s.leaseOf j with
  | none => rfl
  | some l => dsimp only [Option.map_some]; split <;> rfl

theorem State.LeasesApart.leaseTouch {s : State} (h : s.LeasesApart) (k : Nat) : (s.leaseTouch k).LeasesApart := by
  intro j
  refine le_of_eq_of_le ?_ (h j)
  rw [State.leaseTouch, List.filter_map, List.length_map]
  congr 2
  funext l
  dsimp only [Function.comp]
  split <;> rfl

/-! ### A lease given -/

theorem State.leases_leaseGive (s : State) (k h : Nat) :
    ∃ l, l.session = k ∧ l.holder = h ∧ (s.leaseGive k h).leases = s.leases ++ [l] :=
  ⟨_, rfl, rfl, rfl⟩

theorem State.leaseOf_leaseGive_other (s : State) {k j : Nat} (h : Nat) (hj : j ≠ k) : (s.leaseGive k h).leaseOf j = s.leaseOf j := by
  obtain ⟨l, hs, -, hl⟩ := s.leases_leaseGive k h
  simp [State.leaseOf, hl, hs, hj.symm]

theorem State.leasedBy_leaseGive {s : State} {k : Nat} (h : Nat) (hfree : s.leaseOf k = none) : (s.leaseGive k h).leasedBy k h = true := by
  obtain ⟨l, hs, hh, hl⟩ := s.leases_leaseGive k h
  refine State.leasedBy_iff.mpr ⟨l, ?_, hh⟩
  rw [State.leaseOf] at hfree
  simp [State.leaseOf, hl, hs, hfree]

theorem State.LeasesApart.leaseGive {s : State} (hs : s.LeasesApart) {k : Nat} (h : Nat) (hfree : s.leaseOf k = none) :
    (s.leaseGive k h).LeasesApart := by
  intro j
  obtain ⟨l, rfl, -, hl⟩ := s.leases_leaseGive k h
  rw [hl, List.filter_append, List.length_append]
  by_cases hj : l.session = j
  · rw [← hj, State.leaseOf_eq_none_iff.mp hfree]
    simp
  · simpa [hj] using hs j

/-! ### A lease taken at once -/

theorem State.leaseOf_of_leaseFree {s : State} {k : Nat} (h : s.leaseFree k = true) : s.leaseOf k = none := by
  simp only [State.leaseFree, Bool.and_eq_true, Option.isNone_iff_eq_none] at h
  exact h.2

/-- The holder's own lease is renewed, or a free context is given, or nothing changes. -/
theorem State.leaseTry_cases (s : State) (k h : Nat) :
    (s.leasedBy k h = true ∧ s.leaseTry k h = (s.leaseTouch k, true))
    ∨ (s.leaseOf k = none ∧ s.leaseTry k h = (s.leaseGive k h, true))
    ∨ s.leaseTry k h = (s, false) := by
  unfold State.leaseTry
  split
  next hby => exact .inl ⟨hby, rfl⟩
  next =>
    split
    next hfree => exact .inr (.inl ⟨State.leaseOf_of_leaseFree (Bool.and_eq_true_iff.mp hfree).1, rfl⟩)
    next => exact .inr (.inr rfl)

/-- Settles O52: of the three outcomes of `leaseTry`, a renewal moves no lease, and one is given only where none stood. -/
theorem leaseIsExclusive : Obligations.LeaseIsExclusive := by
  intro s k h r
  obtain ⟨hby, hr⟩ | ⟨hnone, hr⟩ | hr : (_ ∧ r = _) ∨ (_ ∧ r = _) ∨ r = _ := s.leaseTry_cases k h
  · obtain ⟨l, hl, hh⟩ := State.leasedBy_iff.mp hby
    rw [hr]
    refine ⟨fun _ => (s.leasedBy_leaseTouch k k h).trans hby, nofun, fun l' hl' hne => ?_,
      fun j hj => s.leaseOf_leaseTouch_other hj, fun hs => State.LeasesApart.leaseTouch hs k⟩
    obtain rfl : l = l' := Option.some.inj (hl.symm.trans hl')
    exact absurd hh hne
  · rw [hr]
    exact ⟨fun _ => State.leasedBy_leaseGive h hnone, nofun, fun l hl => by simp [hnone] at hl,
      fun j hj => s.leaseOf_leaseGive_other h hj, fun hs => State.LeasesApart.leaseGive hs h hnone⟩
  · rw [hr]
    exact ⟨nofun, fun _ => rfl, fun _ _ _ => rfl, fun _ _ => rfl, id⟩

end Sys2Proof.Machine
end

section
/-! PROOF SUPPORT. Bytes replaced in a list, and the seal of a context image as three replacements (R225). -/
namespace Sys2Proof.Machine
open Sys2Proof

section
variable {l b : List Byte} {o : Nat}

theorem patch_getElem?_outside {i : Nat} (ho : o ≤ l.length) (hi : i < o ∨ o + b.length ≤ i) : (patch l o b)[i]? = l[i]? := by
  have hlen : (l.take o).length = o := by simpa using ho
  rw [patch, List.append_assoc]
  rcases hi with hi | hi
  · rw [List.getElem?_append_left (by omega), List.getElem?_take_of_lt hi]
  · rw [List.getElem?_append_right (by omega), List.getElem?_append_right (by omega), List.getElem?_drop]
    congr 1
    omega

/-- What stands in the place of the replaced bytes. -/
theorem patch_window (ho : o ≤ l.length) : ((patch l o b).drop o).take b.length = b := by
  have hlen : (l.take o).length = o := by simpa using ho
  rw [patch, List.append_assoc, List.drop_left' hlen, List.take_left]

/-- A window apart from the replaced bytes reads as before. -/
theorem patch_window_apart {i n : Nat} (ho : o ≤ l.length) (h : i + n ≤ o ∨ o + b.length ≤ i) :
    ((patch l o b).drop i).take n = (l.drop i).take n := by
  refine List.ext_getElem? fun j => ?_
  by_cases hj : j < n
  · simp only [List.getElem?_take_of_lt hj, List.getElem?_drop]
    exact patch_getElem?_outside ho (by omega)
  · rw [List.getElem?_take_eq_none (by omega), List.getElem?_take_eq_none (by omega)]

theorem length_patch (h : o + b.length ≤ l.length) : (patch l o b).length = l.length := by
  simp [patch]
  omega

/-- Of two replacements of the same bytes the later one stands. -/
theorem patch_patch {b' : List Byte} (ho : o ≤ l.length) (hb : b'.length = b.length) : patch (patch l o b) o b' = patch l o b' := by
  have hlen : (l.take o).length = o := by simpa using ho
  have htail : (patch l o b).drop (o + b.length) = l.drop (o + b.length) :=
    List.drop_left' (by rw [List.length_append, hlen])
  have hhead : (patch l o b).take o = l.take o := by rw [patch, List.append_assoc, List.take_left' hlen]
  rw [patch, hhead, hb, htail, patch, hb]

end

/-- The image over which `CRC` is computed: those four bytes at 0. -/
def crcZeroed (img : List Byte) : List Byte := patch img 4 [0, 0, 0, 0]

/-- The image with its `JSEQ` filled in. -/
def jseqPatched (img : List Byte) (jseq : Nat) : List Byte := patch img 16 (le jseq 8)

theorem sealImage_eq_patch (img : List Byte) (jseq : Nat) :
    sealImage img jseq = patch (crcZeroed (jseqPatched img jseq)) 4 (le (crc32c (crcZeroed (jseqPatched img jseq))).toNat 4) := rfl

theorem crcGood_iff (img : List Byte) : crcGood img = true ↔ (img.drop 4).take 4 = le (crc32c (crcZeroed img)).toNat 4 :=
  decide_eq_true_iff

theorem length_jseqPatched {img : List Byte} (jseq : Nat) (h : 24 ≤ img.length) : (jseqPatched img jseq).length = img.length :=
  length_patch (by simpa using h)

theorem length_crcZeroed {img : List Byte} (h : 8 ≤ img.length) : (crcZeroed img).length = img.length :=
  length_patch h

section
variable {img : List Byte} (jseq : Nat) (hlen : 24 ≤ img.length)
include hlen

theorem length_crcZeroed_jseqPatched : (crcZeroed (jseqPatched img jseq)).length = img.length := by
  have hj := length_jseqPatched jseq hlen
  rw [length_crcZeroed (by omega), hj]

theorem length_sealImage : (sealImage img jseq).length = img.length := by
  have hz := length_crcZeroed_jseqPatched jseq hlen
  rw [sealImage_eq_patch, length_patch (by rw [length_leBytes]; omega), hz]

/-- Zeroing the sealed image's `CRC` gives back the bytes over which it was computed. -/
theorem crcGood_sealImage : crcGood (sealImage img jseq) = true := by
  have hj := length_jseqPatched jseq hlen
  have hz := length_crcZeroed_jseqPatched jseq hlen
  have hsame : crcZeroed (sealImage img jseq) = crcZeroed (jseqPatched img jseq) := by
    rw [sealImage_eq_patch, crcZeroed, patch_patch (by omega) (by simp), crcZeroed, patch_patch (by omega) rfl]
  rw [crcGood_iff, hsame, sealImage_eq_patch]
  simpa using patch_window (b := le (crc32c (crcZeroed (jseqPatched img jseq))).toNat 4) (o := 4) (by omega)

/-- A window apart from `CRC` reads as it did with `JSEQ` filled in. -/
theorem sealImage_window {i n : Nat} (h : i + n ≤ 4 ∨ 8 ≤ i) :
    ((sealImage img jseq).drop i).take n = ((jseqPatched img jseq).drop i).take n := by
  have hj := length_jseqPatched jseq hlen
  have hz := length_crcZeroed_jseqPatched jseq hlen
  rw [sealImage_eq_patch, patch_window_apart (by omega) (by simpa using h), crcZeroed, patch_window_apart (by omega) (by simpa using h)]

theorem imageJseq_sealImage : imageJseq (sealImage img jseq) = jseq % 2 ^ 64 := by
  have hput := patch_window (l := img) (b := le jseq 8) (o := 16) (by omega)
  rw [length_leBytes] at hput
  have hpow : 256 ^ 8 = 2 ^ 64 := by norm_num
  rw [imageJseq, sealImage_window jseq hlen (.inr (by omega)), jseqPatched, hput, ofLe_leBytes, hpow]

theorem imageOf_sealImage : imageOf (sealImage img jseq) (ofLe ((img.drop 0x28).take 2)) = true := by
  rw [imageOf, sealImage_window jseq hlen (.inr (by omega)), jseqPatched, patch_window_apart (by omega) (.inr (by simp)),
    decide_eq_true rfl]

theorem sealImage_getElem?_outside {j : Nat} (hcrc : ¬(4 ≤ j ∧ j < 8)) (hseq : ¬(16 ≤ j ∧ j < 24)) :
    (sealImage img jseq)[j]? = img[j]? := by
  have hj := length_jseqPatched jseq hlen
  have hz := length_crcZeroed_jseqPatched jseq hlen
  rw [sealImage_eq_patch, patch_getElem?_outside (by omega) (by rw [length_leBytes]; omega), crcZeroed,
    patch_getElem?_outside (by omega) (show j < 4 ∨ 4 + 4 ≤ j by omega), jseqPatched,
    patch_getElem?_outside (by omega) (by rw [length_leBytes]; omega)]

end

/-- Settles O53: the seal replaces the bytes of `JSEQ`, then those of `CRC`, and no others. -/
theorem sealedImageIsGood : Obligations.SealedImageIsGood := by
  intro img jseq himg
  have hlen : 24 ≤ img.length := by omega
  exact ⟨Bool.and_eq_true_iff.mpr ⟨crcGood_sealImage jseq hlen, imageOf_sealImage jseq hlen⟩, (length_sealImage jseq hlen).trans himg,
    imageJseq_sealImage jseq hlen, fun j _ hcrc hseq => sealImage_getElem?_outside jseq hlen hcrc hseq⟩

end Sys2Proof.Machine
end

section
/-! PROOF SUPPORT. What the commands of sessions, the store and its link, and of the head-end and the management port answer when their
conditions hold (R218 to R260, R415 to R427, R487). -/
namespace Sys2Proof.Machine
open Sys2Proof

/-- A command whose next state is `t` when `g` holds, and meets it. -/
theorem State.goes_of_ite {s t u : State} {c : Instr} {g : Prop} [Decidable g] (h : exec c s = s.answer (.next (if g then t else u)))
    (hg : g) : s.goes c t := by
  rw [if_pos hg] at h
  exact h

/-- A command whose outcome is found, at the end, to be the next state `t`. -/
theorem State.goes_of_next {s t : State} {c : Instr} {o : Out} (h : exec c s = s.answer o) (ho : o = .next t) : s.goes c t :=
  h.trans (congrArg s.answer ho)

/-- Settles O11: the condition of a lease command decides its guard; a session command writes `SES_CMD` with its own operation. -/
theorem sessionCommandAndLeaseCommandsComplete : Obligations.SessionCommandAndLeaseCommandsComplete := by
  refine ⟨fun s i w => rfl, fun s i w => rfl, fun s i w => rfl, fun s i w => rfl, fun s i w => rfl, fun s i w => rfl, fun s i w => rfl,
    fun s i w => rfl, ?leaseRequest, ?leaseRelease, ?leaseRenew, ?leaseExpiry, ?leaseWaitTimeout⟩
  case leaseRequest =>
    intro s sess holder k hctx h4 h5
    refine State.goes_of_ite rfl ?_
    simp [k, hctx, h4, h5]
  case leaseRelease => exact fun s sess id holder hlease => State.goes_of_ite rfl hlease
  case leaseRenew => exact fun s sess id holder hlease => State.goes_of_ite rfl hlease
  case leaseExpiry =>
    intro s sess k l hlease queued hdue hqueued hwaits
    refine State.goes_of_next rfl ?_
    dsimp only [k] at hlease ⊢
    rw [hlease]
    refine congrArg _ (if_pos ⟨hdue, ?_, ?_⟩)
    · show (!queued) = true
      simp [hqueued]
    · show (!s.releaseWaits k) = true
      simp [hwaits]
  case leaseWaitTimeout =>
    intro s sess holder k q hfind hdue
    refine State.goes_of_next rfl ?_
    dsimp only [k] at hfind ⊢
    rw [hfind]
    exact if_pos hdue

/-- Settles O12: each condition decides a guard, or says which update, header, record or stall the command meets. -/
theorem contextJournalAndSpoolCommandsComplete : Obligations.ContextJournalAndSpoolCommandsComplete := by
  refine ⟨?contextPrefetch, ?contextFillDone, ?contextRebuildDone, ?journalWriteDone, ?journalUpdateResume, ?writeBackDone,
    ?storeHeaderWrite, ?spoolWrite, ?recordSend, ?credit, ?creditStall, ?halAck, ?drainRewind⟩
  case contextPrefetch => exact fun s sess hctx => State.goes_of_ite rfl hctx
  case contextFillDone =>
    intro s sess poison k hfill hheld
    refine State.goes_of_guard rfl (out_ite_next rfl (out_ite_next rfl rfl)) ?_
    simp [k, hfill, hheld]
  case contextRebuildDone =>
    intro s sess homePoison jrnPoison k flight hrebuild hflight
    refine State.goes_past_guard rfl ?_ ?guard
    case guard =>
      show ¬ (!s.rebuilds.contains k || flight) = true
      rw [hrebuild, hflight]
      decide
    -- `u` is the state in which the rebuild is no longer listed and a poisoned home copy is counted
    dsimp only [k]
    generalize (if homePoison = true then _ else _ : State) = u
    cases u.rebuildBase sess.toNat homePoison with
    | none => rfl
    | some base => exact out_ite_next rfl rfl
  case journalWriteDone =>
    intro s u rest hjq hgo hup hjournals
    refine State.goes_of_next rfl (hjq ▸ (if_neg ?_).trans (out_ite_next rfl rfl))
    simp [hgo, hup, hjournals]
  case journalUpdateResume =>
    exact fun s u rest hjq hwaits hroom => State.goes_of_next rfl (hjq ▸ congrArg _ (if_pos ⟨hwaits, hroom⟩))
  case writeBackDone =>
    intro s sess k hback hheld
    refine State.goes_past_guard rfl rfl ?_
    simp [k, hback, hheld]
  case storeHeaderWrite =>
    intro s h hstore t hjournals hup hmoved hdue
    refine State.goes_of_next rfl (hstore ▸ congrArg _ (if_pos ?_))
    show (s.journals && s.cxlUp && s.hdrTail != t && decide (s.hdrAt + sTicks 1 ≤ s.tick)) = true
    simp [hjournals, hup, hmoved, hdue]
  case spoolWrite =>
    intro s hne hspools
    refine State.goes_of_ite rfl ?_
    rw [hne, hspools]
    decide
  case recordSend =>
    intro s poison hneg hcan hcredit
    refine State.goes_of_guard rfl rfl ?_
    simp [hneg, hcan, hcredit]
  case credit => exact fun s n => rfl
  case creditStall =>
    intro s t hzero hdue hraised
    exact State.goes_of_next rfl (hzero ▸ congrArg _ (if_pos ⟨hdue, by simp [hraised]⟩))
  case halAck => exact fun s cls seq => rfl
  case drainRewind =>
    intro s cls
    refine State.goes_of_next rfl ?_
    -- `u` is the state in which the acknowledgements of this tick have arrived
    dsimp only
    generalize s.acksNow cls.val = u
    cases u.spool.find? (fun r => r.rc.cls == cls.val) with
    | none => rfl
    | some r =>
      dsimp only
      cases r.sent <;> rfl

/-- Settles O13: the conditions of each command decide its guard, and what it then answers is the state of its rule. -/
theorem cxlAndRadioLinkCommandsComplete : Obligations.CxlAndRadioLinkCommandsComplete := by
  refine ⟨?cxlLinkDown, ?cxlRequestTimeout, ?cxlLinkUp, ?cxlCacheOnly, ?cxlRetrainTimer, ?cxlRetrain, ?cxlMediaPoll, ?rhLinkUp,
    ?rhLinkDown, ?rhLinkInitRetry⟩
  case cxlLinkDown => exact fun s hup => State.goes_of_ite rfl hup
  case cxlRequestTimeout => exact fun s hup => State.goes_of_ite rfl hup
  case cxlLinkUp =>
    intro s lanes speed mib kept step hrun hperst hdown hstep hstop hlanes hlanes'
    refine State.goes_past_guard rfl (out_ite_next rfl (out_ite_next rfl (out_ite_next rfl rfl))) ?_
    simp [hrun, hperst, hdown, show ¬ s.get F.PWR_START_STAT_STEP < 4 by omega, show s.get F.PWR_START_STAT_STEP ≠ 7 from hstop, hlanes,
      hlanes']
  case cxlCacheOnly =>
    intro s hmode hdue
    refine State.goes_past_guard rfl rfl ?_
    simp [hmode, hdue]
  case cxlRetrainTimer =>
    intro s hmode hauto hdue
    refine State.goes_of_ite rfl ?_
    simp [hmode, hauto, hdue]
  case cxlRetrain => exact fun s i w => rfl
  case cxlMediaPoll =>
    intro s ce hup
    refine State.goes_past_guard rfl (out_ite_next rfl rfl) ?_
    simp [hup]
  case rhLinkUp =>
    intro s head h hen hlink
    refine State.goes_of_guard rfl rfl ?_
    simp [h, hen, hlink]
  case rhLinkDown =>
    intro s head h hlink
    refine State.goes_past_guard rfl rfl ?_
    simp [h, hlink]
  case rhLinkInitRetry =>
    intro s head h due hen hlink hdue
    refine State.goes_of_guard rfl rfl ?_
    show (s.bit F.RFS_HEAD_CFG_ENABLE (rhO h) && s.get F.RFS_HEAD_STAT_LINK (rhO h) != 2 && decide (due ≤ s.tick)) = true
    simp [hen, hlink, hdue]

/-- Settles O23: a command of the head-end is the one at the head of the queue, and the management port answers while the module
is out of reset. -/
theorem hostCommandAndManagementCommandsComplete : Obligations.HostCommandAndManagementCommandsComplete := by
  refine ⟨?cmdMeterCommand, ?cmdCsrRead, ?cmdCsrWrite, ?cmdRawJob, ?cmdJobStart, ?cmdJobCancel, ?cmdReplaceAck, ?mgtWrite, ?mgtRead,
    ?mgtStatus, ?mgtId, ?mgtInvalidTransaction, ?writeLogEntry, ?eventRecordDue, ?evcLatchClear⟩
  case cmdMeterCommand => exact fun s s₁ i b hhead => State.goes_of_next rfl (hhead ▸ out_ite_next rfl rfl)
  case cmdCsrRead => exact fun s s₁ i b hhead => State.goes_of_next rfl (hhead ▸ out_ite_next rfl rfl)
  case cmdCsrWrite => exact fun s s₁ i b hhead => State.goes_of_next rfl (hhead ▸ out_ite_next rfl rfl)
  case cmdRawJob => exact fun s s₁ i b hhead => State.goes_of_next rfl (hhead ▸ rfl)
  case cmdJobStart => exact fun s s₁ i b hhead => State.goes_of_next rfl (hhead ▸ rfl)
  case cmdJobCancel => exact fun s s₁ i b hhead => State.goes_of_next rfl (hhead ▸ out_ite_next rfl rfl)
  case cmdReplaceAck => exact fun s s₁ i b hhead => State.goes_of_next rfl (hhead ▸ rfl)
  case mgtWrite => exact fun s a data cut hrun => State.goes_of_ite rfl hrun
  case mgtRead => exact fun s a bits hrun => State.goes_of_ite rfl hrun
  case mgtStatus => exact fun s n hrun => State.goes_of_ite rfl hrun
  case mgtId => exact fun s n hrun => State.goes_of_ite rfl hrun
  case mgtInvalidTransaction =>
    intro s bytes cut hrun
    refine State.goes_past_guard rfl ?_ (not_not_intro hrun)
    match bytes with
    | [] => rfl
    | c :: rest =>
      refine out_ite_next rfl (out_ite_next rfl ?_)
      match rest with
      | a2 :: a1 :: a0 :: data => exact out_ite_next rfl rfl
      | [] | [_] | [_, _] => rfl
  case writeLogEntry => exact fun s => rfl
  case eventRecordDue => exact fun s => rfl
  case evcLatchClear => exact fun s i g w => rfl

end Sys2Proof.Machine
end


section
/-! PROOF SUPPORT. What the commands of the superframe, of radio sessions, of MAC control and of the mesh answer when their conditions
hold (R262 to R313). -/
namespace Sys2Proof.Machine
open Sys2Proof

/-- Settles O14: the slot under way, the hold or the assignment is the one the conditions name, and they decide the command's guard. -/
theorem superframeCommandsComplete : Obligations.SuperframeCommandsComplete := by
  refine ⟨?superframeStart, ?pairLease, ?slotStart, ?phase2Prep, ?responderSend, ?slotTail, ?rhScriptLate, ?pairRelease,
    ?radioAssignExpire, ?radioCmdFailed, ?parentBeacon, ?parentLost, ?coordIndependent⟩
  case superframeStart =>
    intro s b hnext ends hown hcan hdue hends
    refine State.goes_of_next rfl (hnext ▸ if_neg ?_)
    show ¬ (!s.own || !s.macCan || decide (s.tick < b) || !ends) = true
    simp [hown, hcan, hdue, hends]
  case pairLease =>
    intro s j st hslot start n hn hlease hsoon hbefore hdecoder
    refine State.goes_of_next rfl (hslot ▸ if_neg ?_)
    show ¬ (decide (64 ≤ n) || s.mac.leasedFor == some n || decide (s.tick + msTicks 2 < start) || decide (start ≤ s.tick)
      || s.noDecoder) = true
    simp [hn, hlease, hsoon, hbefore, hdecoder]
  case slotStart =>
    intro s j st0 hslot st n hn hphase hdue
    refine State.goes_of_next rfl (hslot ▸ if_neg ?_)
    show ¬ (decide (64 ≤ n) || s.mac.phase != 3 || decide (s.tick < st)) = true
    simp [hn, hphase, hdue]
  case phase2Prep =>
    intro s j st hslot hj hphase hdue
    refine State.goes_of_next rfl (hslot ▸ if_neg ?_)
    simp [hj, hphase, hdue]
  case responderSend =>
    intro s j st hslot hj hphase hdue
    refine State.goes_of_next rfl (hslot ▸ if_neg ?_)
    simp [hj, hphase, hdue]
  case slotTail =>
    intro s slot j st hslot ready hready hsame hdue
    refine State.goes_of_next rfl (hslot ▸ if_neg ?_)
    show ¬ (!ready || slot != j || decide (s.tick + halfMs < st + s.slotLen)) = true
    simp [hready, hsame, hdue]
  case rhScriptLate => exact fun s head rx hen => State.goes_of_guard rfl rfl hen
  case pairRelease =>
    intro s sess k u1 sf hhold l hdue hl
    refine State.goes_of_next rfl ?_
    dsimp only [k] at hhold ⊢
    rw [hhold]
    refine if_neg ?_
    show ¬ (decide (s.mac.sfs < sf + 9) || !l.2) = true
    simp [hdue, hl]
  case radioAssignExpire =>
    intro s sess k a hassoc n past l hho hpast hl
    refine State.goes_of_next rfl ?_
    dsimp only [k] at hassoc ⊢
    rw [hassoc]
    refine if_neg ?_
    show ¬ (a.ho.isSome || !past || !l.2) = true
    simp [hho, hpast, hl]
  case radioCmdFailed =>
    intro s sess k l hout htries hl
    refine State.goes_past_guard rfl rfl ?_
    show ¬ (!s.mac.cmdOut.contains k || decide (s.ctxNum k 0x0D6 2 < s.get F.MAC_ASSOC_CMD_TRIES) || !l.2) = true
    rw [hout, hl, decide_eq_false (Nat.not_lt.mpr htries)]
    decide
  case parentBeacon =>
    intro s
    refine State.goes_of_next rfl ?_
    match s.mac.parentRx, s.mac.next with
    | some _, some _ => exact out_ite_next rfl rfl
    | none, _ | some _, none => rfl
  case parentLost =>
    intro s hmode hmiss
    refine State.goes_of_guard rfl rfl ?_
    simp [hmode, hmiss]
  case coordIndependent =>
    intro s hmode hlost
    refine State.goes_of_guard rfl rfl ?_
    simp [hmode, hlost]

/-- Settles O15: where a search decides the answer, each of its results is the one the rule names; a control or clearing command acts
when its bit is written. -/
theorem macAndMeshCommandsComplete : Obligations.MacAndMeshCommandsComplete := by
  refine ⟨?macCommit, ?macCommitApply, ?macScriptDataAccess, ?macCtrlRun, ?macCtrlSubord, ?routeAgeOut, ?seenExpire, ?meshResend,
    ?mshRouteClearOne, ?mshRouteClearAll, ?mshCommit, ?mshCommitApply⟩
  case macCommit => exact fun s i w => State.goes_of_next rfl (out_ite_next rfl rfl)
  case macCommitApply =>
    intro s
    refine State.goes_of_next rfl ?_
    cases s.mac.next <;> rfl
  case macScriptDataAccess =>
    intro s i wr
    refine State.goes_of_next rfl ?_
    cases wr <;> rfl
  case macCtrlRun => exact fun s i w => rfl
  case macCtrlSubord => exact fun s i w hbit => State.goes_of_guard rfl rfl hbit
  case routeAgeOut => exact fun s => rfl
  case seenExpire => exact fun s => rfl
  case meshResend =>
    intro s sess
    refine State.goes_of_next rfl ?_
    -- `u` is the state in which the session's assignment has been sent again, where one was due
    dsimp only
    generalize s.assignResend sess.toNat = u
    cases u.mac.sends.find? (fun m => m.session == sess.toNat) with
    | none => rfl
    | some m => exact out_ite_next rfl (out_ite_next rfl rfl)
  case mshRouteClearOne => exact fun s i w hbit => State.goes_past_guard rfl rfl (by simp [hbit])
  case mshRouteClearAll => exact fun s i w hbit => State.goes_past_guard rfl rfl (by simp [hbit])
  case mshCommit => exact fun s i w => rfl
  case mshCommitApply =>
    intro s
    refine State.goes_of_next rfl ?_
    cases s.mac.next <;> rfl

end Sys2Proof.Machine
end

section
/-! PROOF SUPPORT. The lengths of what the cipher engine computes, and that an exclusive or with a key stream undoes itself (R322, R328,
R331).  A block stays 16 bytes long in both shares, whatever the masks. -/
namespace Sys2Proof.Machine
open Sys2Proof

/-! ### Bytes -/

theorem xorL_eq_zipWith (l m : List Byte) : xorL l m = List.zipWith (· ^^^ ·) l m := by
  induction l generalizing m with
  | nil => rfl
  | cons a s ih =>
    cases m with
    | nil => rfl
    | cons b t => exact congrArg _ (ih t)

@[simp] theorem length_xorL (l m : List Byte) : (xorL l m).length = min l.length m.length := by
  rw [xorL_eq_zipWith, List.length_zipWith]

/-- What an exclusive or with a stream at least as long enciphers, the same exclusive or deciphers. -/
theorem xorL_xorL_cancel {l m : List Byte} (h : l.length ≤ m.length) : xorL (xorL l m) m = l := by
  refine List.ext_getElem (by simpa using h) fun i h₁ h₂ => ?_
  simp [xorL_eq_zipWith]

/-- The pieces of a list that holds `k` of them are `k` whole pieces. -/
theorem length_chunks {n k : Nat} {l : List Byte} (hn : 0 < n) (hl : n * k ≤ l.length) :
    (chunks n k l).length = k ∧ ∀ c ∈ chunks n k l, c.length = n := by
  induction k generalizing l with
  | zero => simp [chunks]
  | succ k ih =>
    rw [Nat.mul_succ] at hl
    match l with
    | [] => simp at hl; omega
    | a :: t =>
      obtain ⟨hlen, hall⟩ := ih (l := (a :: t).drop n) (by rw [List.length_drop]; omega)
      refine ⟨by simp only [chunks, List.length_cons, hlen], fun c hc => ?_⟩
      obtain rfl | hc := List.mem_cons.mp hc
      · rw [List.length_take]; omega
      · exact hall c hc

theorem length_flatMap_of_forall {α β : Type} {n : Nat} {f : α → List β} {l : List α} (h : ∀ x ∈ l, (f x).length = n) :
    (l.flatMap f).length = l.length * n := by
  rw [List.length_flatMap, List.map_congr_left h, List.map_const', List.sum_replicate, smul_eq_mul]

/-! ### Shares of `n` bytes -/

/-- Both shares are `n` bytes long. -/
def Shares.Sized (n : Nat) (x : Shares) : Prop := x.a.length = n ∧ x.b.length = n

namespace Shares.Sized
variable {n : Nat} {x y : Shares}

theorem length_value (h : x.Sized n) : x.value.length = n := by
  obtain ⟨ha, hb⟩ := h
  simp [Shares.value, ha, hb]

theorem pub {l : List Byte} (h : l.length = n) : (Shares.pub l).Sized n := ⟨h, by simp [Shares.pub, h]⟩

theorem xor (hx : x.Sized n) (hy : y.Sized n) : (x.xor y).Sized n := by
  obtain ⟨hxa, hxb⟩ := hx
  obtain ⟨hya, hyb⟩ := hy
  exact ⟨by simp [Shares.xor, hxa, hya], by simp [Shares.xor, hxb, hyb]⟩

theorem lin {m : Nat} {f : List Byte → List Byte} (hf : ∀ l, l.length = n → (f l).length = m) (h : x.Sized n) : (x.lin f).Sized m :=
  ⟨hf _ h.1, hf _ h.2⟩

theorem remask (r : Masks) (lane : List Nat) (h : x.Sized n) : (x.remask r lane).Sized n := by
  obtain ⟨ha, hb⟩ := h
  exact ⟨by simp [Shares.remask, ha], by simp [Shares.remask, ha, hb]⟩

theorem subSh (inv : Bool) (r : Masks) (lane : List Nat) (h : x.Sized n) : (subSh inv r lane x).Sized n := by
  obtain ⟨ha, hb⟩ := h
  constructor <;> simp [Machine.subSh, ha, hb]

theorem joinSh {m : Nat} {l : List Shares} (hl : l.length = m) (h : ∀ x ∈ l, x.Sized n) : (joinSh l).Sized (m * n) :=
  hl ▸ ⟨length_flatMap_of_forall fun x hx => (h x hx).1, length_flatMap_of_forall fun x hx => (h x hx).2⟩

end Shares.Sized

/-! ### The block cipher -/

@[simp] theorem length_shiftRows (inv : Bool) (s : List Byte) : (shiftRows inv s).length = 16 := by simp [shiftRows]

@[simp] theorem length_mixCol (m c : List Byte) : (mixCol m c).length = 4 := by simp [mixCol]

theorem length_mixColumns (inv : Bool) {s : List Byte} (h : s.length = 16) : (mixColumns inv s).length = 16 := by
  obtain ⟨hlen, -⟩ := length_chunks (n := 4) (k := 4) (l := s) (by decide) (by omega)
  rw [mixColumns, length_flatMap_of_forall (fun c _ => length_mixCol _ c), hlen]

/-- What the key schedule adds to the word `nk` places back to form word `i`: the newest word `t`, rotated and substituted where the
schedule says so. -/
def scheduleCore (r : Masks) (lane : List Nat) (nk i : Nat) (rcon : Byte) (t : Shares) : Shares :=
  if i % nk = 0 then (subSh false r (i :: lane) (t.lin fun w => w.drop 1 ++ w.take 1)).xor (.pub [rcon, 0, 0, 0])
  else if 6 < nk ∧ i % nk = 4 then subSh false r (i :: lane) t
  else t

theorem keyMore_succ (r : Masks) (lane : List Nat) (nk i : Nat) (rcon : Byte) (n : Nat) (ws : List Shares) :
    keyMore r lane nk i rcon (n + 1) ws = keyMore r lane nk (i + 1) (if i % nk = 0 then xtime rcon else rcon) n
      ((ws.getD (nk - 1) ⟨[], []⟩).xor (scheduleCore r lane nk i rcon (ws.headD ⟨[], []⟩)) :: ws) := rfl

theorem Shares.Sized.scheduleCore (r : Masks) (lane : List Nat) (nk i : Nat) (rcon : Byte) {t : Shares} (h : t.Sized 4) :
    (scheduleCore r lane nk i rcon t).Sized 4 := by
  unfold Machine.scheduleCore
  split
  · exact ((h.lin fun w hw => by simp [hw]).subSh _ _ _).xor (.pub rfl)
  · split
    · exact h.subSh _ _ _
    · exact h

/-- The schedule adds `n` words of 4 bytes to those of the key. -/
theorem keyMore_sized (r : Masks) (lane : List Nat) {nk : Nat} (hnk : 0 < nk) (i : Nat) (rcon : Byte) (n : Nat) {ws : List Shares}
    (hlen : nk ≤ ws.length) (hws : ∀ w ∈ ws, w.Sized 4) :
    (keyMore r lane nk i rcon n ws).length = ws.length + n ∧ ∀ w ∈ keyMore r lane nk i rcon n ws, w.Sized 4 := by
  induction n generalizing i rcon ws with
  | zero => exact ⟨rfl, hws⟩
  | succ n ih =>
    have hhead : (ws.headD ⟨[], []⟩).Sized 4 := by
      match ws with
      | [] => simp at hlen; omega
      | w :: _ => exact hws w List.mem_cons_self
    have hback : (ws.getD (nk - 1) ⟨[], []⟩).Sized 4 := by
      have hin : nk - 1 < ws.length := by omega
      rw [List.getD_eq_getElem _ _ hin]
      exact hws _ (List.getElem_mem hin)
    obtain ⟨hcount, hall⟩ := ih (i + 1) (if i % nk = 0 then xtime rcon else rcon) (ws := _ :: ws) (Nat.le_succ_of_le hlen)
      (List.forall_mem_cons.mpr ⟨hback.xor (hhead.scheduleCore r lane nk i rcon), hws⟩)
    rw [keyMore_succ]
    exact ⟨by rw [hcount, List.length_cons]; omega, hall⟩

/-- A key of AES-128 or AES-256: 16 or 32 bytes, in both shares. -/
def Key.Aes (k : Key) : Prop := (k.sh.a.length = 16 ∨ k.sh.a.length = 32) ∧ k.sh.b.length = k.sh.a.length

theorem Key.Aes.sub {k : Key} (h : k.Aes) (j : Nat) : (k.sub j).Aes := h

/-- Every round key is a block. -/
theorem Key.Aes.rounds_sized {k : Key} (h : k.Aes) : ∀ rk ∈ k.rounds, rk.Sized 16 := by
  obtain ⟨hlen, hb⟩ := h
  unfold Key.rounds
  extract_lets sh nk total words ws
  have hsh : sh.Sized k.sh.a.length := Shares.Sized.remask _ _ ⟨rfl, hb⟩
  obtain ⟨ha, hb⟩ := hsh
  have hnk : 0 < nk ∧ 4 * nk = k.sh.a.length := by simp only [nk, ha]; omega
  obtain ⟨hpos, hfour⟩ := hnk
  obtain ⟨hna, hca⟩ := length_chunks (n := 4) (k := nk) (l := sh.a) (by decide) (by omega)
  obtain ⟨hnb, hcb⟩ := length_chunks (n := 4) (k := nk) (l := sh.b) (by decide) (by omega)
  have hwords : ∀ w ∈ words.reverse, w.Sized 4 := fun w hw => by
    obtain ⟨i, hi, rfl⟩ := List.getElem_of_mem (List.mem_reverse.mp hw)
    simp only [words, List.getElem_zipWith]
    exact ⟨hca _ (List.getElem_mem _), hcb _ (List.getElem_mem _)⟩
  have hcount : words.reverse.length = nk := by simp [words, hna, hnb]
  obtain ⟨hmore, hall⟩ := keyMore_sized k.masks (2 :: k.lane) hpos nk 1 (total - nk) hcount.ge hwords
  have hws : ws.length = total := by
    simp only [ws, List.length_reverse, hmore, hcount, total]
    omega
  intro rk hrk
  obtain ⟨r, hr, rfl⟩ := List.mem_map.mp hrk
  rw [List.mem_range] at hr
  refine Shares.Sized.joinSh (m := 4) (n := 4) ?_ fun w hw =>
    hall w (List.mem_reverse.mp (List.mem_of_mem_drop (List.mem_of_mem_take hw)))
  rw [List.length_take, List.length_drop, hws]
  simp only [total]
  omega

/-- A block of 16 bytes stays one through the cipher and through its inverse. -/
theorem Key.Aes.block_sized {k : Key} (h : k.Aes) (inv : Bool) {x : Shares} (hx : x.Sized 16) : (k.block inv x).Sized 16 := by
  have hr : ∀ rk ∈ (if inv then k.rounds.reverse else k.rounds), rk.Sized 16 := fun rk hrk => by
    refine h.rounds_sized rk ?_
    split at hrk
    · exact List.mem_reverse.mp hrk
    · exact hrk
  unfold Key.block
  generalize (if inv then k.rounds.reverse else k.rounds) = rks at hr
  match rks with
  | [] => exact hx
  | k0 :: ks =>
    obtain ⟨h0, hks⟩ := List.forall_mem_cons.mp hr
    refine List.foldlRecOn (motive := fun p : Nat × Shares => p.2.Sized 16) _ _ (hx.xor h0) fun p hp rk hrk => ?_
    have hrk := hks rk hrk
    have hmix {y : Shares} (hy : y.Sized 16) : (y.lin (mixColumns inv)).Sized 16 := hy.lin fun l hl => length_mixColumns inv hl
    have hshift (i : Bool) {y : Shares} (hy : y.Sized 16) : (y.lin (shiftRows i)).Sized 16 := hy.lin fun l _ => length_shiftRows i l
    dsimp only
    cases inv with
    | true =>
      have hy := ((hshift true hp).subSh true k.masks ((p.1 + 1) :: 3 :: k.lane)).xor hrk
      simp only [if_true]
      split
      · exact hy
      · exact hmix hy
    | false =>
      have hy := hshift false (hp.subSh false k.masks ((p.1 + 1) :: 3 :: k.lane))
      simp only [Bool.false_eq_true, if_false]
      split
      · exact hy.xor hrk
      · exact (hmix hy).xor hrk

theorem Key.split_sized (k : Key) {l : List Byte} (h : l.length = 16) : (k.split l).Sized 16 := (Shares.Sized.pub h).remask _ _

theorem Key.Aes.length_aesEnc {k : Key} (h : k.Aes) {b : List Byte} (hb : b.length = 16) : (aesEnc k b).length = 16 :=
  (h.block_sized false (k.split_sized hb)).length_value

/-! ### The modes -/

@[simp] theorem length_be (n k : Nat) : (be n k).length = k := by simp [be]

/-- The key stream is as long as it is asked to be. -/
theorem Key.Aes.length_keyStream {k : Key} (h : k.Aes) (ctr w n : Nat) : (keyStream k ctr w n).length = n := by
  rw [keyStream, List.length_take, length_flatMap_of_forall fun i _ => (h.sub i).length_aesEnc (length_be _ _), List.length_range]
  omega

/-- A CBC-MAC is a block. -/
theorem Key.Aes.length_cbcMac {k : Key} (h : k.Aes) (l : List Byte) : (cbcMac k l).length = 16 := by
  obtain ⟨-, hall⟩ := length_chunks (n := 16) (k := l.length / 16) (l := l) (by decide) (by omega)
  refine Shares.Sized.length_value
    (List.foldlRecOn (motive := fun c : Nat × Shares => c.2.Sized 16) _ _ (.pub rfl) fun c hc b hb => ?_)
  exact (h.sub c.1).block_sized false (hc.xor ((k.sub c.1).split_sized (hall b hb)))

theorem Key.Aes.length_ccmTag {k : Key} (h : k.Aes) (nonce aad data : List Byte) (n : Nat) : (ccmTag k nonce aad data n).length = 16 :=
  h.length_cbcMac _

/-- Data enciphered with a key stream of their length, and deciphered with that of the cipher text's length. -/
theorem Key.Aes.keyStream_round_trip {k : Key} (h : k.Aes) (ctr w : Nat) (data : List Byte) :
    (xorL data (keyStream k ctr w data.length)).length = data.length
    ∧ xorL (xorL data (keyStream k ctr w data.length)) (keyStream k ctr w data.length) = data :=
  ⟨by simp [h.length_keyStream], xorL_xorL_cancel (h.length_keyStream ctr w _).ge⟩

/-- Settles O59: the key stream has the data's length, so that it cancels, and the tag has the length asked for, so that decryption forms
the same one. -/
theorem ccmOpensWhatItSeals : Obligations.CcmOpensWhatItSeals := by
  intro key nonce aad data n ha hb _ _ hn
  have hkey : key.Aes := ⟨ha, hb⟩
  obtain ⟨hlen, hback⟩ := (hkey.sub 0).keyStream_round_trip (ccmCtr nonce 1) (8 * (15 - nonce.length)) data
  have htag : (ccmEnc key nonce aad data n).2.length = n := by
    simp [ccmEnc, (hkey.sub 1).length_ccmTag, (hkey.sub 2).length_keyStream, hn]
  refine ⟨hlen, ?_⟩
  rw [ccmDec, htag]
  simp [ccmEnc, hlen, hback]

/-- Settles O60: the key stream has the data's length, so that it cancels, and both sides form the tag from the cipher text. -/
theorem gcmOpensWhatItSeals : Obligations.GcmOpensWhatItSeals := by
  intro key iv aad data ha hb _
  have hkey : key.Aes := ⟨ha, hb⟩
  obtain ⟨hlen, hback⟩ := (hkey.sub 2).keyStream_round_trip (beNum (iv ++ be 2 4)) 32 data
  refine ⟨hlen, ?_⟩
  simp [gcmDec, gcmEnc, gcmStream, hlen, hback]

end Sys2Proof.Machine
end

section
/-! PROOF SUPPORT. What the commands of the cipher engine, the Vault and raw jobs, and of NVM and self-test steps answer when their
conditions hold (R316 to R349, R435, R469 to R487). -/
namespace Sys2Proof.Machine
open Sys2Proof

/-- Settles O16: the key, the write or the job at work is the one the conditions name, and they decide the command's guard. -/
theorem cipherCommandsComplete : Obligations.CipherCommandsComplete := by
  refine ⟨?anchorProgram, ?anchorProgramDone, ?keyDerivationDone, ?kcacheFlush, ?drbgReseed, ?entropyFail, ?entropyRetest,
    ?vaultWriteDone, ?rawJobStart, ?rawJobAbort, ?rawJobDone, ?cipSesRead, ?cipSesRekeyDue, ?cipSesReprovision, ?cipCommit,
    ?entropyStartupTest⟩
  case anchorProgram => exact fun s i w => State.goes_of_next rfl (out_ite_next rfl (out_ite_next rfl (out_ite_next rfl rfl)))
  case anchorProgramDone => exact fun s good ka hblow => State.goes_of_next rfl (hblow ▸ out_ite_next rfl rfl)
  case keyDerivationDone =>
    intro s t rest hkeyq hgo
    refine State.goes_of_next rfl (hkeyq ▸ if_neg ?_)
    rw [hgo]
    decide
  case kcacheFlush => exact fun s i w => rfl
  case drbgReseed => exact fun s hup hdue => State.goes_of_guard rfl rfl ⟨hup, hdue⟩
  case entropyFail => exact fun s hup => State.goes_of_ite rfl hup
  case entropyRetest => exact fun s pass hfailed => State.goes_past_guard rfl rfl (not_not_intro hfailed)
  case vaultWriteDone =>
    exact fun s good w rest hq => State.goes_of_next rfl (hq ▸ out_ite_next rfl (out_ite_next rfl rfl))
  case rawJobStart => exact fun s i w => State.goes_of_next rfl (out_ite_next rfl rfl)
  case rawJobAbort =>
    intro s i w
    refine State.goes_of_next rfl (out_ite_next rfl ?_)
    cases (s.wlogNote i F.CIP_RAW_CMD.addr w).cip.raw.find? (fun j => j.cmd.isNone) <;> rfl
  case rawJobDone =>
    intro s mismatch j rest hraw hgo
    refine State.goes_of_next rfl (hraw ▸ (if_neg ?_).trans (out_ite_next (out_ite_next rfl rfl) rfl))
    rw [hgo]
    decide
  case cipSesRead => exact fun s i w => rfl
  case cipSesRekeyDue => exact fun s i w => rfl
  case cipSesReprovision => exact fun s i w => rfl
  case cipCommit => exact fun s i w => rfl
  case entropyStartupTest =>
    intro s pass hentropy hrun
    refine State.goes_past_guard rfl rfl ?_
    simp [hentropy, hrun]

/-- Settles O25: the turn and the phase of the job decide a step's guard, and the conditions of the other commands decide theirs. -/
theorem nvmAndSelfTestCommandsComplete : Obligations.NvmAndSelfTestCommandsComplete := by
  refine ⟨?cipherTestStep, ?nvmReadStep, ?nvmProgramStep, ?nvmEraseStep, ?nvmStatusPoll, ?selfTestStep, ?testCordMove,
    ?selfTestPeriodicStart, ?bstClearMark, ?bstReplaceAck, ?bstReplaceClr, ?replaceRequestRepeat⟩
  case cipherTestStep => exact fun s k o => rfl
  case nvmReadStep =>
    intro s k data expect hturn hop hlen
    refine State.goes_past_guard rfl rfl ?_
    simp [hturn, hop, hlen]
  case nvmProgramStep =>
    intro s k same j hturn hop
    refine State.goes_past_guard rfl (out_ite_next rfl (out_ite_next rfl rfl)) ?_
    simp [hturn, hop]
  case nvmEraseStep =>
    intro s k op hturn hop hphase
    refine State.goes_past_guard rfl rfl ?_
    show ¬ (!(s.jobTurn k.val 8 && (op == 3 || op == 4) && (s.job k.val).phase == 0)) = true
    simp [hturn, hop, hphase]
  case nvmStatusPoll =>
    intro s k busy j hturn hphase
    refine State.goes_past_guard rfl (out_ite_next rfl (out_ite_next rfl rfl)) ?_
    show ¬ (!(s.jobTurn k.val 8 && j.phase == 1)) = true
    simp [hturn, hphase]
  case selfTestStep => exact fun s k o => rfl
  case testCordMove =>
    intro s c toSpare hquiet
    refine State.goes_past_guard rfl (out_ite_next rfl rfl) ?_
    simp [hquiet]
  case selfTestPeriodicStart =>
    intro s hauto hready hdue
    refine State.goes_of_guard rfl ?_ ?guard
    case guard => simp [hauto, hready, hdue]
    -- `r` is the start of the job and the slot it took, if one was free
    dsimp only
    generalize State.jobStart _ 3 0 4 0 _ _ true = r
    match r with
    | (_, some _) | (_, none) => rfl
  case bstClearMark => exact fun s i w => State.goes_of_next rfl (out_ite_next rfl rfl)
  case bstReplaceAck => exact fun s i w => rfl
  case bstReplaceClr => exact fun s i w => rfl
  case replaceRequestRepeat =>
    intro s open' hopen hdue
    exact State.goes_of_guard rfl rfl ⟨hopen, hdue⟩

end Sys2Proof.Machine
end

section
/-! PROOF SUPPORT. What the commands of the check units and of the secured links answer when their conditions hold (R351 to R368). -/
namespace Sys2Proof.Machine
open Sys2Proof

/-- Settles O17: the bits written, the unit's state and the link's state and times decide the guard of each command. -/
theorem checkUnitAndSecuredLinkCommandsComplete : Obligations.CheckUnitAndSecuredLinkCommandsComplete := by
  refine ⟨?chkArm, ?chkStop, ?chkClrExpect, ?chkExpectWrite, ?chkWindowStart, ?chkWindowEnd, ?chkCommit, ?chkCommitApply, ?laneUp,
    ?laneDown, ?helloSend, ?linkHello, ?linkConfirm, ?linkBringupTimeout, ?linkSilenceTimeout, ?linkFrameRejected⟩
  case chkArm => exact fun s i u w harm => State.goes_of_ite rfl harm
  case chkStop => exact fun s i u w hstop => State.goes_of_ite rfl hstop
  case chkClrExpect => exact fun s i u w hclear => State.goes_of_ite rfl hclear
  case chkExpectWrite => exact fun s i u w => rfl
  case chkWindowStart =>
    intro s u o stream hwaits hstream hpending hbytes
    exact State.goes_of_ite rfl ⟨hwaits, hstream, by simp [hpending], hbytes⟩
  case chkWindowEnd =>
    intro s u data tooFast poison o stream hruns
    refine State.goes_past_guard rfl (out_ite_next rfl (out_ite_next rfl (out_ite_next ?audit (out_ite_next rfl ?cut))))
      (not_not_intro hruns)
    case audit => cases s.auditBytes u.val <;> rfl
    case cut =>
      match s.chkCut u.val with
      | none | some (_, _) => rfl
  case chkCommit => exact fun s i w => rfl
  case chkCommitApply => exact fun s u => rfl
  case laneUp => exact fun s l lane => rfl
  case laneDown => exact fun s l lane => rfl
  case helloSend => exact fun s l => State.goes_of_next rfl (out_ite_next rfl rfl)
  case linkHello =>
    intro s l insertion h n st hen
    refine State.goes_past_guard rfl (out_ite_next rfl (out_ite_next rfl (out_ite_next rfl ?_))) ?guard
    case guard => simp [n, hen]
    -- `u` is the state in which the check units have seen the HELLO
    generalize (if n = 0 ∨ st = 0 then s else _ : State) = u
    cases u.helloCause n h <;> rfl
  case linkConfirm =>
    intro s l n st hup
    refine State.goes_past_guard rfl (out_ite_next rfl (out_ite_next rfl rfl)) ?_
    simp [hup]
  case linkBringupTimeout =>
    intro s l n st hst hdue
    exact State.goes_past_guard rfl (out_ite_next (out_ite_next rfl (out_ite_next rfl rfl)) rfl)
      (not_or_intro hst (Nat.not_lt.mpr hdue))
  case linkSilenceTimeout =>
    intro s l n x st limit hdown
    exact State.goes_past_guard rfl (out_ite_next rfl (out_ite_next rfl rfl)) (Nat.not_lt.mpr hdown)
  case linkFrameRejected =>
    intro s l tagFail n htag
    refine State.goes_past_guard rfl (out_ite_next rfl rfl) ?_
    simp [htag]

end Sys2Proof.Machine
end

section
/-! PROOF SUPPORT. What the commands of Splice answer when their conditions hold (R370 to R381, R399). -/
namespace Sys2Proof.Machine
open Sys2Proof

/-- Settles O18: the role, the claim and the times that the conditions name decide each guard; a command bit writes `SPL_CMD`. -/
theorem spliceRoleCommandsComplete : Obligations.SpliceRoleCommandsComplete := by
  refine ⟨?ownershipRefresh, ?ownWatchdogExpiry, ?spliceStartWaitEnd, ?takeoverTimeout, ?claimGuardEnd, ?ownInFall,
    ?splitClaimTimeout, ?claimRetryDelayEnd, fun s i w => rfl, fun s i w => rfl, fun s i w => rfl, fun s i w => rfl⟩
  case ownershipRefresh =>
    intro s himage halive hdue
    refine State.goes_past_guard rfl rfl ?_
    simp [himage, halive, hdue]
  case ownWatchdogExpiry =>
    intro s hrun hlive hdue
    refine State.goes_past_guard rfl rfl ?_
    simp [hrun, hlive, hdue]
  case spliceStartWaitEnd =>
    intro s t hstart hrole hclaim hdue
    refine State.goes_of_next rfl (hstart ▸ (if_neg ?_).trans (out_ite_next rfl rfl))
    simp [hrole, hclaim, hdue]
  case takeoverTimeout =>
    intro s htakes hretry
    refine State.goes_of_ite rfl ?_
    simp [htakes, hretry]
  case claimGuardEnd =>
    intro s t hclaim hsplit hdue
    refine State.goes_of_next rfl
      (hclaim ▸ (if_neg ?_).trans (out_ite_next rfl (out_ite_next rfl (out_ite_next rfl rfl))))
    simp [hsplit, hdue]
  case ownInFall => exact fun s => State.goes_of_next rfl (out_ite_next rfl (out_ite_next rfl rfl))
  case splitClaimTimeout =>
    intro s t hclaim hsplit hdue
    refine State.goes_of_next rfl (hclaim ▸ congrArg _ (if_pos ?_))
    simp [hsplit, hdue]
  case claimRetryDelayEnd =>
    intro s t hretry hdue
    exact State.goes_of_next rfl (hretry ▸ (if_neg (Nat.not_lt.mpr hdue)).trans
      (out_ite_next rfl (out_ite_next rfl (out_ite_next rfl rfl))))

/-- Settles O19: a message acts on the state in which the link has taken its frame, and the audit's turn and its job are those the
branches name. -/
theorem spliceMessageCommandsComplete : Obligations.SpliceMessageCommandsComplete := by
  refine ⟨?splHeartbeatSend, ?splHeartbeat, ?splJrn, ?splVault, ?splPlan, ?splRoute, ?splCtx, ?splAck, ?splAudit, ?splSwitch,
    ?splCtxReq, ?mirrorAuditStep⟩
  case splHeartbeatSend =>
    intro s hup hdue
    refine State.goes_past_guard rfl rfl ?_
    simp [hup, hdue]
  case splHeartbeat => exact fun s seq role term start sfn u htake => State.goes_of_next rfl (htake ▸ out_ite_next rfl rfl)
  case splJrn => exact fun s seq jseq sess kind offset data u htake => State.goes_of_next rfl (htake ▸ out_ite_next rfl rfl)
  case splVault => exact fun s seq sess txc rxm epoch prov sent u htake => State.goes_of_next rfl (htake ▸ out_ite_next rfl rfl)
  case splPlan => exact fun s seq members ended u htake => State.goes_of_next rfl (htake ▸ out_ite_next rfl rfl)
  case splRoute => exact fun s seq dest next metric hops valid age u htake => State.goes_of_next rfl (htake ▸ out_ite_next rfl rfl)
  case splCtx => exact fun s seq sess image u htake => State.goes_of_next rfl (htake ▸ out_ite_next rfl (out_ite_next rfl rfl))
  case splAck => exact fun s seq upTo u htake => State.goes_of_next rfl (htake ▸ rfl)
  case splAudit =>
    intro s seq first result u htake
    refine State.goes_of_next rfl (htake ▸ out_ite_next rfl (out_ite_next ?standby ?owner))
    case standby =>
      -- `r` is the state with the audit's job, and the job and its check unit, where it has one
      generalize u.auditReady = r
      match r with
      | (_, none) | (_, some (_, _)) => rfl
    case owner =>
      match u.spl.audit, u.auditJob with
      | some (_, _), some _ => exact out_ite_next rfl rfl
      | none, _ | some _, none => rfl
  case splSwitch => exact fun s seq u htake => State.goes_of_next rfl (htake ▸ out_ite_next rfl (out_ite_next rfl rfl))
  case splCtxReq => exact fun s seq first last u htake => State.goes_of_next rfl (htake ▸ rfl)
  case mirrorAuditStep =>
    intro s hturn
    refine State.goes_past_guard rfl ?_ ?guard
    case guard => simp [hturn]
    -- `r` is the state with the audit's job, and the job and its check unit, where it has one
    generalize s.auditReady = r
    match r with
    | (_, none) => rfl
    | (_, some (_, _)) => exact out_ite_next rfl (out_ite_next rfl (out_ite_next rfl rfl))

end Sys2Proof.Machine
end

section
/-! PROOF SUPPORT. What the commands of the Braid and of the Bight answer when their conditions hold (R307, R382 to R395, R401). -/
namespace Sys2Proof.Machine
open Sys2Proof

/-- Settles O20: a message acts on the state in which the port has taken or passed on its frame; the times named decide a timer's
guard. -/
theorem braidMessageCommandsComplete : Obligations.BraidMessageCommandsComplete := by
  refine ⟨?brdKeepaliveSend, ?brdKeepalive, ?walkStart, ?knotWalkTimer, ?brdWalk, ?brdTopology, ?delayExchangeTimer, ?brdDelayReq,
    ?brdDelayResp, ?timeSendTimer, ?brdTime, ?brdMeshRelay, ?brdBroadcast⟩
  case brdKeepaliveSend =>
    intro s p x hup hdue hnone
    exact State.goes_of_ite rfl ⟨hup, hdue, by rw [hnone]; rfl⟩
  case brdKeepalive => exact fun s h u htake => State.goes_of_next rfl (htake ▸ rfl)
  case walkStart => exact fun s howed => State.goes_of_ite rfl howed
  case knotWalkTimer => exact fun s hknot hdue => State.goes_of_ite rfl ⟨hknot, hdue⟩
  case brdWalk => exact fun s h entries split u htake => State.goes_of_next rfl (htake ▸ rfl)
  case brdTopology => exact fun s h nodes broken knot master u here hin => State.goes_of_next rfl (hin ▸ rfl)
  case delayExchangeTimer =>
    intro s p n htakes hdue
    refine State.goes_past_guard rfl rfl ?_
    simp [n, htakes, hdue]
  case brdDelayReq => exact fun s h u htake => State.goes_of_next rfl (htake ▸ rfl)
  case brdDelayResp =>
    intro s h t2 t3 p u htake
    refine State.goes_of_next rfl (htake ▸ ?_)
    dsimp only
    cases tget (fun _ => none) u.brd.reqs p <;> rfl
  case timeSendTimer =>
    intro s hmaster hen hdue
    refine State.goes_past_guard rfl rfl ?_
    simp [hmaster, hen, hdue]
  case brdTime =>
    intro s h value corr pps p u htake
    exact State.goes_of_next rfl (htake ▸ out_ite_next rfl rfl)
  case brdMeshRelay =>
    intro s h site rfs rssi snr time mpdu body u here hin
    refine State.goes_of_next rfl ?_
    dsimp only [body] at hin ⊢
    rw [hin]
    exact out_ite_next rfl rfl
  case brdBroadcast => exact fun s h record u here hin => State.goes_of_next rfl (hin ▸ rfl)

/-- Settles O21: a handover message is handed to the rule of its kind; the cutover, the taps and the times named decide the guards
of the Bight. -/
theorem handoverFabricAndBightCommandsComplete : Obligations.HandoverFabricAndBightCommandsComplete := by
  refine ⟨?brdBcastCmd, fun s i w => rfl, ?brdHoOffer, ?brdHoAccept, ?brdHoRefuse, ?brdHoDone, ?brdHoFail, ?hoAckTimeout,
    fun s i w => rfl, ?bightLane1Open, ?bightCutoverQueue, ?bightCutover, ?bightMember, ?bightInsertRetry, fun s i w => rfl,
    fun s i w => rfl, ?bightCutoverProposal⟩
  case brdBcastCmd => exact fun s i w => State.goes_of_next rfl (out_ite_next rfl rfl)
  case brdHoOffer => exact fun s h eui addr image entry => rfl
  case brdHoAccept => exact fun s h addr payload => rfl
  case brdHoRefuse => exact fun s h addr cause => rfl
  case brdHoDone => exact fun s h addr => rfl
  case brdHoFail => exact fun s h addr => rfl
  case hoAckTimeout =>
    intro s sess k a hassoc node addr hho htries
    refine State.goes_of_next rfl ?_
    dsimp only [k] at hassoc ⊢
    rw [hassoc]
    dsimp only
    rw [hho]
    exact if_neg (Nat.not_lt.mpr htries)
  case bightLane1Open =>
    intro s t htaps hstate hen hleave hretry hdue hclock htap
    refine State.goes_of_next rfl (htaps ▸ if_neg ?_)
    simp [hstate, hen, hleave, hretry, hdue, hclock, htap]
  case bightCutoverQueue =>
    intro s
    refine State.goes_of_next rfl ?_
    -- `u` is the state in which the ports whose cutover is near hold what they would send
    dsimp only
    generalize s.onBrd _ = u
    cases u.brd.cut <;> rfl
  case bightCutover =>
    intro s
    refine State.goes_of_next rfl ?_
    -- `u` is the state after the neighbours' cutovers that fall due
    dsimp only
    generalize List.foldl _ s _ = u
    cases u.brd.cut with
    | none => rfl
    | some c => exact out_ite_next rfl (out_ite_next rfl (out_ite_next rfl (out_ite_next rfl rfl)))
  case bightMember =>
    intro s c hcut hstate hlane
    refine State.goes_of_next rfl (hcut ▸ (if_neg ?_).trans (out_ite_next rfl (out_ite_next rfl rfl)))
    simp [hstate, hlane]
  case bightInsertRetry => exact fun s t hretry hdue => State.goes_of_next rfl (hretry ▸ congrArg _ (if_pos hdue))
  case bightCutoverProposal =>
    intro s p cut kind leaving
    refine State.goes_of_next rfl ?_
    -- a proposal, an acceptance or a refusal
    match kind with
    | 0 | 1 | 2 => rfl

end Sys2Proof.Machine
end

section
/-! PROOF SUPPORT. The status registers after `settle` (R426, R431, R440, R461, R488, R492, R510): each reads what its own part of
`settle` wrote, and what that part had read stands unchanged beside it. -/
namespace Sys2Proof.Machine
open Sys2Proof

/-! ### One-bit fields -/

theorem State.bit_putB_same (s : State) {f : Fld} (o : Nat) (b : Bool) (hw : f.lo = f.hi := by rfl) (hh : f.hi < 32 := by decide) :
    (s.putB f o b).bit f o = b := by
  rw [State.bit, State.putB, State.get_put_same _ _ _ _ hw.le hh, hw]
  cases b <;> simp

theorem State.bit_put_apart (s : State) {f g : Fld} (o o' v : Nat) (hl : f.lo ≤ f.hi := by decide) (hh : g.hi < 32 := by decide)
    (ha : g.hi < f.lo ∨ f.hi < g.lo := by decide) : (s.put f o v).bit g o' = s.bit g o' := by
  rw [State.bit, State.get_put_apart _ _ _ _ _ _ hl hh ha, State.bit]

theorem State.bit_putB_apart (s : State) {f g : Fld} (o o' : Nat) (b : Bool) (hl : f.lo ≤ f.hi := by decide)
    (hh : g.hi < 32 := by decide) (ha : g.hi < f.lo ∨ f.hi < g.lo := by decide) : (s.putB f o b).bit g o' = s.bit g o' :=
  s.bit_put_apart o o' _ hl hh ha

theorem State.get_putB_apart (s : State) {f g : Fld} (o o' : Nat) (b : Bool) (hl : f.lo ≤ f.hi := by decide)
    (hh : g.hi < 32 := by decide) (ha : g.hi < f.lo ∨ f.hi < g.lo := by decide) : (s.putB f o b).get g o' = s.get g o' :=
  State.get_put_apart _ _ _ _ _ _ hl hh ha

theorem State.get_put_word₀ (s : State) {f g : Fld} (v : Nat) (h : g.addr ≠ f.addr := by decide) : (s.put f 0 v).get g = s.get g :=
  State.get_put_word _ _ _ _ _ _ h

theorem State.get_putB_word₀ (s : State) {f g : Fld} (b : Bool) (h : g.addr ≠ f.addr := by decide) : (s.putB f 0 b).get g = s.get g :=
  State.get_put_word _ _ _ _ _ _ h

theorem State.bit_put_word₀ (s : State) {f g : Fld} (v : Nat) (h : g.addr ≠ f.addr := by decide) : (s.put f 0 v).bit g = s.bit g := by
  rw [State.bit, State.get_put_word₀ _ _ h, State.bit]

theorem State.bit_putB_word₀ (s : State) {f g : Fld} (b : Bool) (h : g.addr ≠ f.addr := by decide) : (s.putB f 0 b).bit g = s.bit g :=
  s.bit_put_word₀ _ h

theorem State.get_congr {s t : State} {f : Fld} {o : Nat} (h : t.live (f.addr + o) = s.live (f.addr + o)) : t.get f o = s.get f o := by
  rw [State.get, h, State.get]

theorem State.bit_congr {s t : State} {f : Fld} {o : Nat} (h : t.live (f.addr + o) = s.live (f.addr + o)) : t.bit f o = s.bit f o := by
  rw [State.bit, State.get_congr h, State.bit]

/-! ### The events that pend, and the one on top (R426) -/

theorem range_mul_eq_flatMap (n m : Nat) : List.range (n * m) = (List.range m).flatMap fun g => (List.range n).map fun i => n * g + i := by
  induction m with
  | zero => rfl
  | succ m ih => rw [Nat.mul_succ, List.range_add, ih, List.range_succ, List.flatMap_append, List.flatMap_singleton]

/-- The list of pending events is the filtered list of all of them. -/
theorem State.pendEvents_eq (s : State) : s.pendEvents = (List.range 256).filter s.evPends := by
  rw [range_mul_eq_flatMap 32 8, List.filter_flatMap]
  refine List.flatMap_congr fun g _ => ?_
  have hbit : ∀ i ∈ List.range 32, s.evPends (32 * g + i) = (s.pendWord g).getLsbD i := fun i hi => by
    have hi := List.mem_range.mp hi
    have hg : (32 * g + i) / 32 = g := by omega
    have hm : (32 * g + i) % 32 = i := by omega
    simp [State.evPends, State.evLatched, State.evOn, State.pendWord, hg, hm]
  rw [List.filter_map, List.filter_congr (p := s.evPends ∘ _) (q := fun i => (s.pendWord g).getLsbD i) hbit]
  dsimp only
  split
  next h => simp [h]
  next => rfl

theorem State.irqEvents_eq (s : State) : s.irqEvents = (List.range 256).filter s.evDrives := by
  rw [State.irqEvents, State.pendEvents_eq, List.filter_filter]
  exact List.filter_congr fun e _ => by rw [State.evDrives, Bool.and_comm]

theorem State.mem_irqEvents {s : State} {e : Nat} : e ∈ s.irqEvents ↔ e < 256 ∧ s.evDrives e = true := by
  rw [State.irqEvents_eq, List.mem_filter, List.mem_range]

theorem State.irqEvents_sorted (s : State) : s.irqEvents.Pairwise (· < ·) := by
  rw [State.irqEvents_eq]
  exact List.Pairwise.filter _ List.pairwise_lt_range

theorem State.evClass_lt (s : State) (e : Nat) : s.evClass e < 4 := by
  have h := bitsOf_lt (s.live (0x010040 + 4 * (e / 16))) (2 * (e % 16) + 1) (2 * (e % 16))
  have hw : 2 * (e % 16) + 1 + 1 - 2 * (e % 16) = 2 := by omega
  rw [hw] at h
  exact h

/-- `e` may stand on top of `x`: it is of a more urgent class, or of the same one and not above it. -/
def State.Tops (s : State) (e x : Nat) : Prop := s.evClass e < s.evClass x ∨ (s.evClass e = s.evClass x ∧ e ≤ x)

theorem State.topEvent_eq_none {s : State} (h : s.topEvent = none) {e : Nat} (he : e < 256) : s.evDrives e = false := by
  rw [State.topEvent, List.findSome?_eq_none_iff] at h
  by_contra hd
  have hc : s.evClass e ∈ [0, 1, 2, 3] := by
    have := s.evClass_lt e
    simp only [List.mem_cons, List.not_mem_nil, or_false]
    omega
  have := List.find?_eq_none.mp (h _ hc) e (State.mem_irqEvents.mpr ⟨he, by simpa using hd⟩)
  simp at this

theorem State.topEvent_eq_some {s : State} {e : Nat} (h : s.topEvent = some e) :
    e < 256 ∧ s.evDrives e = true ∧ ∀ x, x < 256 → s.evDrives x = true → s.Tops e x := by
  obtain ⟨before, c, after, hcls, hfind, hnone⟩ := List.findSome?_eq_some_iff.mp h
  obtain ⟨hec, pre, post, hl, hpre⟩ := List.find?_eq_some_iff_append.mp hfind
  have hec : s.evClass e = c := by simpa using hec
  obtain ⟨he, hd⟩ := State.mem_irqEvents.mp (hl ▸ List.mem_append_right _ (List.mem_cons_self ..))
  refine ⟨he, hd, fun x hx hxd => ?_⟩
  have hxm : x ∈ s.irqEvents := State.mem_irqEvents.mpr ⟨hx, hxd⟩
  -- no event of an earlier class drives `IRQ_N`, so the class of `x` is `c` or a later one
  have hxc : s.evClass x ∉ before := fun hb => by
    have := List.find?_eq_none.mp (hnone _ hb) x hxm
    simp at this
  have hle : c ≤ s.evClass x := by
    have hmem : s.evClass x ∈ List.range 4 := List.mem_range.mpr (s.evClass_lt x)
    have hsort : (List.range 4).Pairwise (· < ·) := List.pairwise_lt_range
    rw [show List.range 4 = before ++ c :: after from hcls] at hmem hsort
    rcases List.mem_cons.mp ((List.mem_append.mp hmem).resolve_left hxc) with h | h
    · exact h.ge
    · exact (List.rel_of_pairwise_cons (List.pairwise_append.mp hsort).2.1 h).le
  rcases Nat.lt_or_eq_of_le hle with hlt | heq
  · exact .inl (hec ▸ hlt)
  · refine .inr ⟨hec.trans heq, ?_⟩
    have hs := s.irqEvents_sorted
    rw [hl] at hs hxm
    rcases List.mem_append.mp hxm with hp | hp
    · have := hpre x hp
      simp [← heq] at this
    · rcases List.mem_cons.mp hp with rfl | hp
      · exact le_rfl
      · exact (List.rel_of_pairwise_cons (List.pairwise_append.mp hs).2.1 hp).le

/-! ### What each part shows -/

/-- Where the words that say what pends stand as in `s`, the same events drive `IRQ_N`. -/
theorem State.evPends_congr {s t : State} (h : ∀ a, 0x010000 ≤ a → a < 0x010088 → t.live a = s.live a) {e : Nat} (he : e < 256) :
    t.evPends e = s.evPends e := by
  unfold State.evPends State.evLatched State.evOn
  rw [h _ (by omega) (by omega), h _ (by omega) (by omega)]

theorem State.evClass_congr {s t : State} (h : ∀ a, 0x010000 ≤ a → a < 0x010088 → t.live a = s.live a) {e : Nat} (he : e < 256) :
    t.evClass e = s.evClass e := by
  unfold State.evClass
  rw [h _ (by omega) (by omega)]

theorem State.evDrives_congr {s t : State} (h : ∀ a, 0x010000 ≤ a → a < 0x010088 → t.live a = s.live a) {e : Nat} (he : e < 256) :
    t.evDrives e = s.evDrives e := by
  unfold State.evDrives
  rw [State.evPends_congr h he, State.evClass_congr h he, State.get_congr (h _ (by decide) (by decide))]

/-- `EVC_STATUS` as `eventShow` wrote it, the words of the controller standing, shows the events. -/
theorem State.eventsShown_of_eventShow {s t : State} (hstat : t.live F.EVC_STATUS.addr = s.eventShow.live F.EVC_STATUS.addr)
    (h : ∀ a, 0x010000 ≤ a → a < 0x010088 → t.live a = s.live a) : t.EventsShown := by
  have hirq : t.bit F.EVC_STATUS_IRQ = s.topEvent.isSome := by
    rw [State.bit_congr (s := s.eventShow) hstat]
    unfold State.eventShow
    rw [State.bit_put_apart, State.bit_putB_apart, State.bit_put_apart, State.bit_putB_same]
  have hvalid : t.bit F.EVC_STATUS_TOP_VALID = s.topEvent.isSome := by
    rw [State.bit_congr (s := s.eventShow) hstat]
    unfold State.eventShow
    rw [State.bit_put_apart, State.bit_putB_same]
  have htop : t.get F.EVC_STATUS_TOP = s.topEvent.getD 0 % 256 := by
    rw [State.get_congr (s := s.eventShow) hstat]
    unfold State.eventShow State.putB
    rw [State.get_put_apart _ _ _ _ _ _ (by decide) (by decide) (by decide),
      State.get_put_apart _ _ _ _ _ _ (by decide) (by decide) (by decide),
      State.get_put_same _ _ _ _ (by decide) (by decide)]
    rfl
  have hpend : t.get F.EVC_STATUS_PENDING = s.pendEvents.length % 512 := by
    rw [State.get_congr (s := s.eventShow) hstat]
    exact State.get_put_same _ _ _ _ (by decide) (by decide)
  refine ⟨?irq, hvalid.trans hirq.symm, ?top, ?pending⟩
  case irq =>
    rw [hirq]
    cases hs : s.topEvent with
    | none =>
      refine (List.any_eq_false.mpr fun e he => ?_).symm
      have he := List.mem_range.mp he
      rw [State.evDrives_congr h he, State.topEvent_eq_none hs he]
      decide
    | some e =>
      obtain ⟨he, hd, -⟩ := State.topEvent_eq_some hs
      exact (List.any_eq_true.mpr ⟨e, List.mem_range.mpr he, (State.evDrives_congr h he).trans hd⟩).symm
  case top =>
    rw [hirq, htop]
    intro hsome
    obtain ⟨e, hs⟩ := Option.isSome_iff_exists.mp hsome
    obtain ⟨he, hd, hmin⟩ := State.topEvent_eq_some hs
    rw [hs, Option.getD_some, Nat.mod_eq_of_lt he, State.evDrives_congr h he, State.evClass_congr h he]
    refine ⟨hd, fun x hx hxd => ?_⟩
    rw [State.evClass_congr h hx]
    exact hmin x hx (State.evDrives_congr h hx ▸ hxd)
  case pending =>
    have hlen : s.pendEvents.length ≤ 256 := by
      rw [State.pendEvents_eq]
      exact (List.length_filter_le _ _).trans List.length_range.le
    rw [hpend, Nat.mod_eq_of_lt (by omega), State.pendEvents_eq]
    exact congrArg List.length (List.filter_congr fun e he => (State.evPends_congr h (List.mem_range.mp he)).symm)

/-- `PWR_DOMAIN_STAT` as `domainShow` wrote it shows the work of a state that differs in registers only. -/
theorem State.domainsShown_of_domainShow {s t : State} (hstat : t.live F.PWR_DOMAIN_STAT.addr = s.domainShow.live F.PWR_DOMAIN_STAT.addr)
    (hlink : t.live F.CXL_LINK_STAT.addr = s.live F.CXL_LINK_STAT.addr) (h : s.RegsOnly t) : t.DomainsShown := by
  have hdecode : t.bit F.PWR_DOMAIN_STAT_DECODE = (s.decodeWork || s.bit F.PWR_DOMAIN_STAT_DECODE) := by
    rw [State.bit_congr (s := s.domainShow) hstat]
    unfold State.domainShow
    rw [State.bit_putB_apart, State.bit_putB_apart, State.bit_putB_apart, State.bit_putB_same]
  have hcipher : t.bit F.PWR_DOMAIN_STAT_CIPHER = (s.cipherWork || s.bit F.PWR_DOMAIN_STAT_CIPHER) := by
    rw [State.bit_congr (s := s.domainShow) hstat]
    unfold State.domainShow
    rw [State.bit_putB_apart, State.bit_putB_apart, State.bit_putB_same]
  have hradio : t.bit F.PWR_DOMAIN_STAT_RADIO = s.mac.next.isSome := by
    rw [State.bit_congr (s := s.domainShow) hstat]
    unfold State.domainShow
    rw [State.bit_putB_apart, State.bit_putB_same]
  have hcxl : t.bit F.PWR_DOMAIN_STAT_CXL_L1 = (s.bit F.PWR_DOMAIN_STAT_CXL_L1 && !s.cxlWork && s.get F.CXL_LINK_STAT_STATE == 2) := by
    rw [State.bit_congr (s := s.domainShow) hstat]
    exact State.bit_putB_same _ _ _
  refine ⟨fun hw => ?_, fun hw => ?_, ?_, fun hb => ?_⟩
  · rw [h.field State.decodeWork fun _ _ => rfl] at hw
    rw [hdecode, hw, Bool.true_or]
  · rw [h.field State.cipherWork fun _ _ => rfl] at hw
    rw [hcipher, hw, Bool.true_or]
  · rw [hradio, h.field State.mac fun _ _ => rfl]
  · rw [hcxl] at hb
    rw [h.field State.cxlWork fun _ _ => rfl, State.get_congr hlink]
    simp only [Bool.and_eq_true, Bool.not_eq_true', beq_iff_eq] at hb
    obtain ⟨⟨-, hwork⟩, hup⟩ := hb
    exact ⟨hwork, hup⟩

theorem bitsOf_one (w : Word) (k : Nat) : (bitsOf w k k == 1) = w.getLsbD k := by
  have h := bitsOf_testBit w k k 0
  have hlt : bitsOf w k k < 2 := by simpa using bitsOf_lt w k k
  have hbit : (bitsOf w k k == 1) = (bitsOf w k k).testBit 0 := by
    generalize bitsOf w k k = n at hlt
    interval_cases n <;> rfl
  simpa [hbit] using h

/-- Bit `j` of the sum of the powers `2 ^ k`, `k < m`, whose `p k` holds. -/
theorem testBit_foldl_pow (p : Nat → Bool) (m : Nat) :
    let n := (List.range m).foldl (fun (n : Nat) k => if p k then n + 2 ^ k else n) 0
    n < 2 ^ m ∧ ∀ j, n.testBit j = (decide (j < m) && p j) := by
  induction m with
  | zero => simp
  | succ m ih =>
    obtain ⟨hlt, hbit⟩ := ih
    rw [List.range_succ, List.foldl_append]
    generalize (List.range m).foldl _ 0 = n at hlt hbit
    have hpow : 2 ^ (m + 1) = 2 ^ m + 2 ^ m := by omega
    -- bit `m` joins bits that all lie below it
    have hsum : n + 2 ^ m = 2 ^ m ||| n := by
      simpa [Nat.add_comm] using Nat.two_pow_add_eq_or_of_lt hlt 1
    simp only [List.foldl_cons, List.foldl_nil]
    split
    next hp =>
      refine ⟨by omega, fun j => ?_⟩
      rw [hsum, Nat.testBit_or, Nat.testBit_two_pow, hbit]
      by_cases hj : m = j
      · simp [← hj, hp]
      · have : j < m + 1 ↔ j < m := by omega
        simp [hj, this]
    next hp =>
      refine ⟨by omega, fun j => ?_⟩
      rw [hbit]
      by_cases hj : m = j
      · simp [← hj, hp]
      · have : j < m + 1 ↔ j < m := by omega
        simp [this]

theorem State.bitAt_put (s : State) (f : Fld) (o v : Nat) {k : Nat} (hl : f.lo ≤ f.hi) (hk : f.lo ≤ k ∧ k ≤ f.hi) (hh : f.hi < 32) :
    (s.put f o v).bitAt f o k = v.testBit (k - f.lo) := by
  rw [State.bitAt, bitsOf_one, State.live_put, if_pos rfl, setBits_getLsbD _ _ _ _ _ (by omega) hl, if_pos hk]

theorem State.bitAt_congr {s t : State} {f : Fld} {o n : Nat} (h : t.live (f.addr + o) = s.live (f.addr + o)) :
    t.bitAt f o n = s.bitAt f o n := by
  rw [State.bitAt, h, State.bitAt]

/-- The registers of belay, the log, the commands and the reasons as `queueShow` wrote them, the slots standing, show the queues. -/
theorem State.queuesShown_of_queueShow {s t : State}
    (hstat : ∀ f ∈ [F.BLY_STAT_BUSY, F.LOG_PROT_STAT_FULL, F.HAL_STATUS_CMD_QUEUE, F.BST_REPLACE_STAT_SERVICE],
      t.live f.addr = s.queueShow.live f.addr)
    (hslot : ∀ k, k < 16 → t.live (F.BLY_SLOT_STAT.addr + blyO k) = s.live (F.BLY_SLOT_STAT.addr + blyO k))
    (hcmd : t.cmdQ = s.cmdQ) : t.QueuesShown := by
  simp only [List.forall_mem_cons, List.not_mem_nil, false_imp_iff, implies_true, and_true] at hstat
  obtain ⟨hbly, hlog, hhal, hbst⟩ := hstat
  refine ⟨fun k hk => ?busy, ?full, ?commands, ?service⟩
  case busy =>
    have hstate : t.jobState k = s.jobState k := State.get_congr (hslot k hk)
    rw [State.bitAt_congr (s := s.queueShow) hbly, hstate]
    unfold State.queueShow
    dsimp only
    rw [State.bitAt_congr (State.live_putB_other _ _ _ _ (by decide)), State.bitAt_congr (State.live_put_other _ _ _ _ (by decide)),
      State.bitAt_congr (State.live_putB_other _ _ _ _ (by decide)),
      State.bitAt_put _ _ _ _ (by decide) ⟨Nat.zero_le k, Nat.le_of_lt_succ hk⟩ (by decide)]
    refine ((testBit_foldl_pow s.slotBusy 16).2 k).trans ?_
    rw [decide_eq_true hk, Bool.true_and, State.slotBusy]
  case full =>
    rw [State.bit_congr (s := s.queueShow) hlog, State.get_congr (s := s.queueShow) hlog]
    unfold State.queueShow
    dsimp only
    rw [State.bit_putB_word₀, State.bit_put_word₀, State.bit_putB_same, State.get_putB_word₀, State.get_put_word₀, State.get_putB_apart,
      State.get_put_word₀]
  case commands =>
    rw [State.get_congr (s := s.queueShow) hhal, hcmd]
    unfold State.queueShow
    dsimp only
    rw [State.get_putB_word₀, State.get_put_same _ _ _ _ (by decide) (by decide)]
    rfl
  case service =>
    have hreasons : s.queueShow.get F.BST_REPLACE_STAT_REASONS = s.get F.BST_REPLACE_STAT_REASONS := by
      unfold State.queueShow
      rw [State.get_putB_apart, State.get_put_word₀, State.get_putB_word₀, State.get_put_word₀]
    rw [State.bit_congr (s := s.queueShow) hbst, State.get_congr (s := s.queueShow) hbst, hreasons]
    unfold State.queueShow
    dsimp only
    rw [State.bit_putB_same, State.get_putB_word₀, State.get_put_word₀]

/-- `GLB_STATUS` as `summaryShow` wrote it shows the module. -/
theorem State.summaryShown_summaryShow (s : State) : s.summaryShow.SummaryShown := by
  have hget : ∀ {f : Fld} {o : Nat}, f.addr + o ≠ F.GLB_STATUS_OWNER.addr → s.summaryShow.get f o = s.get f o := fun h =>
    State.get_congr (s.live_summaryShow_other _ h)
  have hbit : ∀ {f : Fld}, f.addr ≠ F.GLB_STATUS_OWNER.addr → s.summaryShow.bit f = s.bit f := fun h =>
    State.bit_congr (s.live_summaryShow_other _ h)
  have hown : s.summaryShow.own = s.own := s.regsOnly_summaryShow.field State.own fun _ _ => rfl
  have hjob : s.summaryShow.profileJob = s.profileJob := by
    unfold State.profileJob State.slotBusy State.jobState
    simp only [fun k => hget (f := F.BLY_SLOT_STAT_STATE) (o := blyO k) (by simp [F.BLY_SLOT_STAT_STATE, F.GLB_STATUS_OWNER]; omega),
      fun k => hget (f := F.BLY_SLOT_STAT_KIND) (o := blyO k) (by simp [F.BLY_SLOT_STAT_KIND, F.GLB_STATUS_OWNER]; omega)]
  -- what each bit follows stands outside `GLB_STATUS`
  refine ⟨.trans ?_ hown.symm, .trans ?_ (congrArg (· == 7) (hget (by decide))).symm, .trans ?_ (congrArg (· == 1) (hget (by decide))).symm,
    .trans ?_ (hbit (by decide)).symm, .trans ?_ (hbit (by decide)).symm, .trans ?_ (hbit (by decide)).symm,
    .trans ?_ (hbit (by decide)).symm, .trans ?_ hjob.symm⟩
  -- each bit is written once, and what is written after it is other bits of the word
  all_goals
    unfold State.summaryShow
    dsimp only
    repeat rw [State.bit_putB_apart]
    exact State.bit_putB_same _ _ _

theorem not_mem_settledAddrs_of_range {lo hi a : Nat} (hall : ∀ b ∈ settledAddrs, b < lo ∨ hi ≤ b) (hlo : lo ≤ a) (hhi : a < hi) :
    a ∉ settledAddrs := fun hm => by
  have := hall a hm
  omega

/-- `settle` settles, whatever the state before it: each part shows its registers, and the later parts write other words. -/
theorem State.settled_settle (s : State) : s.settle.Settled := by
  have hlast : ∀ a, a ∉ (settledAddrs.drop 2).take 5 → s.settle.live a = s.trainShow.eventShow.domainShow.live a := fun a h => by
    simp only [settledAddrs, List.drop_succ_cons, List.drop_zero, List.take_succ_cons, List.take_zero, List.mem_cons, List.not_mem_nil,
      or_false, not_or] at h
    obtain ⟨hbly, hlog, hhal, hbst, hglb⟩ := h
    exact (State.live_summaryShow_other _ a hglb).trans (State.live_queueShow_other _ a hbly hlog hhal hbst)
  refine ⟨?events, ?domains, ?queues, State.summaryShown_summaryShow _⟩
  case events =>
    refine State.eventsShown_of_eventShow (s := s.trainShow) ?_ fun a hlo hhi => ?_
    · rw [hlast _ (by decide), State.live_domainShow_other _ _ (by decide)]
    · have h := not_mem_settledAddrs_of_range (by decide) hlo hhi
      rw [s.live_settle_other a h, State.live_trainShow_other _ _ (ne_of_mem_of_not_mem (by decide) h).symm
        (ne_of_mem_of_not_mem (by decide) h).symm]
  case domains =>
    refine State.domainsShown_of_domainShow (s := s.trainShow.eventShow) (hlast _ (by decide)) ?_
      ((State.regsOnly_domainShow _).trans ((State.regsOnly_queueShow _).trans (State.regsOnly_summaryShow _)))
    rw [hlast _ (by decide), State.live_domainShow_other _ _ (by decide)]
  case queues =>
    refine State.queuesShown_of_queueShow (s := s.trainShow.eventShow.domainShow) (fun f hf => State.live_summaryShow_other _ _ ?_)
      (fun k hk => hlast _ fun hm => ?_)
      (((State.regsOnly_queueShow _).trans (State.regsOnly_summaryShow _)).field State.cmdQ fun _ _ => rfl)
    · revert f hf
      decide
    · refine not_mem_settledAddrs_of_range (lo := F.BLY_SLOT_STAT.addr) (hi := F.BLY_SLOT_STAT.addr + 0x200) (by decide)
        (Nat.le_add_right ..) ?_ (List.mem_of_mem_drop (List.mem_of_mem_take hm))
      simp only [blyO]
      omega

/-- The queue of commands is nothing that a status register shows. -/
theorem State.Settled.pending {s : State} (h : s.Settled) (q : List Instr) : ({ s with pending := q } : State).Settled :=
  ⟨⟨h.events.irq, h.events.valid, h.events.top, h.events.pending⟩,
    ⟨h.domains.decode, h.domains.cipher, h.domains.radio, h.domains.cxl⟩,
    ⟨h.queues.busy, h.queues.full, h.queues.commands, h.queues.service⟩,
    ⟨h.summary.owner, h.summary.noImage, h.summary.cacheOnly, h.summary.fenced, h.summary.service, h.summary.thermal, h.summary.irq,
      h.summary.switching⟩⟩

end Sys2Proof.Machine
end

section
/-! PROOF SUPPORT. Every command answers a next state (log entry 6), so that steps run through the queue and end settled. -/
namespace Sys2Proof.Machine
open Sys2Proof

/-- The outcome is a next state. -/
def Out.IsNext (o : Out) : Prop := ∃ t, o = .next t

theorem Out.IsNext.next {t : State} : Out.IsNext (.next t) := ⟨t, rfl⟩

theorem Out.IsNext.ite {c : Prop} [Decidable c] {a b : Out} (ha : a.IsNext) (hb : b.IsNext) : Out.IsNext (if c then a else b) := by
  split
  · exact ha
  · exact hb

theorem State.exists_goes {s : State} {c : Instr} {o : Out} (h : exec c s = s.answer o) (ho : o.IsNext) : ∃ t, s.goes c t := by
  obtain ⟨t, rfl⟩ := ho
  exact ⟨t, h⟩

section
open Out.IsNext (next ite)

/-- Every command goes to some state: its meaning branches on conditions and on what it finds, and each branch ends in a next state.
The commands are grouped by how they branch. -/
theorem exec_goes (c : Instr) (s : State) : ∃ t, s.goes c t := by
  cases c
  case powerReset | vinUvloFall | pinReset | perstRelease | xt32Check | clkCommit | cordEngineWake | domainIdleStop | cxlL1Entry |
      supplyMonitor | glbProfileCmd | lpCommit | chainOutput | fadeEnd | coefWrite | fcSyncCmd | strCommitApply | mnsPortClear |
      mnsCommit | assocRefuseHoldEnd | plnCommitGroups | plnCommitRate | plnCommitLimits | plnCommitApply | sesCmdDelete |
      sesCmdSetPrio | sesCmdClearPrio | sesCmdRead | sesCmdWrite | sesCmdFlush | sesCmdRestore | sesCmdRestoreEnd | leaseRequest |
      leaseRelease | leaseRenew | contextPrefetch | spoolWrite | credit | halAck | cxlLinkDown | cxlRequestTimeout | cxlRetrainTimer |
      cxlRetrain | macCtrlRun | routeAgeOut | seenExpire | mshCommit | kcacheFlush | entropyFail | cipSesRead | cipSesRekeyDue |
      cipSesReprovision | cipCommit | chkArm | chkStop | chkClrExpect | chkExpectWrite | chkWindowStart | chkCommit | chkCommitApply |
      laneUp | laneDown | takeoverTimeout | splSwitchover | splUnpair | splResync | splCommit | brdKeepaliveSend | walkStart |
      knotWalkTimer | brdHoCmd | brdHoOffer | brdHoAccept | brdHoRefuse | brdHoDone | brdHoFail | brdJoinRing | brdLeave | brdCommit |
      halLinkDown | halPortReturn | halHelloSend | halCommit | halMsecInstall | halMsecEnable | halMsecDisable | mgtWrite | mgtRead |
      mgtStatus | mgtId | writeLogEntry | eventRecordDue | evcLatchClear | blyCancel | cipherTestStep | selfTestStep | bstReplaceAck |
      bstReplaceClr | logClearProt | logMarkExported | glbCommit | glbRevert | glbTimeCapture | wideValueRead | registerWrite =>
    exact ⟨_, rfl⟩
  case startUp | pllLocked | quickSelfTest | refclkLost | pllUnlock | pllRelock | ppsOutPulse | cordEngineStop | profileSwitchDrainEnd |
      coreLost | lpCommitApply | lpPgaWrite | overrangeWindow | pgaUpStepRequest | transmissionEnd | lrefFault | lrefClear |
      lpFlagsClear | aenShift | aenIdleShift | chainSettled | swapStart | fcCommit | fcCommitApply | fcAuxDataAccess | fcSetDirWrite |
      qualifyTimeout | qualifyLevelDrop | strSyncTimeout | levelLost | strCommit | mapWindow | mnsCommitApply | readDue |
      unreachablePollDue | phasePollDue | plnPinSet | plnPinClearAll | plnPinRead | plnLimitsApply | writeBackDone | recordSend |
      cxlCacheOnly | rhLinkUp | rhLinkDown | rhLinkInitRetry | rhScriptLate | radioCmdFailed | parentLost | coordIndependent |
      macCommit | macCtrlSubord | mshRouteClearOne | mshRouteClearAll | drbgReseed | entropyRetest | rawJobStart | helloSend |
      ownershipRefresh | ownWatchdogExpiry | splHeartbeatSend | delayExchangeTimer | timeSendTimer | brdBcastCmd | halLinkUp |
      halVersion | blyStart | blyOverrun | jobStatusReport | sessionScrubStep | cxlScrubStep | noiseMapExportStep | nvmReadStep |
      nvmEraseStep | bstClearMark | replaceRequestRepeat | gpioCapture | tapInstructionUpdate | braidTimeValidLapse |
      entropyStartupTest =>
    exact State.exists_goes rfl (ite next next)
  case startDone | ppsEdge | watchWindow | listenWindowClose | headerVerdict | replayLive | strCntClr | binEnd | readOverdue |
      discoverySweepDue | cxlMediaPoll | linkFrameRejected | ownInFall | rekeySweepStep | testCordMove =>
    exact State.exists_goes rfl (ite next (ite next next))
  case contextFillDone =>
    exact State.exists_goes rfl (ite (ite next (ite next next)) next)
  case imageLoadDone | linkGcmWaitExpiry | fcSwap | anchorProgram | linkConfirm | linkSilenceTimeout | logExportStep | nvmProgramStep |
      nvmStatusPoll =>
    exact State.exists_goes rfl (ite next (ite next (ite next next)))
  case linkBringupTimeout =>
    exact State.exists_goes rfl (ite next (ite (ite next (ite next next)) next))
  case aenShiftRequest | cxlLinkUp | halCommand =>
    exact State.exists_goes rfl (ite next (ite next (ite next (ite next next))))
  case cxlAuditStep =>
    exact State.exists_goes rfl (ite next (ite next (ite next (ite next (ite next next)))))
  case softReset | headendWaitExpiry | pgaHeldGrant | journalUpdateResume | storeHeaderWrite | creditStall | macCommitApply |
      macScriptDataAccess | mshCommitApply | splitClaimTimeout | splAck | splCtxReq | brdKeepalive | brdWalk | brdTopology |
      brdDelayReq | brdBroadcast | bightInsertRetry | halNegotiationEnd | cmdRawJob | cmdJobStart | cmdReplaceAck =>
    refine State.exists_goes rfl ?_
    split <;> exact next
  case roundDelayed | leaseExpiry | bightCutoverQueue =>
    refine State.exists_goes rfl ?_
    dsimp only
    split <;> exact next
  case bightCutoverProposal =>
    refine State.exists_goes rfl ?_
    split <;> exact next
  case selfTestPeriodicStart =>
    refine State.exists_goes rfl (ite ?_ next)
    dsimp only
    split <;> exact next
  case listenWindowOpen | viterbiDecodeStart | rawJobAbort =>
    refine State.exists_goes rfl (ite next ?_)
    split <;> exact next
  case ppsLost | pgaStepEffect | aenLatch | aenTailExpiry | mainsCoastTimeout | phaseAbsent | predictedCycleStart | sweepEnd |
      superframeStart | pairLease | slotStart | phase2Prep | responderSend | slotTail | anchorProgramDone | keyDerivationDone |
      splHeartbeat | splJrn | splVault | splPlan | splRoute | brdTime | bightLane1Open | cmdMeterCommand | cmdCsrRead | cmdCsrWrite |
      cmdJobCancel =>
    refine State.exists_goes rfl ?_
    split
    exacts [next, ite next next]
  case pgaRequestWithdraw | txExit | replayStart | laterFramesSend | planOverload | assignTriesExhausted | leaseWaitTimeout |
      pairRelease | radioAssignExpire | brdMeshRelay =>
    refine State.exists_goes rfl ?_
    dsimp only
    split
    exacts [next, ite next next]
  case parentBeacon =>
    refine State.exists_goes rfl ?_
    split
    exacts [ite next next, next]
  case roundFix =>
    refine State.exists_goes rfl (ite next (ite next ?_))
    split <;> exact next
  case profileSwitchWaitEnd | maskBlock | frameSymbolsDelivered | contextRebuildDone =>
    refine State.exists_goes rfl (ite next ?_)
    dsimp only
    split
    exacts [next, ite next next]
  case syncRestart | journalWriteDone | vaultWriteDone | spliceStartWaitEnd | splCtx | splSwitch =>
    refine State.exists_goes rfl ?_
    split
    exacts [next, ite next (ite next next)]
  case meshResend =>
    refine State.exists_goes rfl ?_
    dsimp only
    split
    exacts [next, ite next (ite next next)]
  case transmissionStart =>
    refine State.exists_goes rfl ?_
    dsimp only
    split
    exacts [ite next (ite next next), next]
  case rawJobDone =>
    refine State.exists_goes rfl ?_
    split
    exacts [next, ite next (ite (ite next next) next)]
  case bightMember =>
    refine State.exists_goes rfl ?_
    split
    exacts [next, ite next (ite next (ite next next))]
  case linkHello =>
    refine State.exists_goes rfl (ite next (ite next (ite next (ite next ?_))))
    split <;> exact next
  case halfSymbolEvaluation =>
    refine State.exists_goes rfl (ite next (ite next ?_))
    split
    exacts [next, ite (ite next next) next]
  case mirrorAuditStep =>
    refine State.exists_goes rfl (ite next ?_)
    dsimp only
    split
    exacts [next, ite next (ite next (ite next next))]
  case deinterleaveDone =>
    refine State.exists_goes rfl ?_
    split
    exacts [next, ite next (ite (ite next next) (ite next next))]
  case claimGuardEnd | claimRetryDelayEnd =>
    refine State.exists_goes rfl ?_
    split
    exacts [next, ite next (ite next (ite next (ite next next)))]
  case bightCutover =>
    refine State.exists_goes rfl ?_
    dsimp only
    split
    exacts [next, ite next (ite next (ite next (ite next next)))]
  case profileSwitchCheckStep =>
    refine State.exists_goes rfl (ite next ?_)
    split
    exacts [next, ite next (ite next (ite next (ite next next)))]
  case viterbiDecodeDone | meterPhaseReport =>
    refine State.exists_goes rfl ?_
    split
    · exact next
    · split <;> exact next
  case brdDelayResp =>
    refine State.exists_goes rfl ?_
    split
    · exact next
    · dsimp only
      split <;> exact next
  case drainRewind =>
    refine State.exists_goes rfl ?_
    dsimp only
    split
    · exact next
    · split <;> exact next
  case hoAckTimeout =>
    refine State.exists_goes rfl ?_
    dsimp only
    split
    · exact next
    · split
      exacts [next, ite next next]
  case halFrameReceive =>
    refine State.exists_goes rfl (ite next (ite next ?_))
    dsimp only
    split
    · exact next
    · split <;> exact next
  case symbolBoundary =>
    refine State.exists_goes rfl (ite next (ite next ?_))
    split
    · exact next
    · split <;> exact next
  case monBlock =>
    refine State.exists_goes rfl (ite next ?_)
    dsimp only
    split
    · exact ite next next
    · split <;> exact next
  case ccmVerifyDone =>
    refine State.exists_goes rfl (ite next ?_)
    split
    · exact next
    · refine ite (ite next next) ?_
      dsimp only
      split
      exacts [next, ite next next]
  case mgtInvalidTransaction =>
    refine State.exists_goes rfl (ite next ?_)
    split
    · exact next
    · refine ite next (ite next ?_)
      split
      exacts [ite next next, next]
  case chkWindowEnd =>
    refine State.exists_goes rfl (ite next (ite next (ite next (ite ?_ (ite next ?_)))))
    · split <;> exact next
    · split <;> exact next
  case splAudit =>
    refine State.exists_goes rfl ?_
    split
    · exact next
    · refine ite next (ite ?_ ?_)
      · dsimp only
        split <;> exact next
      · split
        exacts [ite next next, next]

end

theorem step_of_pending_cons {s : State} {c : Instr} {rest : List Instr} (h : s.pending = c :: rest) :
    step s = exec c { s with pending := rest } := by
  unfold step
  rw [h]

/-- Settles O27. -/
theorem stepRunsFrontCommand : Obligations.StepRunsFrontCommand := fun _ _ _ h => step_of_pending_cons h

/-- Settles O29: every command goes to some state, and an answer puts the queue back. -/
theorem everyCommandAnswers : Obligations.EveryCommandAnswers := by
  intro c s
  obtain ⟨t, ht⟩ := exec_goes c s
  exact ⟨_, ht, rfl⟩

/-- A step with a command waiting takes that command from the queue. -/
theorem step_takes_front {s : State} {c : Instr} {rest : List Instr} (h : s.pending = c :: rest) :
    ∃ t, step s = .next t ∧ t.pending = rest := by
  rw [step_of_pending_cons h]
  exact everyCommandAnswers c { s with pending := rest }

theorem run_succ_of_step {M : Host.Core} {s u : M.State} (h : M.step s = .next u) (k : Nat) : M.run (k + 1) s = M.run k u := by
  simp only [Host.Core.run, h]

/-- Settles O30, by induction on the number of steps: each takes the command in front. -/
theorem queueDrainsInOrder : Obligations.QueueDrainsInOrder := by
  intro s k hk
  induction k generalizing s with
  | zero => exact ⟨s, rfl, rfl⟩
  | succ k ih =>
    cases hq : s.pending with
    | nil => simp [hq] at hk
    | cons c rest =>
      obtain ⟨u, hu, hrest⟩ := step_takes_front hq
      obtain ⟨t, ht, hdrop⟩ := ih u (by simpa [hq, hrest] using hk)
      exact ⟨t, (run_succ_of_step (M := Sys2Proof.core) hu k).trans ht, by rw [hdrop, hrest, List.drop_succ_cons]⟩

/-- Settles O31: a command's answer settles, and so does an idle cycle. -/
theorem statusFollowsEveryStep : Obligations.StatusFollowsEveryStep := by
  intro s t h
  cases hq : s.pending with
  | nil =>
    obtain rfl : s.idle = t := Host.Outcome.next.inj ((step_of_pending_nil s hq).symm.trans h)
    exact State.settled_settle _
  | cons c rest =>
    obtain ⟨u, hu⟩ := exec_goes c { s with pending := rest }
    obtain rfl := Host.Outcome.next.inj ((hu.symm.trans (step_of_pending_cons hq).symm).trans h)
    exact u.settled_settle.pending _

/-- The registers of the module at reset already show it: settling changes none. -/
theorem State.settle_reset : State.reset.settle = State.reset := by decide +kernel

/-- Settles O32. -/
theorem statusShownAtReset : Obligations.StatusShownAtReset := by
  have h := State.settled_settle State.reset
  rwa [State.settle_reset] at h

end Sys2Proof.Machine
end

section
/-! PROOF SUPPORT. A raising whose source is disabled (R425), and the write log's sixteen entries (R423). -/
namespace Sys2Proof.Machine
open Sys2Proof

/-- Settles O43. -/
theorem raisingSetsTheLatch : Obligations.RaisingSetsTheLatch := fun s e src he =>
  ⟨s.evLatched_raise he src, (State.LatchesKept.refl s).raise e src⟩

/-! ### A disabled source -/

/-- A source register stands outside the words by which a source is latched, enabled, routed and shown. -/
theorem not_controller_of_evSrcAddr {e a : Nat} (h : evSrcAddr e = some a) : a < 0x010000 ∨ 0x010098 ≤ a := by
  obtain ⟨r, hr, rfl⟩ := Option.map_eq_some_iff.mp h
  have hin := List.find?_some hr
  simp only [Bool.and_eq_true, decide_eq_true_eq] at hin
  have hall : ∀ r ∈ evSrcRanges, r.2.2 + 4 * (r.2.1 - r.1) < 0x010000 ∨ 0x010098 ≤ r.2.2 := by decide
  have := hall r (List.mem_of_find?_eq_some hr)
  omega

theorem State.evOn_setLive_other (s : State) {e b : Nat} (w : Word) (he : e < 256) (hb : b < 0x010020 ∨ 0x010040 ≤ b) :
    (s.setLive b w).evOn e = s.evOn e := by
  unfold State.evOn
  rw [State.live_setLive_other _ _ _ _ (by omega)]

theorem State.get_setLive_other (s : State) {b : Nat} (w : Word) {f : Fld} {o : Nat} (hb : f.addr + o ≠ b) :
    (s.setLive b w).get f o = s.get f o :=
  State.get_congr (State.live_setLive_other _ _ _ _ hb)

theorem State.regsOnly_setLive (s : State) (a : Nat) (w : Word) : s.RegsOnly (s.setLive a w) := ⟨_, rfl⟩

/-- `t` is `s` with registers changed, `e` the latest event and still disabled. -/
structure State.RaisedOff (s : State) (e : Nat) (t : State) : Prop where
  regs : s.RegsOnly t
  last : t.get F.EVC_LAST_EVENT = e
  off : t.evOn e = false

theorem State.RaisedOff.setLive {s t : State} {e b : Nat} (h : s.RaisedOff e t) (he : e < 256) (w : Word)
    (hb : b < 0x010000 ∨ 0x010090 ≤ b) : s.RaisedOff e (t.setLive b w) := by
  have haddr : F.EVC_LAST_EVENT.addr = 0x01008C := rfl
  exact ⟨h.regs.trans (t.regsOnly_setLive _ _), (State.get_setLive_other _ _ (by omega)).trans h.last,
    (State.evOn_setLive_other _ _ he (by omega)).trans h.off⟩

/-- Of a raising whose source is disabled there are its latch, `EVC_LAST` and its source register, all of them registers. -/
theorem State.raisedOff_raise0 {s : State} {e : Nat} (he : e < 256) (hoff : s.evOn e = false) (src : Nat) (own : Bool) :
    s.RaisedOff e (s.raise0 e src own).1 := by
  unfold State.raise0
  extract_lets a s1 s2 s3 s4
  have h2 : s.RaisedOff e s2 := by
    refine ⟨((s.regsOnly_setLive _ _).trans (State.regsOnly_put _ _ _)).trans (State.regsOnly_put _ _ _), ?_, ?_⟩
    · exact (State.get_put_apart _ _ _ _ _ _ (by decide) (by decide) (by decide)).trans
        ((State.get_put_same _ _ _ _ (by decide) (by decide)).trans (Nat.mod_eq_of_lt he))
    · exact (State.evOn_setLive_other _ _ he (by decide)).trans ((State.evOn_setLive_other _ _ he (by decide)).trans
        ((State.evOn_setLive_other _ _ he (by omega)).trans hoff))
  have h3 : s.RaisedOff e s3 := (h2.setLive he _ (by decide)).setLive he _ (by decide)
  have h4 : s.RaisedOff e s4 := by
    show s.RaisedOff e (match evSrcAddr e with | some r => _ | none => _)
    clear_value s3
    split
    next r hr =>
      have := not_controller_of_evSrcAddr hr
      exact h3.setLive he _ (by omega)
    · exact h3
  clear_value s4
  rw [h4.off]
  exact h4

/-- Settles O44: the raising sets its latch, writes registers alone, and ends before the delivery. -/
theorem disabledSourceIsNotDelivered : Obligations.DisabledSourceIsNotDelivered := by
  intro s e src he hoff t
  obtain ⟨hregs, hlast, -⟩ := State.raisedOff_raise0 he hoff src false
  exact ⟨s.latchesKept_raise0_of_latch e src false e he (s.evLatched_latch e), hregs.field State.outq fun _ _ => rfl,
    hregs.field State.log fun _ _ => rfl, hregs.field State.rates fun _ _ => rfl, hlast⟩

/-! ### The write log -/

theorem State.EventOnly.wlog {s t : State} (h : s.EventOnly t) : t.wlog = s.wlog := h.field State.wlog fun _ _ _ _ _ _ _ _ => rfl

/-- What a noted write leaves of the open entries: all of them, one changed by a write that merges; or, the oldest of sixteen closed, the
others with a new one behind them. -/
theorem State.wlogNote_cases {s : State} {i : Iface} (a : Nat) (w : Word) (hi : i ≠ .module) :
    (∃ l, s.wlogNote i a w = { s with wlog := l } ∧ l.length = s.wlog.length)
    ∨ ((∀ e ∈ s.wlog, ¬(e.iface = i.id ∧ e.addr = a ∧ s.tick < e.tick + sTicks 1))
        ∧ ∃ e l, (s.wlogNote i a w).wlog = l ++ [e] ∧ l = if 16 ≤ s.wlog.length then s.wlog.tail else s.wlog) := by
  unfold State.wlogNote
  rw [if_neg hi]
  extract_lets v same u t
  split
  · exact .inl ⟨_, rfl, List.length_map _⟩
  next hnone =>
    refine .inr ⟨fun e he hsame => hnone (List.any_eq_true.mpr ⟨e, he, ?_⟩), _, u.wlog, rfl, ?_⟩
    · simpa [same, and_assoc] using hsame
    · show (match s.wlog with | e :: t => _ | [] => _ : State).wlog = _
      cases hl : s.wlog with
      | nil => exact hl
      | cons e t =>
        dsimp only
        split
        · exact (State.eventOnly_wlogClose _ _).wlog
        · exact hl

/-- Settles O48: the oldest of sixteen entries leaves before another joins. -/
theorem writeLogHoldsSixteen : Obligations.WriteLogHoldsSixteen := by
  refine ⟨fun s i a w h => ?_, fun s i a w hi hsame => ?_, fun s a w => if_pos rfl⟩
  · by_cases hi : i = .module
    · rwa [State.wlogNote, if_pos hi]
    obtain ⟨l, hl, hlen⟩ | ⟨-, e, l, hl, rfl⟩ := State.wlogNote_cases a w hi
    · rw [hl, hlen]
      exact h
    · rw [hl, List.length_append, List.length_singleton]
      split
      · rw [List.length_tail]
        omega
      · omega
  · obtain ⟨l, hl, hlen⟩ | ⟨hnone, -⟩ := State.wlogNote_cases a w hi
    · rw [hl]
      exact ⟨hlen, rfl⟩
    · obtain ⟨e, he, h⟩ := hsame
      exact absurd h (hnone e he)

end Sys2Proof.Machine
end

section
/-! PROOF SUPPORT. The slot that a job takes (R430, R433), and what its registers show once it has started. -/
namespace Sys2Proof.Machine
open Sys2Proof

/-- The slot found is free, and every slot before it in its range is not. -/
theorem State.freeSlot_eq_some {s : State} {lo n k : Nat} (h : s.freeSlot lo n = some k) :
    lo ≤ k ∧ k < lo + n ∧ s.jobLive k = false ∧ ∀ j, lo ≤ j → j < k → s.jobLive j = true := by
  rw [State.freeSlot, List.find?_map, Option.map_eq_some_iff] at h
  obtain ⟨i, hi, rfl⟩ := h
  obtain ⟨hfree, hin, hbefore⟩ := List.find?_range_eq_some.mp hi
  refine ⟨by omega, by simpa [Nat.add_comm] using hin, by simpa using hfree, fun j hlo hj => ?_⟩
  have := hbefore (j - lo) (by omega)
  simpa [Nat.sub_add_cancel hlo] using this

theorem State.job_put (s : State) (f : Fld) (o v j : Nat) : (s.put f o v).job j = s.job j := rfl

theorem State.job_jobStatus (s : State) (k j : Nat) : (s.jobStatus k).job j = s.job j := rfl

/-- The registers of slot `k` as a starting job writes them. -/
def State.slotFilled (s : State) (k : Nat) (busy : Bool) (kind prio origin cmdId total : Nat) : State :=
  let o := blyO k
  let s := s.setLive (F.BLY_SLOT_STAT.addr + o) 0
  let s := (((s.put F.BLY_SLOT_STAT_STATE o (if busy then 3 else 2)).put F.BLY_SLOT_STAT_KIND o kind).put
    F.BLY_SLOT_STAT_PRIORITY o prio).put F.BLY_SLOT_STAT_ORIGIN o origin
  ((s.put F.BLY_SLOT_DONE o 0).put F.BLY_SLOT_TOTAL o total).put F.BLY_SLOT_ID o cmdId

theorem State.jobs_slotFilled (s : State) (k : Nat) (busy : Bool) (kind prio origin cmdId total : Nat) :
    (s.slotFilled k busy kind prio origin cmdId total).jobs = s.jobs := by
  simp only [State.slotFilled, State.put_jobs, State.setLive_jobs]

/-- A job that starts fills the slot found; beside its registers it writes the slot's data words and the count of jobs, and keeps its
parameters. -/
theorem State.jobStart_eq_some {s t : State} {kind prio origin cmdId total k : Nat} {params : List Nat} {own : Bool}
    (h : s.jobStart kind prio origin cmdId params total own = (t, some k)) :
    (if own then s.freeSlot 12 4 else s.freeSlot 0 12) = some k
    ∧ ∃ busy, (busy = true → kind = 8)
      ∧ (∀ a, a ≠ F.BLY_CNT.addr → (∀ j, j < 4 → a ≠ F.BLY_SLOT_DATA.addr + (blyO k + 4 * j)) →
          t.live a = (s.slotFilled k busy kind prio origin cmdId total).live a)
      ∧ (t.job k).params = params ∧ ∀ j, j ≠ k → t.job j = s.job j := by
  unfold State.jobStart at h
  split at h
  · cases h
  next k' hk =>
    extract_lets o busy s1 s2 s3 s4 span s5 s6 at h
    obtain ⟨rfl, rfl⟩ : s6.jobStatus k' = t ∧ k' = k := by simpa using h
    have hlive : ∀ a, (∀ j, j < 4 → a ≠ F.BLY_SLOT_DATA.addr + (blyO k' + 4 * j)) → s4.live a = s3.live a := fun a hdata =>
      List.foldlRecOn (motive := fun u : State => u.live a = s3.live a) _ _ rfl fun u hu j hj => by
        rw [State.live_put, if_neg (hdata j (List.mem_range.mp hj)), hu]
    have hjob : ∀ j, s4.job j = s3.job j := fun j =>
      List.foldlRecOn (motive := fun u : State => u.job j = s3.job j) _ _ rfl fun u hu _ _ => hu
    have h3 : s3 = s.slotFilled k' busy kind prio origin cmdId total := rfl
    clear_value s4 s3
    subst h3
    refine ⟨hk, busy, fun hb => ?_, fun a hcnt hdata => ?_, ?_, fun j hj => ?_⟩
    · simpa using (Bool.and_eq_true_iff.mp hb).1
    · rw [State.live_jobStatus]
      refine (State.live_put_other s5 F.BLY_CNT_JOBS _ _ hcnt).trans ?_
      rw [State.live_onJob, hlive a hdata]
    · rw [State.job_jobStatus]
      exact congrArg JobS.params ((State.job_put s5 F.BLY_CNT_JOBS _ _ _).trans (State.job_onJob s4 k' _))
    · rw [State.job_jobStatus]
      refine (State.job_put s5 F.BLY_CNT_JOBS _ _ _).trans ((State.job_onJob_other s4 k' j _ hj).trans ((hjob j).trans ?_))
      rw [State.job, State.jobs_slotFilled, State.job]

section
variable (s : State) (k : Nat) (busy : Bool) (kind prio origin cmdId total : Nat)

/-- Words of other slots stand. -/
theorem State.live_slotFilled_other {a : Nat} (h : a < F.BLY_SLOT_STAT.addr + blyO k ∨ F.BLY_SLOT_STAT.addr + 0x10 + blyO k ≤ a) :
    (s.slotFilled k busy kind prio origin cmdId total).live a = s.live a := by
  have hput : ∀ (u : State) (f : Fld) (v : Nat), F.BLY_SLOT_STAT.addr ≤ f.addr → f.addr < F.BLY_SLOT_STAT.addr + 0x10 →
      (u.put f (blyO k) v).live a = u.live a := fun u f v hlo hhi => by
    rw [State.live_put, if_neg (by omega)]
  unfold State.slotFilled
  dsimp only
  rw [hput, hput, hput, hput, hput, hput, hput, State.live_setLive_other _ _ _ _ (by omega)] <;> decide

/-- What slot `k` shows of the job. -/
theorem State.slotFilled_shows (hkind : kind < 16) (hprio : prio < 4) (horigin : origin < 8) (hid : cmdId < 2 ^ 32)
    (htotal : total < 2 ^ 32) :
    let t := s.slotFilled k busy kind prio origin cmdId total
    t.jobState k = (if busy then 3 else 2) ∧ t.get F.BLY_SLOT_STAT_KIND (blyO k) = kind ∧ t.get F.BLY_SLOT_STAT_PRIORITY (blyO k) = prio
    ∧ t.get F.BLY_SLOT_STAT_ORIGIN (blyO k) = origin ∧ t.get F.BLY_SLOT_ID (blyO k) = cmdId ∧ t.get F.BLY_SLOT_DONE (blyO k) = 0
    ∧ t.get F.BLY_SLOT_TOTAL (blyO k) = total := by
  have hword : ∀ (u : State) (f g : Fld) (v : Nat), g.addr ≠ f.addr → (u.put f (blyO k) v).get g (blyO k) = u.get g (blyO k) :=
    fun u f g v h => State.get_put_word _ _ _ _ _ _ (by omega)
  have hapart : ∀ (u : State) (f g : Fld) (v : Nat), f.lo ≤ f.hi ∧ g.hi < 32 ∧ (g.hi < f.lo ∨ f.hi < g.lo) →
      (u.put f (blyO k) v).get g (blyO k) = u.get g (blyO k) := fun u f g v ⟨hl, hh, ha⟩ => State.get_put_apart _ _ _ _ _ _ hl hh ha
  have hsame : ∀ (u : State) (f : Fld) (v : Nat), f.lo ≤ f.hi ∧ f.hi < 32 →
      (u.put f (blyO k) v).get f (blyO k) = v % 2 ^ (f.hi + 1 - f.lo) :=
    fun u f v ⟨hl, hh⟩ => State.get_put_same _ _ _ _ hl hh
  unfold State.jobState State.slotFilled
  dsimp only
  refine ⟨?_, ?_, ?_, ?_, ?_, ?_, ?_⟩
  · rw [hword _ _ _ _ (by decide), hword _ _ _ _ (by decide), hword _ _ _ _ (by decide), hapart _ _ _ _ (by decide),
      hapart _ _ _ _ (by decide), hapart _ _ _ _ (by decide), hsame _ _ _ (by decide)]
    cases busy <;> rfl
  · rw [hword _ _ _ _ (by decide), hword _ _ _ _ (by decide), hword _ _ _ _ (by decide), hapart _ _ _ _ (by decide),
      hapart _ _ _ _ (by decide), hsame _ _ _ (by decide)]
    exact Nat.mod_eq_of_lt hkind
  · rw [hword _ _ _ _ (by decide), hword _ _ _ _ (by decide), hword _ _ _ _ (by decide), hapart _ _ _ _ (by decide),
      hsame _ _ _ (by decide)]
    exact Nat.mod_eq_of_lt hprio
  · rw [hword _ _ _ _ (by decide), hword _ _ _ _ (by decide), hword _ _ _ _ (by decide), hsame _ _ _ (by decide)]
    exact Nat.mod_eq_of_lt (horigin.trans (by decide))
  · rw [hsame _ _ _ (by decide)]
    exact Nat.mod_eq_of_lt hid
  · rw [hword _ _ _ _ (by decide), hword _ _ _ _ (by decide), hsame _ _ _ (by decide)]
    rfl
  · rw [hword _ _ _ _ (by decide), hsame _ _ _ (by decide)]
    exact Nat.mod_eq_of_lt htotal

end

/-- Settles O51: the words that show the job are those of the slot found, and the data words and the count beside them are others. -/
theorem jobTakesLowestFreeSlot : Obligations.JobTakesLowestFreeSlot := by
  intro s kind prio origin cmdId params total own t k hkind hprio horigin hid htotal hstart
  obtain ⟨hfind, busy, hbusy, hlive, hparams, hothers⟩ := State.jobStart_eq_some hstart
  have hslot : (if own then 12 ≤ k ∧ k < 16 else k < 12) ∧ s.jobLive k = false
      ∧ ∀ j, (if own then 12 ≤ j else True) → j < k → s.jobLive j = true := by
    cases own with
    | true =>
      obtain ⟨hlo, hhi, hfree, hbefore⟩ := State.freeSlot_eq_some hfind
      exact ⟨⟨hlo, hhi⟩, hfree, hbefore⟩
    | false =>
      obtain ⟨-, hhi, hfree, hbefore⟩ := State.freeSlot_eq_some hfind
      exact ⟨by simpa using hhi, hfree, fun j _ => hbefore j j.zero_le⟩
  obtain ⟨hrange, hfree, hbefore⟩ := hslot
  -- the words of the slots, but their data words
  have hword : ∀ (f : Fld) (j : Nat), f.addr ∈ [0x138100, 0x138104, 0x138108, 0x13810C] →
      t.live (f.addr + blyO j) = (s.slotFilled k busy kind prio origin cmdId total).live (f.addr + blyO j) := fun f j hf => by
    simp only [List.mem_cons, List.not_mem_nil, or_false] at hf
    have hcnt : F.BLY_CNT.addr = 0x138028 := rfl
    have hdata : F.BLY_SLOT_DATA.addr = 0x138110 := rfl
    refine hlive _ ?_ fun i hi => ?_ <;> simp only [blyO] <;> omega
  obtain ⟨hstate, hkind', hprio', horigin', hid', hdone, htotal'⟩ :=
    s.slotFilled_shows k busy kind prio origin cmdId total hkind hprio horigin hid htotal
  refine ⟨hrange, hfree, hbefore, ?_, (State.get_congr (hword _ k (by decide))).trans hkind',
    (State.get_congr (hword _ k (by decide))).trans hprio', (State.get_congr (hword _ k (by decide))).trans horigin',
    (State.get_congr (hword _ k (by decide))).trans hid', (State.get_congr (hword _ k (by decide))).trans hdone,
    (State.get_congr (hword _ k (by decide))).trans htotal', hparams, fun j _ hj => ⟨?_, hothers j hj⟩⟩
  · have : t.jobState k = if busy then 3 else 2 := (State.get_congr (hword F.BLY_SLOT_STAT_STATE k (by decide))).trans hstate
    rw [this]
    cases busy with
    | true => exact .inr ⟨rfl, hbusy rfl⟩
    | false => exact .inl rfl
  · refine State.get_congr ((hword F.BLY_SLOT_STAT_STATE j (by decide)).trans (State.live_slotFilled_other _ _ _ _ _ _ _ _ ?_))
    have haddr : F.BLY_SLOT_STAT.addr = F.BLY_SLOT_STAT_STATE.addr := rfl
    simp only [blyO]
    omega

end Sys2Proof.Machine
end

section
/-! PROOF SUPPORT. The place of a log entry in the ring and in the protected region (R489, R490, R492, R493). -/
namespace Sys2Proof.Machine
open Sys2Proof

theorem State.logNext_lt {s : State} {k n k' : Nat} (h : s.logNext k n = some k') : k' < 7936 := by
  induction n generalizing k with
  | zero => cases h
  | succ n ih =>
    rw [State.logNext] at h
    have hwrap : (if 7936 ≤ k then 0 else k) < 7936 := by split <;> omega
    generalize (if 7936 ≤ k then 0 else k) = i at h hwrap
    split at h
    · exact ih h
    · exact Option.some.inj h ▸ hwrap

/-- Entry `e` stored at index `k`. -/
def State.logStore (s : State) (k : Nat) (e : LogEntry) : State := { s with log := tset (fun _ => LogEntry.init) s.log k e }

theorem State.logAt_logStore (s : State) (k j : Nat) (e : LogEntry) : (s.logStore k e).logAt j = if j = k then e else s.logAt j :=
  tget_tset _ _ _ _ _

/-! ### The protected region -/

/-- The copy of a critical entry stands past the ring, and `HEAD` stays. -/
theorem State.logProtect_ring (s : State) (e : LogEntry) :
    (s.logProtect e).1.get F.LOG_STAT_HEAD = s.get F.LOG_STAT_HEAD ∧ ∀ j, j < 7936 → (s.logProtect e).1.logAt j = s.logAt j := by
  unfold State.logProtect
  dsimp only
  split
  · exact ⟨rfl, fun _ _ => rfl⟩
  · split
    · refine ⟨(State.get_putB_word₀ _ _).trans (State.get_put_word₀ _ _), fun j hj => ?_⟩
      exact (s.logAt_logStore _ _ _).trans (if_neg (by omega))
    · exact ⟨State.get_put_word₀ s _, fun _ _ => rfl⟩

theorem State.logProtect_room {s : State} (e : LogEntry) (hmark : s.logMarked 7936 = false) (hroom : s.get F.LOG_PROT_STAT_COUNT < 256) :
    (s.logProtect e).1.logAt (7936 + s.get F.LOG_PROT_STAT_COUNT) = e
    ∧ (s.logProtect e).1.get F.LOG_PROT_STAT_COUNT = s.get F.LOG_PROT_STAT_COUNT + 1 := by
  unfold State.logProtect
  dsimp only
  rw [hmark, if_neg Bool.false_ne_true, if_pos hroom]
  refine ⟨(s.logAt_logStore _ _ _).trans (if_pos rfl), ?_⟩
  rw [State.get_putB_apart, State.get_put_same _ _ _ _ (by decide) (by decide)]
  exact Nat.mod_eq_of_lt (Nat.lt_of_lt_of_le (Nat.succ_lt_succ hroom) (by decide))

/-! ### The ring -/

/-- `u` is `s` with entry `e` put at index `k` of the ring, `HEAD` moved past it. -/
structure State.Logged (s : State) (k : Nat) (e : LogEntry) (u : State) : Prop where
  head : u.get F.LOG_STAT_HEAD = if k + 1 = 7936 then 0 else k + 1
  ring : ∀ j, u.logAt j = if j = k then e else s.logAt j
  count : u.get F.LOG_PROT_STAT_COUNT = s.get F.LOG_PROT_STAT_COUNT
  marked : u.logMarked 7936 = s.logMarked 7936

/-- An entry goes to the index that `logNext` finds, and a critical one to the protected region behind it. -/
theorem State.logPut_eq {s : State} {k : Nat} (h : s.logNext (s.get F.LOG_STAT_HEAD) 34 = some k) (source code severity iface set : Nat)
    (data : List Byte) (time : Nat) :
    let e : LogEntry := ⟨time, s.phaseStamp set, source, code, severity, iface, padTo 16 data, false⟩
    ∃ u, s.Logged k e u ∧ s.logPut source code severity iface set data time = if severity = 0 then u.logProtect e else (u, false) := by
  intro e
  have hk := State.logNext_lt h
  unfold State.logPut
  rw [h]
  dsimp only
  refine ⟨_, ?_, rfl⟩
  generalize hs1 : (if (thas s.log k && !(s.logAt k).exported) = true then _ else s : State) = s1
  have h1 : s1.get F.LOG_PROT_STAT_COUNT = s.get F.LOG_PROT_STAT_COUNT ∧ (∀ j, s1.logAt j = s.logAt j)
      ∧ s1.logMarked 7936 = s.logMarked 7936 := by
    rw [← hs1]
    split
    · exact ⟨(State.get_put_word₀ _ _).trans (State.get_put_word₀ _ _), fun _ => rfl, rfl⟩
    · exact ⟨rfl, fun _ => rfl, rfl⟩
  obtain ⟨hcount, hring, hmark⟩ := h1
  refine ⟨?_, fun j => ?_, ?_, hmark⟩
  · refine (State.get_put_apart _ _ _ _ _ _ (by decide) (by decide) (by decide)).trans
      ((State.get_put_same _ _ _ _ (by decide) (by decide)).trans (Nat.mod_eq_of_lt ?_))
    show _ < 8192
    split <;> omega
  · exact (s1.logAt_logStore k j e).trans (by rw [hring])
  · exact (State.get_put_word₀ _ _).trans ((State.get_put_word₀ _ _).trans hcount)

/-- Settles O47: the entry stands in the ring, and the protected region lies past it. -/
theorem logEntryTakesNextPlace : Obligations.LogEntryTakesNextPlace := by
  intro s source code severity iface set data time k hnext t e
  have hk := State.logNext_lt hnext
  obtain ⟨u, ⟨hhead, hring, hcount, hmark⟩, hput⟩ := State.logPut_eq hnext source code severity iface set data time
  have ht : t = if severity = 0 then (u.logProtect e).1 else u := by
    show (State.logPut ..).1 = _
    rw [hput]
    split <;> rfl
  clear_value t
  subst ht
  obtain ⟨hhead', hring'⟩ := u.logProtect_ring e
  have hat : ∀ j, j < 7936 → State.logAt (if severity = 0 then (u.logProtect e).1 else u) j = if j = k then e else s.logAt j := by
    intro j hj
    split
    · rw [hring' j hj, hring]
    · exact hring j
  refine ⟨hk, (hat k hk).trans (if_pos rfl), ?_, fun j hj hne => (hat j hj).trans (if_neg hne), fun hsev hunmarked hroom => ?_⟩
  · split
    · rw [hhead', hhead]
    · exact hhead
  · rw [if_pos hsev, ← hcount]
    exact State.logProtect_room e (hmark.trans hunmarked) (hcount ▸ hroom)

end Sys2Proof.Machine
end

section
/-! PROOF SUPPORT. Records stay in the output queue through a log entry, and what the setting of a replace reason leaves (R486). -/
namespace Sys2Proof.Machine
open Sys2Proof

/-- Every record that waits in `s` waits in `t`. -/
def State.RecordsKept (s t : State) : Prop := ∀ r ∈ s.outq, r ∈ t.outq

theorem State.RecordsKept.refl (s : State) : s.RecordsKept s := fun _ h => h

theorem State.RecordsKept.trans {s t u : State} (h : s.RecordsKept t) (h' : t.RecordsKept u) : s.RecordsKept u := fun r hr => h' r (h r hr)

theorem State.recordsKept_of_eq {s t : State} (h : t.outq = s.outq) : s.RecordsKept t := fun _ hr => h ▸ hr

theorem State.RecordsKept.rates {s t : State} (h : s.RecordsKept t) (l : Table EvRate) : s.RecordsKept { t with rates := l } := h

theorem State.RecordsKept.nearArmed {s t : State} (h : s.RecordsKept t) (b : Bool) : s.RecordsKept { t with nearArmed := b } := h

theorem State.RecordsKept.setLive {s t : State} (h : s.RecordsKept t) (a : Nat) (w : Word) : s.RecordsKept (t.setLive a w) := h

theorem State.RecordsKept.put {s t : State} (h : s.RecordsKept t) (f : Fld) (o v : Nat) : s.RecordsKept (t.put f o v) := h

theorem State.RecordsKept.onJob {s t : State} (h : s.RecordsKept t) (k : Nat) (f : JobS → JobS) : s.RecordsKept (t.onJob k f) := h

theorem State.recordsKept_emit (s : State) (c t n : Nat) (b : List Byte) (l : List Nat) : s.RecordsKept (s.emit c t n b l) :=
  fun _ hr => List.mem_append_left _ hr

theorem State.outq_logProtect (s : State) (e : LogEntry) : (s.logProtect e).1.outq = s.outq := by
  unfold State.logProtect
  dsimp only
  split
  · rfl
  · split <;> rfl

theorem State.outq_logPut (s : State) (src code sev iface set : Nat) (data : List Byte) (time : Nat) :
    (s.logPut src code sev iface set data time).1.outq = s.outq := by
  unfold State.logPut
  split
  · rfl
  · extract_lets en old s1 s2 s3
    have h1 : s1.outq = s.outq := by
      show (if _ then _ else _ : State).outq = _
      split <;> rfl
    have h3 : s3.outq = s.outq := h1
    clear_value s3
    split
    · rw [State.outq_logProtect, h3]
    · exact h3

theorem State.recordsKept_deliver (s : State) (e n first last : Nat) (own : Bool) : s.RecordsKept (s.deliver e n first last own).1 := by
  unfold State.deliver
  extract_lets k body u
  have hu : s.RecordsKept u := by
    show s.RecordsKept (if _ then _ else _)
    split
    · exact s.recordsKept_emit _ _ _ _ _
    · exact .refl s
  split
  · exact hu.trans (State.recordsKept_of_eq (u.outq_logPut _ _ _ _ _ _ _))
  · exact hu

theorem State.recordsKept_raise0 (s : State) (e src : Nat) (own : Bool) : s.RecordsKept (s.raise0 e src own).1 := by
  unfold State.raise0
  extract_lets latch s1 s2 s3 s4
  have h3 : s.RecordsKept s3 := (((((State.RecordsKept.refl s).setLive _ _).put _ _ _).put _ _ _).setLive _ _).setLive _ _
  have h4 : s.RecordsKept s4 := by
    show s.RecordsKept (match evSrcAddr e with | some r => _ | none => _)
    clear_value s3
    split
    · exact h3.setLive _ _
    · exact h3
  clear_value s4
  split
  · exact h4
  · split
    · exact (h4.rates _).trans (State.recordsKept_deliver _ _ _ _ _ _)
    · exact h4.rates _

theorem State.RecordsKept.jobStatus {s t : State} (h : s.RecordsKept t) (k : Nat) : s.RecordsKept (t.jobStatus k) :=
  h.trans (t.recordsKept_emit _ _ _ _ _)

theorem State.recordsKept_jobStart (s : State) (kind prio origin cmdId : Nat) (params : List Nat) (total : Nat) (own : Bool) :
    s.RecordsKept (s.jobStart kind prio origin cmdId params total own).1 := by
  unfold State.jobStart
  split
  · exact .refl s
  next k _ =>
    extract_lets o busy s1 s2 s3 s4 span s5 s6
    have h3 : s.RecordsKept s3 :=
      ((((((((State.RecordsKept.refl s).setLive _ _).put _ _ _).put _ _ _).put _ _ _).put _ _ _).put _ _ _).put _ _ _).put _ _ _
    have h4 : s.RecordsKept s4 := List.foldlRecOn (motive := fun u => s.RecordsKept u) _ _ h3 fun u hu _ _ => hu.put _ _ _
    clear_value s4
    exact ((h4.onJob _ _).put _ _ _).jobStatus _

theorem State.recordsKept_logDues (s : State) (due : Bool) : s.RecordsKept (s.logDues due) := by
  unfold State.logDues
  dsimp only
  generalize hu : (if due = true then (s.raise0 Ev.LOG_PROTECTED_FULL 0).1 else s) = u
  have hsu : s.RecordsKept u := by
    rw [← hu]
    split
    · exact s.recordsKept_raise0 _ _ _
    · exact .refl s
  split
  · generalize hv : ({ u with nearArmed := false }.raise0 Ev.LOG_NEAR_FULL (u.get F.LOG_STAT_UNEXPORTED)).1 = v
    have hsv : s.RecordsKept v := by
      rw [← hv]
      exact (hsu.nearArmed _).trans (State.recordsKept_raise0 _ _ _ _)
    split
    · have hjob := hsv.trans (v.recordsKept_jobStart 5 0 4 0 [0, 0] (((v.logSpan true []).2 + 31) / 32) true)
      split
      · exact hjob
      · exact hjob.trans (State.recordsKept_raise0 _ _ _ _)
    · exact hsv
  · split
    · exact hsu
    · exact hsu.nearArmed _

theorem State.recordsKept_logEntry (s : State) (src code sev iface : Nat) (data : List Byte) (time : Nat) :
    s.RecordsKept (s.logEntry src code sev iface data time) :=
  (State.recordsKept_of_eq (s.outq_logPut _ _ _ _ _ _ _)).trans (State.recordsKept_logDues _ _)

theorem State.LatchesKept.logEntry {s t : State} (h : s.LatchesKept t) (src code sev iface : Nat) (data : List Byte) (time : Nat) :
    s.LatchesKept (t.logEntry src code sev iface data time) :=
  (h.logPut _ _ _ _ _ _ _).logDues _

theorem State.live_logEntry (s : State) {a : Nat} (ha : eventWord a = false) (src code sev iface : Nat) (data : List Byte) (time : Nat) :
    (s.logEntry src code sev iface data time).live a = s.live a :=
  (State.live_logDues ha _ _).trans (s.live_logPut ha _ _ _ _ _ _ _)

/-! ### The REPLACE_REQUEST record -/

theorem State.live_sendReplace (s : State) {a : Nat} (ha : eventWord a = false) : s.sendReplace.live a = s.live a := by
  unfold State.sendReplace
  exact State.live_logEntry _ ha _ _ _ _ _ _

theorem State.latchesKept_sendReplace (s : State) : s.LatchesKept s.sendReplace := by
  unfold State.sendReplace
  have hemit : s.LatchesKept (s.emit 0 0x07 0 s.replaceBody) := (State.LatchesKept.refl s).of_regs rfl
  exact hemit.logEntry _ _ _ _ _ _

theorem State.emit_record (s : State) (c t n : Nat) (b : List Byte) (l : List Nat) :
    ∃ r ∈ (s.emit c t n b l).outq, r.rtype = t ∧ r.cls = c := by
  rw [show (s.emit c t n b l).outq = s.outq ++ [⟨c, t, n, s.tick, b, l, 0, 0, 0⟩] from rfl]
  simp

/-- The record goes out in class 0. -/
theorem State.sendReplace_record (s : State) : ∃ r ∈ s.sendReplace.outq, r.rtype = 0x07 ∧ r.cls = 0 := by
  obtain ⟨r, hr, hshape⟩ := s.emit_record 0 0x07 0 s.replaceBody []
  unfold State.sendReplace
  exact ⟨r, State.recordsKept_logEntry _ _ _ _ _ _ _ r hr, hshape⟩

theorem State.eventOnly_sendReplace (s : State) : s.EventOnly s.sendReplace := by
  unfold State.sendReplace
  exact (s.eventOnly_emit _ _ _ _ _).trans (State.eventOnly_logEntry _ _ _ _ _ _ _)

/-! ### A reason that sets -/

theorem State.live_vaultWrite (s : State) (addr : Nat) (bytes : List Byte) (why : VaultFor) (a : Nat) :
    (s.vaultWrite addr bytes why).live a = s.live a := by
  unfold State.vaultWrite
  dsimp only
  split
  · rfl
  · split <;> rfl

theorem State.firstTick_vaultWrite (s : State) (addr : Nat) (bytes : List Byte) (why : VaultFor) :
    (s.vaultWrite addr bytes why).firstTick = s.firstTick := by
  unfold State.vaultWrite
  dsimp only
  split
  · rfl
  · split <;> rfl

/-- The state in which an episode has begun, where no reason stood. -/
def State.episodeBegun (s : State) : State :=
  if s.get F.BST_REPLACE_STAT_REASONS = 0 then
    ({ s with firstTick := s.tick, repeatAt := s.tick }.put F.BST_REPLACE_STAT_REPEATS 0 0).vaultWrite 0x100808 (le s.tick 8)
  else s

/-- The registers as a reason bit that sets writes them, before its event is raised. -/
def State.reasonNoted (s : State) (b : Nat) : State :=
  let old := s.get F.BST_REPLACE_STAT_REASONS
  let s := s.episodeBegun
  let s := s.put F.BST_REPLACE_STAT_REASONS 0 (old + 2 ^ b)
  let s := s.putBit F.BST_REPLACE_ACKED 0 b false
  let s := (s.putB F.BST_REPLACE_STAT_SERVICE 0 true).storeReasons
  { s with repeatAt := s.tick }

theorem State.setReason_eq (s : State) (b : Nat) : s.setReason b =
    if (s.get F.BST_REPLACE_STAT_REASONS).testBit b then s else ((s.reasonNoted b).raise Ev.SERVICE_REQUEST b).sendReplace := rfl

/-- The power of two of a clear bit adds that bit. -/
theorem testBit_add_two_pow {n b : Nat} (h : n.testBit b = false) (j : Nat) : (n + 2 ^ b).testBit j = (n.testBit j || decide (j = b)) := by
  induction b generalizing n j with
  | zero =>
    have heven : n % 2 = 0 := by simpa using h
    cases j with
    | zero => simp [Nat.add_mod, heven]
    | succ j => simp [Nat.testBit_add_one, show (n + 1) / 2 = n / 2 by omega]
  | succ b ih =>
    have hpow : 2 ^ (b + 1) = 2 * 2 ^ b := by omega
    cases j with
    | zero => simp [hpow, Nat.add_mod]
    | succ j =>
      have hhalf : (n + 2 ^ (b + 1)) / 2 = n / 2 + 2 ^ b := by omega
      rw [Nat.testBit_add_one] at h
      rw [Nat.testBit_add_one, hhalf, ih h, Nat.testBit_add_one]
      simp

theorem State.live_putBit (s : State) (f : Fld) (n : Nat) (v : Bool) :
    (s.putBit f 0 n v).live f.addr = setBits (s.live f.addr) n n (if v then 1 else 0) :=
  State.live_setLive _ _ _

theorem State.live_putBit_other (s : State) (f : Fld) (n : Nat) (v : Bool) {a : Nat} (h : a ≠ f.addr) :
    (s.putBit f 0 n v).live a = s.live a :=
  State.live_setLive_other _ _ _ _ h

theorem State.get_vaultWrite (s : State) (addr : Nat) (bytes : List Byte) (why : VaultFor) (f : Fld) (o : Nat) :
    (s.vaultWrite addr bytes why).get f o = s.get f o :=
  State.get_congr (s.live_vaultWrite addr bytes why _)

theorem State.live_reasonNoted (s : State) (b a : Nat) : (s.reasonNoted b).live a =
    (((s.episodeBegun.put F.BST_REPLACE_STAT_REASONS 0 (s.get F.BST_REPLACE_STAT_REASONS + 2 ^ b)).putBit F.BST_REPLACE_ACKED 0 b
      false).putB F.BST_REPLACE_STAT_SERVICE 0 true).live a :=
  State.live_vaultWrite _ _ _ _ a

theorem State.firstTick_reasonNoted (s : State) (b : Nat) : (s.reasonNoted b).firstTick = s.episodeBegun.firstTick :=
  State.firstTick_vaultWrite _ _ _ _

theorem State.get_reasons_reasonNoted {s : State} {b : Nat} (hb : b < 9) (hclear : (s.get F.BST_REPLACE_STAT_REASONS).testBit b = false) :
    (s.reasonNoted b).get F.BST_REPLACE_STAT_REASONS = s.get F.BST_REPLACE_STAT_REASONS + 2 ^ b := by
  have hold : s.get F.BST_REPLACE_STAT_REASONS < 2 ^ 9 := bitsOf_lt _ _ _
  have hlt : s.get F.BST_REPLACE_STAT_REASONS + 2 ^ b < 2 ^ 9 := by
    refine Nat.lt_pow_two_of_testBit _ fun i hi => ?_
    rw [testBit_add_two_pow hclear, Nat.testBit_lt_two_pow (hold.trans_le (Nat.pow_le_pow_right (by decide) hi)),
      decide_eq_false (by omega), Bool.or_false]
  rw [State.get_congr (s.live_reasonNoted b _), State.get_putB_apart, State.get_congr (State.live_putBit_other _ _ _ _ (by decide)),
    State.get_put_same _ _ _ _ (by decide) (by decide)]
  exact Nat.mod_eq_of_lt hlt

theorem State.acked_reasonNoted (s : State) {b : Nat} (hb : b < 9) :
    ((s.reasonNoted b).get F.BST_REPLACE_ACKED_ACKED).testBit b = false := by
  rw [State.get_congr (s.live_reasonNoted b _), State.get_putB_word₀, State.get, bitsOf_testBit]
  have hbit (w : Word) : (setBits w b b 0).getLsbD b = false := by
    rw [setBits_getLsbD _ _ _ _ _ (by omega) le_rfl, if_pos ⟨le_rfl, le_rfl⟩, Nat.zero_testBit]
  rw [show F.BST_REPLACE_ACKED_ACKED.addr + 0 = F.BST_REPLACE_ACKED.addr from rfl, State.live_putBit,
    show F.BST_REPLACE_ACKED_ACKED.lo + b = b from Nat.zero_add b]
  exact Bool.and_eq_false_imp.2 fun _ => hbit _

theorem State.repeats_reasonNoted {s : State} (b : Nat) (h : s.get F.BST_REPLACE_STAT_REASONS = 0) :
    (s.reasonNoted b).get F.BST_REPLACE_STAT_REPEATS = 0 := by
  rw [State.get_congr (s.live_reasonNoted b _), State.get_putB_apart, State.get_congr (State.live_putBit_other _ _ _ _ (by decide)),
    State.get_put_apart _ _ _ _ _ _ (by decide) (by decide) (by decide), State.episodeBegun, if_pos h, State.get_vaultWrite,
    State.get_put_same _ _ _ _ (by decide) (by decide), Nat.zero_mod]

/-- Settles O49: the event and the record come after the registers, and write none of them. -/
theorem reasonBitSets : Obligations.ReasonBitSets := by
  intro s b hb old t
  refine ⟨fun h => ?_, fun hclear => ?_⟩
  · exact (s.setReason_eq b).trans (if_pos h)
  have ht : t = ((s.reasonNoted b).raise Ev.SERVICE_REQUEST b).sendReplace :=
    (s.setReason_eq b).trans (if_neg (by rw [hclear]; decide))
  clear_value t
  subst ht
  have hget : ∀ {f : Fld}, eventWord f.addr = false →
      ((s.reasonNoted b).raise Ev.SERVICE_REQUEST b).sendReplace.get f = (s.reasonNoted b).get f := fun hf =>
    State.get_congr ((State.live_sendReplace _ hf).trans (State.live_raise hf _ (by decide) _))
  refine ⟨fun j _ => ?_, ?_, ?_, State.sendReplace_record _, fun hold => ⟨?_, ?_⟩⟩
  · rw [hget (by decide), State.get_reasons_reasonNoted hb hclear, testBit_add_two_pow hclear]
  · rw [hget (by decide), State.acked_reasonNoted _ hb]
  · exact State.latchesKept_sendReplace _ _ (by decide) (State.evLatched_raise _ (by decide) _)
  · rw [(State.eventOnly_sendReplace _).field State.firstTick fun _ _ _ _ _ _ _ _ => rfl,
      (State.eventOnly_raise _ _ _).field State.firstTick fun _ _ _ _ _ _ _ _ => rfl, State.firstTick_reasonNoted, State.episodeBegun,
      if_pos hold]
    exact State.firstTick_vaultWrite _ _ _ _
  · rw [hget (by decide), State.repeats_reasonNoted b hold]

end Sys2Proof.Machine
end

section
/-! PROOF SUPPORT. What the commands of the Halyard and of the belay jobs answer when their conditions hold (R403 to R417, R430 to
R434, R439). -/
namespace Sys2Proof.Machine
open Sys2Proof

/-- Settles O22: a port's link and the times named decide the guards; a received frame goes on when the link's filter names it. -/
theorem halyardCommandsComplete : Obligations.HalyardCommandsComplete := by
  refine ⟨?halLinkUp, fun s p => rfl, ?halPortReturn, ?halFrameReceive, ?halHelloSend, ?halNegotiationEnd, ?halVersion, ?halCommand,
    fun s i w => rfl, fun s i p w => rfl, fun s i p w => rfl, fun s i p w => rfl⟩
  case halLinkUp =>
    intro s p n hruns hup
    refine State.goes_past_guard rfl rfl ?_
    simp [n, hruns, hup]
  case halPortReturn => exact fun s hports hsending hup hdue => State.goes_of_ite rfl ⟨hports, hsending, hup, hdue⟩
  case halFrameReceive =>
    intro s p frame n hup
    refine State.goes_past_guard rfl (out_ite_next rfl ?_) ?guard
    case guard => simp [n, hup]
    -- `r` is the state after the secured link has opened the frame, and the clear frame, where it has one
    dsimp only [n]
    generalize (if s.msecOn p.val then s.msecTake p.val frame else (s, some frame)) = r
    match r with
    | (_, none) => rfl
    | (u, some f) =>
      dsimp only
      cases (u.snoop 5 p.val f).halFilter f <;> rfl
  case halHelloSend =>
    intro s hneg hport hdue
    refine State.goes_of_next rfl (congrArg _ (if_neg ?_))
    simp [hneg, hport, hdue]
  case halNegotiationEnd =>
    intro s t hdown hneg hdue
    refine State.goes_of_next rfl (hdown ▸ congrArg _ (if_pos ⟨hneg, hdue⟩))
  case halVersion =>
    intro s version hruns
    refine State.goes_past_guard rfl rfl ?_
    simp [hruns]
  case halCommand =>
    intro s p flags body hup
    refine State.goes_past_guard rfl (out_ite_next rfl (out_ite_next rfl (out_ite_next rfl rfl))) ?_
    simp [hup]

/-- Settles O24: a job's turn decides the guard of its step, and what the step then does is the work of its kind. -/
theorem belayCommandsComplete : Obligations.BelayCommandsComplete := by
  refine ⟨?blyStart, fun s i w => rfl, ?blyOverrun, ?jobStatusReport, ?sessionScrubStep, ?rekeySweepStep, ?cxlScrubStep, ?logExportStep,
    ?noiseMapExportStep, ?cxlAuditStep⟩
  case blyStart => exact fun s i w => State.goes_of_next rfl (out_ite_next rfl rfl)
  case blyOverrun => exact fun s k hrun => State.goes_past_guard rfl rfl (not_not_intro hrun)
  case jobStatusReport =>
    intro s k hlive hdue
    refine State.goes_of_guard rfl rfl ?_
    simp [hlive, hdue]
  case sessionScrubStep =>
    intro s k bad hturn hjrn hup hheld
    refine State.goes_past_guard rfl rfl ?_
    simp [hturn, hjrn, hup, hheld]
  case rekeySweepStep =>
    intro s k hturn
    refine State.goes_past_guard rfl (out_ite_next rfl rfl) ?_
    simp [hturn]
  case cxlScrubStep =>
    intro s k ctxs recs other hturn hjrn hup hheld
    refine State.goes_past_guard rfl rfl ?_
    simp [hturn, hjrn, hup, hheld]
  case logExportStep =>
    intro s k hturn
    refine State.goes_past_guard rfl (out_ite_next rfl (out_ite_next rfl rfl)) ?_
    simp [hturn]
  case noiseMapExportStep =>
    intro s k hturn
    refine State.goes_past_guard rfl rfl ?_
    simp [hturn]
  case cxlAuditStep =>
    intro s k data poison st waits hturn hup hheld
    refine State.goes_past_guard rfl (out_ite_next rfl (out_ite_next rfl (out_ite_next rfl (out_ite_next rfl rfl)))) ?_
    simp only [Bool.or_eq_true, Bool.not_eq_true']
    rintro ((hno | hdown) | hhold)
    · exact absurd (hturn.symm.trans hno) (by decide)
    · exact absurd (hup.symm.trans hdown) (by decide)
    · exact absurd (hheld.symm.trans hhold) (by decide)

end Sys2Proof.Machine
end

section
/-! PROOF SUPPORT. What the commands of resets, start-up, clocks, power and the registers answer when their conditions hold (R25,
R27, R443 to R463, R492 to R514, R527). -/
namespace Sys2Proof.Machine
open Sys2Proof

/-- Settles O1: how far the module has started decides the guard of each command of the start-up sequence. -/
theorem resetAndStartUpCommandsComplete : Obligations.ResetAndStartUpCommandsComplete := by
  refine ⟨?powerReset, fun s => rfl, ?pinReset, ?softReset, ?startUp, ?perstRelease, ?pllLocked, ?imageLoadDone, ?quickSelfTest,
    ?startDone, ?headendWaitExpiry⟩
  case powerReset => exact fun s hoff => State.goes_of_ite rfl hoff
  case pinReset => exact fun s hon => State.goes_of_next rfl (congrArg _ (if_neg hon))
  case softReset => exact fun s t hat hdue => State.goes_of_next rfl (hat ▸ congrArg _ (if_pos hdue))
  case startUp => exact fun s pins hrun => State.goes_past_guard rfl rfl (not_not_intro hrun)
  case perstRelease => exact fun s hon hperst hdue => State.goes_of_ite rfl ⟨hon, by simp [hperst], hdue⟩
  case pllLocked =>
    intro s hrun hstep
    refine State.goes_past_guard rfl rfl ?_
    simp [hrun, hstep]
  case imageLoadDone =>
    intro s image hrun hstep
    refine State.goes_past_guard rfl (out_ite_next rfl (out_ite_next rfl rfl)) ?_
    simp [hrun, hstep]
  case quickSelfTest => exact fun s obs hstep => State.goes_past_guard rfl rfl (not_not_intro hstep)
  case startDone =>
    intro s hrun hstep hwant
    refine State.goes_past_guard rfl (out_ite_next rfl rfl) ?_
    rw [hwant]
    simp [hrun, hstep]
  case headendWaitExpiry =>
    intro s t hend hheld hdue
    refine State.goes_of_next rfl (hend ▸ congrArg _ (if_pos ?_))
    simp [hheld, hdue]

/-- Settles O2: what the clocks show and the times named decide the guards. -/
theorem clockCommandsComplete : Obligations.ClockCommandsComplete := by
  refine ⟨?refclkLost, ?pllUnlock, ?pllRelock, fun s ok => rfl, ?ppsEdge, ?ppsLost, ?ppsOutPulse, fun s i w => rfl, ?braidTimeValidLapse⟩
  case refclkLost =>
    intro s hrun hok
    refine State.goes_past_guard rfl rfl ?_
    simp [hrun, hok]
  case pllUnlock =>
    intro s hrun hlock hok
    refine State.goes_past_guard rfl rfl ?_
    simp [hrun, hlock, hok]
  case pllRelock =>
    intro s prev hrun hlost hstep
    refine State.goes_past_guard rfl rfl ?_
    simp [hrun, hlost, hstep]
  case ppsEdge => exact fun s => State.goes_of_next rfl (out_ite_next rfl (out_ite_next rfl rfl))
  case ppsLost => exact fun s t hlast hdue => State.goes_of_next rfl (hlast ▸ if_neg (Nat.not_lt.mpr hdue))
  case ppsOutPulse =>
    intro s m hen hnear
    exact State.goes_of_guard rfl rfl ⟨hen, hnear⟩
  case braidTimeValidLapse => exact fun s hvalid hdue => State.goes_of_guard rfl rfl ⟨hvalid, hdue⟩

/-- Settles O3: the work that is left, a job's turn and its phase decide the guards. -/
theorem powerProfileAndCoreCommandsComplete : Obligations.PowerProfileAndCoreCommandsComplete := by
  refine ⟨?cordEngineStop, ?cordEngineWake, fun s cipher => rfl, ?cxlL1Entry, fun s vin temp => rfl, fun s i w => rfl,
    ?profileSwitchCheckStep, ?profileSwitchDrainEnd, ?profileSwitchWaitEnd, ?coreLost, ?linkGcmWaitExpiry⟩
  case cordEngineStop =>
    intro s e cords hen hon hidle hspare
    refine State.goes_past_guard rfl rfl ?_
    rw [hen, hon, hidle]
    simp [hspare]
  case cordEngineWake => exact fun s cord hwake => State.goes_of_ite rfl hwake
  case cxlL1Entry =>
    intro s hup hidle
    refine State.goes_of_ite rfl ?_
    simp [hup, hidle]
  case profileSwitchCheckStep =>
    intro s k entry data hturn hphase
    refine State.goes_past_guard rfl ?_ ?guard
    case guard => simp [hturn, hphase]
    cases entry with
    | none => rfl
    | some e => exact out_ite_next rfl (out_ite_next rfl (out_ite_next rfl (out_ite_next rfl rfl)))
  case profileSwitchDrainEnd =>
    intro s k drained hturn hphase hdone
    refine State.goes_past_guard rfl rfl ?_
    rw [hdone]
    simp [hturn, hphase]
  case profileSwitchWaitEnd =>
    intro s k data prev hturn hphase hwaited
    refine State.goes_past_guard rfl ?_ ?guard
    case guard => simp [hturn, hphase, hwaited]
    -- `ws` are the writes of a section that checks
    dsimp only
    generalize (if (s.nvmCheck data _).2 = true then profWrites data else none) = ws
    cases ws with
    | none => rfl
    | some l => exact out_ite_next rfl rfl
  case coreLost =>
    intro s core hrun hin
    refine State.goes_past_guard rfl rfl ?_
    simp [hrun, hin]
  case linkGcmWaitExpiry =>
    intro s l old hup
    refine State.goes_past_guard rfl (out_ite_next rfl (out_ite_next rfl rfl)) ?_
    simp [hup]

/-- Settles O26: every clause names the operation that the command runs; a command of the log asks for its own bit. -/
theorem logAndRegisterCommandsComplete : Obligations.LogAndRegisterCommandsComplete := by
  refine ⟨?logClearProt, ?logMarkExported, fun s i w => rfl, fun s i w => rfl, fun s i w => rfl, ?gpioCapture, fun s i a => rfl,
    fun s i a w => rfl, ?tapInstructionUpdate⟩
  case logClearProt => exact fun s i w hclear => State.goes_of_ite rfl hclear
  case logMarkExported => exact fun s i w hmark => State.goes_of_ite rfl hmark
  case gpioCapture => exact fun s ball level => State.goes_of_next rfl (out_ite_next rfl rfl)
  case tapInstructionUpdate => exact fun s ir => State.goes_of_next rfl (out_ite_next rfl rfl)

end Sys2Proof.Machine
end

section
/-! PROOF SUPPORT. The register map: the rows of every region, and what the registers read at reset (R498, R499, R508). -/
namespace Sys2Proof.Machine
open Sys2Proof

/-- The fields of a row lie inside the word and share no bit. -/
def RegRow.FieldsApart (r : RegRow) : Prop :=
  (∀ f ∈ r.fields, f.lo ≤ f.hi ∧ f.hi < 32) ∧ r.fields.Pairwise (fun f g => f.hi < g.lo ∨ g.hi < f.lo)

/-- The tables of the regions, in the order of `regionRows`. -/
def regionTables : List (List RegRow) :=
  [glbRows, evcRows, logRows, pwrRows, bstRows, lpRows, fcRows, strRows, mnsRows, plnRows, macRows, mshRows, sesRows, cipRows, chkRows,
    brdRows, splRows, halRows, blyRows, []]

theorem regionRows_mem (a : Nat) : regionRows a ∈ regionTables := by
  have h {c : Prop} [Decidable c] {l m : List RegRow} (hl : l ∈ regionTables) (hm : m ∈ regionTables) :
      (if c then l else m) ∈ regionTables := by
    split <;> assumption
  unfold regionRows
  repeat' apply h
  all_goals simp [regionTables]

theorem fieldsApart_of_table : ∀ l ∈ regionTables, ∀ r ∈ l, r.FieldsApart := by
  unfold RegRow.FieldsApart
  decide +kernel

theorem fieldsApart_of_regRow {a : Nat} {r : RegRow} (h : regRow a = some r) : r.FieldsApart :=
  fieldsApart_of_table _ (regionRows_mem a) r (List.mem_of_find?_eq_some h)

/-- Settles O35: the row of an address is one of its region's table. -/
theorem registerFieldsApart : Obligations.RegisterFieldsApart := fun _ _ h => fieldsApart_of_regRow h

/-- Settles O33: the tables of `State.reset` are empty, so every register reads its reset word. -/
theorem resetStateOfRegisters : Obligations.ResetStateOfRegisters := by
  have hlatches : ∀ g < 8, State.reset.live (F.EVC_LATCH.addr + 4 * g) = 0 := by decide
  refine ⟨fun a => ⟨rfl, rfl⟩, ⟨by decide, by decide, by decide, by decide⟩, fun e he => ?_, rfl, rfl, rfl, rfl⟩
  unfold State.evLatched
  rw [show (0x010000 : Nat) = F.EVC_LATCH.addr from rfl, hlatches _ (by omega)]
  simp

end Sys2Proof.Machine
end

section
/-! PROOF SUPPORT. What a write of one word does field by field, and what the captured words of a commit do when they apply (R17, R499,
R502, R503). -/
namespace Sys2Proof.Machine
open Sys2Proof

theorem State.RegsOnly.regsAndShadowsOnly {s t : State} (h : s.RegsOnly t) : s.RegsAndShadowsOnly t := by
  obtain ⟨r, rfl⟩ := h
  exact ⟨r, s.shadow, rfl⟩

theorem State.RegsOnly.shadow {s t : State} (h : s.RegsOnly t) : t.shadow = s.shadow := by
  obtain ⟨r, rfl⟩ := h
  rfl

theorem State.RegsAndShadowsOnly.setShad {s t : State} (h : s.RegsAndShadowsOnly t) (a : Nat) (w : Word) :
    s.RegsAndShadowsOnly (t.setShad a w) := by
  obtain ⟨r, sh, rfl⟩ := h
  exact ⟨r, _, rfl⟩

/-! ### Fields of a word -/

/-- Words that agree in the bits of a field have the same value in it. -/
theorem bitsOf_eq_of_getLsbD {x y : Word} {hi lo : Nat} (h : ∀ j, lo ≤ j → j ≤ hi → x.getLsbD j = y.getLsbD j) :
    bitsOf x hi lo = bitsOf y hi lo := by
  apply Nat.eq_of_testBit_eq
  intro i
  rw [bitsOf_testBit, bitsOf_testBit]
  by_cases hi' : i < hi + 1 - lo
  · rw [h (lo + i) (by omega) (by omega)]
  · rw [decide_eq_false hi', Bool.false_and, Bool.false_and]

/-- What the field `f` of the register at `a` makes of the live word `x` when `w` is written (R499). -/
def RegField.written (f : RegField) (a : Nat) (w x : Word) : Word :=
  let v := bitsOf w f.hi f.lo
  match f.acc with
  | .rw => if fieldOk a f v then setBits x f.hi f.lo v else x
  | .w1c => x &&& ~~~ (w &&& bitsMask f.hi f.lo)
  | _ => x

/-- The bit `j` that a field's write leaves, of the bit `b` that stood there. -/
def RegField.writtenBit (f : RegField) (a : Nat) (w : Word) (j : Nat) (b : Bool) : Bool :=
  match f.acc with
  | .rw => if fieldOk a f (bitsOf w f.hi f.lo) then w.getLsbD j else b
  | .w1c => b && !w.getLsbD j
  | _ => b

section
variable {f : RegField} (hin : f.lo ≤ f.hi ∧ f.hi < 32) (a : Nat) (w x : Word) (j : Nat)
include hin

theorem RegField.written_getLsbD_same (hlo : f.lo ≤ j) (hhi : j ≤ f.hi) :
    (f.written a w x).getLsbD j = f.writtenBit a w j (x.getLsbD j) := by
  have hj : j < 32 := by omega
  unfold RegField.written RegField.writtenBit
  cases f.acc with
  | rw =>
    dsimp only
    split
    · rw [setBits_getLsbD _ _ _ _ _ hj hin.1, if_pos ⟨hlo, hhi⟩, bitsOf_testBit, decide_eq_true (by omega), Nat.add_sub_cancel' hlo,
        Bool.true_and]
    · rfl
  | w1c =>
    have hmask : (bitsMask f.hi f.lo).getLsbD j = true := by
      rw [bitsMask_getLsbD _ _ _ hj, decide_eq_true hlo, decide_eq_true (by omega), Bool.true_and]
    rw [BitVec.getLsbD_and, BitVec.getLsbD_not, BitVec.getLsbD_and, hmask]
    simp [hj]
  | ro | wo | w1s | rws => rfl

theorem RegField.written_getLsbD_other (hj : j < 32) (hout : j < f.lo ∨ f.hi < j) : (f.written a w x).getLsbD j = x.getLsbD j := by
  unfold RegField.written
  cases f.acc with
  | rw =>
    dsimp only
    split
    · rw [setBits_getLsbD _ _ _ _ _ hj hin.1, if_neg (by omega)]
    · rfl
  | w1c =>
    have hmask : (bitsMask f.hi f.lo).getLsbD j = false := by
      rw [bitsMask_getLsbD _ _ _ hj, Bool.and_eq_false_iff, decide_eq_false_iff_not, decide_eq_false_iff_not]
      omega
    rw [BitVec.getLsbD_and, BitVec.getLsbD_not, BitVec.getLsbD_and, hmask]
    simp [hj]
  | ro | wo | w1s | rws => rfl

end

/-- A bit that lies in no field of the list stays. -/
theorem foldl_written_getLsbD_other (a : Nat) (w : Word) {j : Nat} (hj : j < 32) {l : List RegField} (x : Word)
    (hl : ∀ f ∈ l, (f.lo ≤ f.hi ∧ f.hi < 32) ∧ (j < f.lo ∨ f.hi < j)) :
    (l.foldl (fun x f => f.written a w x) x).getLsbD j = x.getLsbD j := by
  induction l generalizing x with
  | nil => rfl
  | cons g l ih =>
    obtain ⟨hin, hout⟩ := hl g List.mem_cons_self
    rw [List.foldl_cons, ih _ fun f hf => hl f (List.mem_cons_of_mem _ hf), RegField.written_getLsbD_other hin _ _ _ _ hj hout]

/-- Of fields that lie apart, each one alone decides its own bits. -/
theorem foldl_written_getLsbD (a : Nat) (w : Word) {l : List RegField} (hin : ∀ f ∈ l, f.lo ≤ f.hi ∧ f.hi < 32)
    (hapart : l.Pairwise (fun f g => f.hi < g.lo ∨ g.hi < f.lo)) {f : RegField} (hf : f ∈ l) {j : Nat} (hlo : f.lo ≤ j) (hhi : j ≤ f.hi)
    (x : Word) : (l.foldl (fun x f => f.written a w x) x).getLsbD j = f.writtenBit a w j (x.getLsbD j) := by
  have hj : j < 32 := Nat.lt_of_le_of_lt hhi (hin f hf).2
  induction l generalizing x with
  | nil => cases hf
  | cons g l ih =>
    obtain ⟨hg, hl⟩ := List.pairwise_cons.mp hapart
    rw [List.foldl_cons]
    rcases List.mem_cons.mp hf with rfl | hfl
    · rw [foldl_written_getLsbD_other a w hj _ fun k hk => ⟨hin k (List.mem_cons_of_mem _ hk), ?_⟩,
        RegField.written_getLsbD_same (hin f List.mem_cons_self) _ _ _ _ hlo hhi]
      have := hg k hk
      omega
    · rw [ih (fun k hk => hin k (List.mem_cons_of_mem _ hk)) hl hfl, RegField.written_getLsbD_other (hin g List.mem_cons_self) _ _ _ _ hj]
      have := hg f hfl
      omega

theorem liveAfterWrite_getLsbD {a : Nat} {r : RegRow} {f : RegField} (hr : regRow a = some r) (hf : f ∈ r.fields) {j : Nat} (hlo : f.lo ≤ j)
    (hhi : j ≤ f.hi) (old w : Word) : (liveAfterWrite r a old w).getLsbD j = f.writtenBit a w j (old.getLsbD j) :=
  foldl_written_getLsbD a w (fieldsApart_of_regRow hr).1 (fieldsApart_of_regRow hr).2 hf hlo hhi old

/-! ### The bits of an access code -/

theorem foldl_mask_getLsbD (c : Acc) (l : List RegField) (m : Word) {j : Nat} (hj : j < 32) :
    (l.foldl (fun m f => if f.acc = c then m ||| bitsMask f.hi f.lo else m) m).getLsbD j =
      (m.getLsbD j || l.any (fun f => decide (f.acc = c ∧ f.lo ≤ j ∧ j ≤ f.hi))) := by
  induction l generalizing m with
  | nil => exact (Bool.or_false _).symm
  | cons g l ih =>
    rw [List.foldl_cons, ih, List.any_cons, ← Bool.or_assoc]
    congr 1
    by_cases hacc : g.acc = c
    · have hcover : (decide (g.lo ≤ j) && decide (j < g.hi + 1 - g.lo + g.lo)) = decide (g.lo ≤ j ∧ j ≤ g.hi) := by
        rw [← Bool.decide_and]
        exact decide_eq_decide.mpr (by omega)
      simp only [hacc, if_true, BitVec.getLsbD_or, bitsMask_getLsbD _ _ _ hj, hcover, true_and]
    · simp [hacc]

/-- The mask of an access code holds the bits of its fields. -/
theorem RegRow.mask_getLsbD (r : RegRow) (c : Acc) {j : Nat} (hj : j < 32) :
    (r.mask c).getLsbD j = r.fields.any (fun f => decide (f.acc = c ∧ f.lo ≤ j ∧ j ≤ f.hi)) := by
  rw [RegRow.mask, foldl_mask_getLsbD _ _ _ hj, show (0 : Word).getLsbD j = false from BitVec.getLsbD_zero, Bool.false_or]

theorem RegRow.mask_getLsbD_of_mem {r : RegRow} {f : RegField} (hf : f ∈ r.fields) {j : Nat} (hlo : f.lo ≤ j) (hhi : j ≤ f.hi)
    (hj : j < 32) : (r.mask f.acc).getLsbD j = true := by
  rw [RegRow.mask_getLsbD _ _ hj]
  exact List.any_eq_true.mpr ⟨f, hf, decide_eq_true ⟨rfl, hlo, hhi⟩⟩

/-! ### The write -/

theorem State.fieldWrite_eq {a : Nat} {r : RegRow} (hr : regRow a = some r) (s : State) (w : Word) :
    s.fieldWrite a w =
      let new := liveAfterWrite r a (s.live a) w
      let u := if new != s.live a && relationOk a new then s.setLive a new else s
      if r.mask .rws = 0 ∨ rsvInstance a then u else u.setShad a ((u.shad a &&& ~~~ r.mask .rws) ||| (w &&& r.mask .rws)) := by
  unfold State.fieldWrite
  rw [hr]

section
variable {a : Nat} {r : RegRow} (hr : regRow a = some r) (s : State) (w : Word)
include hr

/-- A word that meets the relations of its register acts field by field, any other leaves the live word (R17). -/
theorem State.live_fieldWrite :
    (s.fieldWrite a w).live a = if relationOk a (liveAfterWrite r a (s.live a) w) then liveAfterWrite r a (s.live a) w else s.live a := by
  rw [State.fieldWrite_eq hr]
  generalize liveAfterWrite r a (s.live a) w = new
  have hu : (if new != s.live a && relationOk a new then s.setLive a new else s).live a = if relationOk a new then new else s.live a := by
    by_cases heq : new = s.live a
    · simp [heq]
    · cases relationOk a new <;> simp [heq]
  dsimp only
  split
  · exact hu
  · rw [State.live_setShad, hu]

theorem State.live_fieldWrite_other {b : Nat} (hb : b ≠ a) : (s.fieldWrite a w).live b = s.live b := by
  rw [State.fieldWrite_eq hr]
  have hu : ∀ (c : Bool) (new : Word), (if c then s.setLive a new else s : State).live b = s.live b := fun c new => by
    cases c
    · rfl
    · exact State.live_setLive_other _ _ _ _ hb
  dsimp only
  split
  · exact hu _ _
  · rw [State.live_setShad, hu]

theorem State.shad_fieldWrite_other {b : Nat} (hb : b ≠ a) : (s.fieldWrite a w).shad b = s.shad b := by
  rw [State.fieldWrite_eq hr]
  have hu : ∀ (c : Bool) (new : Word), (if c then s.setLive a new else s : State).shad b = s.shad b := fun c new => by cases c <;> rfl
  dsimp only
  split
  · exact hu _ _
  · rw [State.shad_setShad_other _ _ _ _ hb, hu]

theorem State.regsAndShadowsOnly_fieldWrite : s.RegsAndShadowsOnly (s.fieldWrite a w) := by
  rw [State.fieldWrite_eq hr]
  have hu : ∀ (c : Bool) (new : Word), s.RegsAndShadowsOnly (if c then s.setLive a new else s) := fun c new => by
    cases c
    · exact ⟨_, _, rfl⟩
    · exact (s.regsOnly_setLive a new).regsAndShadowsOnly
  dsimp only
  split
  · exact hu _ _
  · exact (hu _ _).setShad _ _

/-- The shadow takes the written bits of an RWS field, where the register has it (R502). -/
theorem State.shad_fieldWrite {f : RegField} (hf : f ∈ r.fields) (hacc : f.acc = .rws) (hrsv : rsvInstance a = false) {j : Nat}
    (hlo : f.lo ≤ j) (hhi : j ≤ f.hi) : ((s.fieldWrite a w).shad a).getLsbD j = w.getLsbD j := by
  have hj : j < 32 := Nat.lt_of_le_of_lt hhi ((fieldsApart_of_regRow hr).1 f hf).2
  have hmask : (r.mask .rws).getLsbD j = true := hacc ▸ RegRow.mask_getLsbD_of_mem hf hlo hhi hj
  have hne : ¬(r.mask .rws = 0 ∨ rsvInstance a = true) := by
    rintro (hzero | hres)
    · rw [hzero] at hmask
      simp at hmask
    · rw [hrsv] at hres
      cases hres
  rw [State.fieldWrite_eq hr]
  dsimp only
  rw [if_neg hne, State.shad_setShad]
  simp [hmask]

end

/-- Settles O37: the fields of a register lie apart, so each one alone decides its own bits of the word. -/
theorem writeActsFieldByField : Obligations.WriteActsFieldByField := by
  intro s a w r f hr hf new t
  have hlive : t.live a = if relationOk a new then new else s.live a := State.live_fieldWrite hr s w
  have hbit : ∀ j, f.lo ≤ j → j ≤ f.hi → new.getLsbD j = f.writtenBit a w j ((s.live a).getLsbD j) := fun j hlo hhi =>
    liveAfterWrite_getLsbD hr hf hlo hhi _ _
  have hkept : (∀ j b, f.writtenBit a w j b = b) → bitsOf (t.live a) f.hi f.lo = bitsOf (s.live a) f.hi f.lo := by
    refine fun h => bitsOf_eq_of_getLsbD fun j hlo hhi => ?_
    rw [hlive]
    split
    · rw [hbit j hlo hhi, h]
    · rfl
  refine ⟨fun hbad => ?_, fun hok hrw hlegal => ?_, fun hrw hbad => hkept fun j b => ?_, fun hok hw1c j hlo hhi => ?_,
    fun hrw hw1c => hkept fun j b => ?_, fun hrws hrsv => ?_,
    fun b hb => ⟨State.live_fieldWrite_other hr s w hb, State.shad_fieldWrite_other hr s w hb⟩, State.regsAndShadowsOnly_fieldWrite hr s w⟩
  · rw [hlive, hbad]
    rfl
  · refine bitsOf_eq_of_getLsbD fun j hlo hhi => ?_
    rw [hlive, if_pos hok, hbit j hlo hhi]
    simp [RegField.writtenBit, hrw, hlegal]
  · simp [RegField.writtenBit, hrw, hbad]
  · rw [hlive, if_pos hok, hbit j hlo hhi]
    simp [RegField.writtenBit, hw1c]
  · unfold RegField.writtenBit
    cases h : f.acc with
    | rw => exact absurd h hrw
    | w1c => exact absurd h hw1c
    | ro | wo | w1s | rws => rfl
  · exact bitsOf_eq_of_getLsbD fun j hlo hhi => State.shad_fieldWrite hr s w hf hrws hrsv hlo hhi

/-! ### Captured words -/

theorem State.regsOnly_applyCells (s : State) (cells : List (Nat × Word)) : s.RegsOnly (s.applyCells cells) := by
  induction cells generalizing s with
  | nil => exact ⟨s.regs, rfl⟩
  | cons c cells ih => exact (s.regsOnly_setLive _ _).trans (ih _)

theorem State.live_applyCells_other (s : State) {cells : List (Nat × Word)} {a : Nat} (h : a ∉ cells.map (·.1)) :
    (s.applyCells cells).live a = s.live a := by
  induction cells generalizing s with
  | nil => rfl
  | cons c cells ih =>
    rw [List.map_cons, List.mem_cons, not_or] at h
    exact (ih _ h.2).trans (State.live_setLive_other _ _ _ _ h.1)

theorem State.live_applyCells (s : State) {cells : List (Nat × Word)} (hd : (cells.map (·.1)).Nodup) {c : Nat × Word} (hc : c ∈ cells) :
    (s.applyCells cells).live c.1 = ((s.live c.1 &&& ~~~ rwsMask c.1) ||| (c.2 &&& rwsMask c.1)) := by
  induction cells generalizing s with
  | nil => cases hc
  | cons d cells ih =>
    obtain ⟨hnot, hd⟩ := List.nodup_cons.mp hd
    rcases List.mem_cons.mp hc with rfl | hcl
    · exact (State.live_applyCells_other _ hnot).trans (State.live_setLive _ _ _)
    · have hne : c.1 ≠ d.1 := fun h => hnot (List.mem_map.mpr ⟨c, hcl, h⟩)
      refine (ih _ hd hcl).trans ?_
      rw [State.live_setLive_other _ _ _ _ hne]

/-- Settles O42: a captured word merges into its own live word, which no other captured word writes. -/
theorem capturedWordsApply : Obligations.CapturedWordsApply := fun s cells hd =>
  ⟨fun _ hc => s.live_applyCells hd hc, fun _ ha => s.live_applyCells_other ha, (s.regsOnly_applyCells cells).regsAndShadowsOnly,
    (s.regsOnly_applyCells cells).shadow⟩

end Sys2Proof.Machine
end

section
/-! PROOF SUPPORT. What a read of a wide value latches, and the capture of the time base (R500, R513). -/
namespace Sys2Proof.Machine
open Sys2Proof

/-! ### A noted write -/

theorem State.EventOnly.withWlog {s t : State} (h : s.EventOnly t) (l : List WriteLog) :
    ({ s with wlog := l } : State).EventOnly { t with wlog := l } := by
  obtain ⟨r, a, b, c, d, e, j, rfl⟩ := h
  exact ⟨r, a, b, c, d, e, j, rfl⟩

/-- A noted write changes the write log, and what the log entry of the write that leaves it changes (R423). -/
theorem State.wlogNote_eventOnly (s : State) (i : Iface) (a : Nat) (w : Word) :
    ∃ l, ({ s with wlog := l } : State).EventOnly (s.wlogNote i a w) := by
  unfold State.wlogNote
  split
  · exact ⟨s.wlog, .refl s⟩
  extract_lets v same u t
  split
  · exact ⟨_, .refl _⟩
  have hu : ∃ l, ({ s with wlog := l } : State).EventOnly u := by
    show ∃ l, ({ s with wlog := l } : State).EventOnly (match s.wlog with | e :: l => _ | [] => _)
    split
    next e l _ =>
      split
      · exact ⟨l, State.eventOnly_wlogClose _ e⟩
      · exact ⟨s.wlog, .refl s⟩
    · exact ⟨s.wlog, .refl s⟩
  clear_value u
  obtain ⟨l, hu⟩ := hu
  exact ⟨t.wlog, (hu.withWlog t.wlog).trans (t.eventOnly_put _ _ _)⟩

theorem State.wlogNote_field {β : Type} (s : State) (i : Iface) (a : Nat) (w : Word) (p : State → β)
    (hp : ∀ (u : State) l r a b c d e j,
      p { u with wlog := l, regs := r, rates := a, outq := b, log := c, protArmed := d, nearArmed := e, jobs := j } = p u) :
    p (s.wlogNote i a w) = p s := by
  obtain ⟨l, r, a, b, c, d, e, j, h⟩ := s.wlogNote_eventOnly i a w
  rw [h]
  exact hp s l r a b c d e j

theorem State.tick_wlogNote (s : State) (i : Iface) (a : Nat) (w : Word) : (s.wlogNote i a w).tick = s.tick :=
  s.wlogNote_field i a w State.tick fun _ _ _ _ _ _ _ _ _ => rfl

theorem State.commits_wlogNote (s : State) (i : Iface) (a : Nat) (w : Word) : (s.wlogNote i a w).commits = s.commits :=
  s.wlogNote_field i a w State.commits fun _ _ _ _ _ _ _ _ _ => rfl

/-! ### Wide values -/

/-- No wide value reaches past the address space. -/
theorem wideValues_inside : ∀ v ∈ wideValues, v.1 + (v.2.2.1 - 1) * v.2.1 + 4 * v.2.2.2 ≤ 2 ^ 24 := by decide

theorem wideOf_inside {a b n : Nat} (h : wideOf a = some (b, n)) : b + 4 * n ≤ 2 ^ 24 := by
  obtain ⟨v, hv, hfound⟩ := List.exists_of_findSome?_eq_some h
  have hin := wideValues_inside v hv
  by_cases hlt : a < v.1
  · rw [if_pos hlt] at hfound
    cases hfound
  · rw [if_neg hlt] at hfound
    dsimp only at hfound
    split at hfound
    next hk =>
      obtain ⟨rfl, rfl⟩ : _ = b ∧ _ = n := by simpa using hfound
      have := Nat.mul_le_mul_right v.2.1 (Nat.le_sub_one_of_lt hk.1)
      omega
    · cases hfound

/-- The latches of two interfaces lie apart. -/
theorem latchKey_inj {i j : Iface} {a b : Nat} (ha : a < 2 ^ 24) (hb : b < 2 ^ 24) (h : latchKey i a = latchKey j b) : i = j ∧ a = b := by
  unfold latchKey at h
  have hid : i.id = j.id := by omega
  have hlisted (i : Iface) : [Iface.mgt, .h0, .h1, .fabric, .module][i.id]? = some i := by cases i <;> rfl
  exact ⟨Option.some.inj ((hlisted i).symm.trans (hid ▸ hlisted j)), by omega⟩

/-! ### What latching leaves -/

theorem State.view_rlatch (s : State) (l : Table Word) (a : Nat) : ({ s with rlatch := l } : State).view a = s.view a := rfl

/-- The latches of interface `i` after the words `1` to `n` above `a` have been latched. -/
def State.latched (s : State) (i : Iface) (a n : Nat) : Table Word :=
  (List.range n).foldl (fun l k => tset (fun _ => 0) l (latchKey i (a + 4 * (k + 1))) (s.view (a + 4 * (k + 1)))) s.rlatch

theorem State.latched_succ (s : State) (i : Iface) (a n : Nat) :
    s.latched i a (n + 1) = tset (fun _ => 0) (s.latched i a n) (latchKey i (a + 4 * (n + 1))) (s.view (a + 4 * (n + 1))) := by
  rw [State.latched, List.range_succ, List.foldl_append]
  rfl

theorem State.latchWide_eq (s : State) (i : Iface) (a n : Nat) : s.latchWide i a n = { s with rlatch := s.latched i a n } := by
  unfold State.latchWide
  induction n with
  | zero => rfl
  | succ n ih =>
    rw [List.range_succ, List.foldl_append, ih, s.latched_succ, List.foldl_cons, List.foldl_nil, State.view_rlatch]

theorem State.latched_same (s : State) (i : Iface) {a n k : Nat} (hin : a + 4 * n < 2 ^ 24) (hpos : 0 < k) (hk : k ≤ n) :
    tget (fun _ => 0) (s.latched i a n) (latchKey i (a + 4 * k)) = s.view (a + 4 * k) := by
  induction n with
  | zero => omega
  | succ n ih =>
    rw [s.latched_succ]
    rcases Nat.lt_or_eq_of_le hk with hlt | rfl
    · rw [tget_tset_other _ _ _ _ _ fun h => ?_, ih (by omega) (by omega)]
      have := (latchKey_inj (by omega) (by omega) h).2
      omega
    · exact tget_tset_same _ _ _ _

theorem State.latched_other (s : State) {i j : Iface} (hj : j ≠ i) {a b n : Nat} (hin : a + 4 * n < 2 ^ 24) (hb : b < 2 ^ 24) :
    tget (fun _ => 0) (s.latched i a n) (latchKey j b) = tget (fun _ => 0) s.rlatch (latchKey j b) := by
  induction n with
  | zero => rfl
  | succ n ih =>
    rw [s.latched_succ, tget_tset_other _ _ _ _ _ fun h => hj (latchKey_inj hb (by omega) h).1, ih (by omega)]

/-! ### The read -/

theorem State.lastRead_setReply (s : State) (i : Iface) (w : Word) : (s.setReply i w).lastRead i = w := tget_tset_same _ _ _ _

/-- The state that a command answers shows its status registers; replies, latches and the time base are those of `t`. -/
theorem State.answered_field {β : Type} (t : State) (q : List Instr) (p : State → β)
    (hp : ∀ (u : State) r q, p { u with regs := r, pending := q } = p u) : p { t.settle with pending := q } = p t := by
  obtain ⟨r, hr⟩ := t.settle_only
  rw [hr]
  exact hp t r q

/-- A word of a wide value is read through the latches of its interface (R500). -/
theorem State.regRead_wide (s : State) (i : Iface) {a b n : Nat} (ha : a % 4 = 0) (hin : a < 2 ^ 24) (h : wideOf a = some (b, n)) :
    s.regRead i a = if a = b then ({ s with rlatch := s.latched i a (n - 1) } : State).setReply i (s.view a)
      else s.setReply i (tget (fun _ => 0) s.rlatch (latchKey i a)) := by
  have hplain {c : Nat} (hc : wideOf c = none) : a ≠ c := by
    rintro rfl
    rw [hc] at h
    cases h
  rw [State.regRead, if_neg (by omega), if_neg (hplain (by decide)), if_neg (hplain (by decide)), h]
  dsimp only
  rw [State.latchWide_eq]

/-- A read of the lowest word of a wide value. -/
theorem State.wideRead_lowest (s : State) (i : Iface) {b : BitVec 24} {n : Nat} (h : wideOf b.toNat = some (b.toNat, n))
    (hb : b.toNat % 4 = 0) :
    ∃ t : State, exec (.wideValueRead i b) s = .next t ∧ t.lastRead i = s.view b.toNat ∧ t.rlatch = s.latched i b.toNat (n - 1) := by
  refine ⟨_, rfl, ?_, ?_⟩
  · rw [State.answered_field (s.regRead i b.toNat) _ (fun u => u.lastRead i) fun _ _ _ => rfl, s.regRead_wide i hb b.isLt h, if_pos rfl]
    exact State.lastRead_setReply _ _ _
  · rw [State.answered_field (s.regRead i b.toNat) _ State.rlatch fun _ _ _ => rfl, s.regRead_wide i hb b.isLt h, if_pos rfl]
    rfl

/-- Settles O38: the latches hold what the words show before the first of them is latched, since no word shows a latch. -/
theorem wideReadLatches : Obligations.WideReadLatches := by
  intro s i b n h hb
  have hin : b.toNat + 4 * (n - 1) < 2 ^ 24 := by
    have := wideOf_inside h
    have := b.isLt
    omega
  constructor
  · obtain ⟨t, hexec, hread, hlatch⟩ := s.wideRead_lowest i h hb
    refine ⟨t, hexec, hread, fun k hpos hk => ?_, fun j hj a ha => ?_⟩
    · rw [hlatch, s.latched_same i hin hpos (by omega)]
    · rw [hlatch, s.latched_other hj hin ha]
  · intro c hc hne hmod
    have hne' : c.toNat ≠ b.toNat := fun heq => hne (BitVec.eq_of_toNat_eq heq)
    refine ⟨_, rfl, ?_, ?_⟩
    · rw [State.answered_field (s.regRead i c.toNat) _ (fun u => u.lastRead i) fun _ _ _ => rfl, s.regRead_wide i hmod c.isLt hc,
        if_neg hne']
      exact State.lastRead_setReply _ _ _
    · rw [State.answered_field (s.regRead i c.toNat) _ State.rlatch fun _ _ _ => rfl, s.regRead_wide i hmod c.isLt hc, if_neg hne']
      rfl

/-! ### The time base -/

theorem State.view_timeLo (s : State) : s.view F.GLB_TIME_LO.addr = BitVec.ofNat 32 s.tick := rfl

theorem State.view_timeHi (s : State) : s.view F.GLB_TIME_HI.addr = BitVec.ofNat 32 (s.tick / 2 ^ 32) := rfl

/-- Settles O39: `GLB_TIME_LO` is the lowest word of a wide value, and the capture writes two words that show no other state. -/
theorem timeIsReadAndCaptured : Obligations.TimeIsReadAndCaptured := by
  refine ⟨fun s i => ?_, fun s i w => ⟨_, rfl, ?_⟩⟩
  · obtain ⟨t, hexec, hread, hlatch⟩ := s.wideRead_lowest i (b := 0x000200#24) (n := 2) (by decide) (by decide)
    refine ⟨t, hexec, hread.trans s.view_timeLo, ?_⟩
    rw [hlatch]
    exact (s.latched_same i (a := 0x000200) (n := 1) (k := 1) (by decide) (by decide) (by decide)).trans s.view_timeHi
  have hlo (t : State) : t.settle.live F.GLB_TIME_CAP_LO.addr = t.live F.GLB_TIME_CAP_LO.addr := State.live_settle_other _ _ (by decide)
  have hhi (t : State) : t.settle.live F.GLB_TIME_CAP_HI.addr = t.live F.GLB_TIME_CAP_HI.addr := State.live_settle_other _ _ (by decide)
  refine ⟨fun hgo => ⟨(hlo _).trans ?_, (hhi _).trans ?_⟩, fun hgo => ⟨(hlo _).trans ?_, (hhi _).trans ?_⟩⟩
  · rw [State.timeCapture, if_pos hgo, State.live_setLive_other _ _ _ _ (by decide), State.live_setLive, State.tick_wlogNote]
  · rw [State.timeCapture, if_pos hgo, State.live_setLive, State.tick_wlogNote]
  · rw [State.timeCapture, if_neg (by simp [hgo])]
  · rw [State.timeCapture, if_neg (by simp [hgo])]

end Sys2Proof.Machine
end

section
/-! PROOF SUPPORT. Commits, the copy of the live values into the shadows, the write of a latch register, and the profile command (R425,
R499, R503 to R507, R512). -/
namespace Sys2Proof.Machine
open Sys2Proof

/-! ### The live values copied into the shadows -/

/-- `t` is `s` with the shadows of the addresses of `A` made their live words (R507). -/
def State.Reverted (A : Nat → Prop) (s t : State) : Prop :=
  (∃ sh, t = { s with shadow := sh }) ∧ ∀ a, (A a → t.shad a = s.live a) ∧ (¬ A a → t.shad a = s.shad a)

theorem State.Reverted.live {A : Nat → Prop} {s t : State} (h : s.Reverted A t) (a : Nat) : t.live a = s.live a := by
  obtain ⟨⟨sh, rfl⟩, -⟩ := h
  rfl

theorem State.Reverted.scopeOf {A : Nat → Prop} {s t : State} (h : s.Reverted A t) (b : Nat) : t.scopeOf b = s.scopeOf b := by
  obtain ⟨⟨sh, rfl⟩, -⟩ := h
  rfl

theorem State.Reverted.refl {A : Nat → Prop} (s : State) (h : ∀ a, ¬ A a) : s.Reverted A s :=
  ⟨⟨s.shadow, rfl⟩, fun a => ⟨fun ha => absurd ha (h a), fun _ => rfl⟩⟩

theorem State.Reverted.trans {A B C : Nat → Prop} {s t u : State} (h : s.Reverted A t) (h' : t.Reverted B u)
    (hC : ∀ a, C a ↔ A a ∨ B a) : s.Reverted C u := by
  have hlive := h.live
  obtain ⟨⟨sh, rfl⟩, hA⟩ := h
  obtain ⟨⟨sh', rfl⟩, hB⟩ := h'
  refine ⟨⟨sh', rfl⟩, fun a => ⟨fun ha => ?_, fun ha => ?_⟩⟩
  · by_cases hb : B a
    · exact ((hB a).1 hb).trans (hlive a)
    · exact ((hB a).2 hb).trans ((hA a).1 (((hC a).1 ha).resolve_right hb))
  · rw [hC, not_or] at ha
    exact ((hB a).2 ha.2).trans ((hA a).2 ha.1)

/-- A row of copies is the copy of all their addresses. -/
theorem State.reverted_foldl {β : Type} {f : State → β → State} {A : β → Nat → Prop} (s : State) (l : List β)
    (hf : ∀ t : State, ∀ B, s.Reverted B t → ∀ x ∈ l, t.Reverted (A x) (f t x)) : s.Reverted (fun a => ∃ x ∈ l, A x a) (l.foldl f s) := by
  induction l using List.reverseRecOn with
  | nil => exact .refl s fun a ⟨_, hx, _⟩ => by cases hx
  | append_singleton l x ih =>
    have hl := ih fun t B ht y hy => hf t B ht y (List.mem_append_left _ hy)
    rw [List.foldl_append]
    exact hl.trans (hf _ _ hl x (List.mem_append_right _ List.mem_cons_self)) fun a => by simp [or_and_right, exists_or]

theorem State.reverted_setShad (s : State) (a : Nat) : s.Reverted (· = a) (s.setShad a (s.live a)) := by
  refine ⟨⟨_, rfl⟩, fun b => ⟨?_, fun hb => State.shad_setShad_other _ _ _ _ hb⟩⟩
  rintro rfl
  exact State.shad_setShad _ _ _

theorem State.reverted_revertInst (s : State) (b k : Nat) : s.Reverted (· ∈ rwsAddrs b k) (s.revertInst b k) := by
  unfold State.revertInst
  simpa using s.reverted_foldl (rwsAddrs b k) (f := fun s a => s.setShad a (s.live a)) (A := fun a c => c = a) fun t _ _ a _ =>
    t.reverted_setShad a

theorem State.reverted_glbRevert (s : State) (blocks : List Nat) :
    s.Reverted (fun a => ∃ b ∈ blocks, ∃ k ∈ s.scopeOf b, a ∈ rwsAddrs b k) (s.glbRevert blocks) :=
  s.reverted_foldl blocks fun t _ ht b _ => by
    rw [← ht.scopeOf b]
    exact t.reverted_foldl (t.scopeOf b) fun u _ _ k _ => u.reverted_revertInst b k

/-- Settles O40: the full scope of a block does not follow its shadows, so all of it is copied. -/
theorem revertRestoresShadows : Obligations.RevertRestoresShadows := by
  intro s i w hrevert u
  obtain ⟨honly, hshad⟩ := u.reverted_glbRevert (glbBlocks w)
  have hdone : s.glbCommit i w = u.glbRevert (glbBlocks w) := if_pos hrevert
  generalize u.glbRevert (glbBlocks w) = t at *
  have hanswer {β : Type} (p : State → β) (hp : ∀ (u : State) r q, p { u with regs := r, pending := q } = p u) :
      p { (s.glbCommit i w).settle with pending := s.pending } = p t := hdone ▸ State.answered_field _ _ p hp
  have hkept {β : Type} (p : State → β) (hp : ∀ (u : State) r q, p { u with regs := r, pending := q } = p u)
      (hsh : ∀ (u : State) sh, p { u with shadow := sh } = p u) :
      p { (s.glbCommit i w).settle with pending := s.pending } = p u := by
    rw [hanswer p hp]
    obtain ⟨sh, rfl⟩ := honly
    exact hsh u sh
  refine ⟨_, rfl, fun b hb k hk a ha => ?_, fun a ha => ?_, fun e he => ?_, hkept State.outq (fun _ _ _ => rfl) fun _ _ => rfl,
    hkept State.log (fun _ _ _ => rfl) fun _ _ => rfl, ?_⟩
  · rw [hanswer (fun x => x.shad a) fun _ _ _ => rfl]
    exact (hshad a).1 ⟨b, hb, k, hk, ha⟩
  · rw [hanswer (fun x => x.shad a) fun _ _ _ => rfl]
    exact (hshad a).2 fun ⟨b, hb, k, hk, hin⟩ => ha b hb k hk hin
  · refine (State.evLatched_settle _ he).trans ?_
    rw [hdone]
    obtain ⟨sh, rfl⟩ := honly
    rfl
  · rw [hkept State.commits (fun _ _ _ => rfl) fun _ _ => rfl]
    exact s.commits_wlogNote _ _ _

/-! ### A commit of one block -/

theorem State.commits_reject (s : State) (b reason index : Nat) : (s.reject b reason index).commits = s.commits :=
  (State.eventOnly_raise s _ _).field State.commits fun _ _ _ _ _ _ _ _ => rfl

theorem State.shadow_reject (s : State) (b reason index : Nat) : (s.reject b reason index).shadow = s.shadow :=
  (State.eventOnly_raise s _ _).field State.shadow fun _ _ _ _ _ _ _ _ => rfl

theorem State.evLatched_reject (s : State) (b reason index : Nat) : (s.reject b reason index).evLatched Ev.COMMIT_REJECT = true :=
  (State.evLatched_setLive_other _ _ (by decide) (by decide)).trans (State.evLatched_raise s (by decide) _)

/-- Settles O41: the rules see the state before the commit; they pass, and it is counted and waits, or it is rejected. -/
theorem commitWaitsOrIsRejected : Obligations.CommitWaitsOrIsRejected := by
  intro s i b insts rules t cells
  have hreject : ∀ reason index, t = s.reject b reason index →
      t.commits = s.commits ∧ t.shadow = s.shadow ∧ t.evLatched Ev.COMMIT_REJECT = true := by
    rintro reason index ht
    rw [ht]
    exact ⟨s.commits_reject _ _ _, s.shadow_reject _ _ _, s.evLatched_reject _ _ _⟩
  constructor
  · intro h
    by_cases hprof : s.profHolds i b = true
    · exact hreject _ _ (if_pos hprof)
    · obtain ⟨⟨reason, index⟩, hrule⟩ := Option.isSome_iff_exists.mp (h.resolve_left hprof)
      refine hreject reason index ((if_neg hprof).trans ?_)
      dsimp only [cells] at hrule ⊢
      rw [hrule]
  · rintro ⟨hprof, hrule⟩
    have ht : t = s.accept b insts cells := by
      refine (if_neg (by rw [hprof]; decide)).trans ?_
      dsimp only [cells] at hrule ⊢
      rw [hrule]
    clear_value t cells
    subst ht
    unfold State.accept
    dsimp only
    refine ⟨?_, ?_, fun a ha => ?_, ?_⟩
    · split <;> rfl
    · split <;> rfl
    · have hput := State.live_put_other s F.GLB_COMMIT_CNT_APPLIED (s.get F.GLB_COMMIT_CNT_APPLIED + 1) a ha
      split <;> exact hput
    · have hput := State.get_put_same s F.GLB_COMMIT_CNT_APPLIED 0 (s.get F.GLB_COMMIT_CNT_APPLIED + 1) (by decide) (by decide)
      split <;> exact hput

/-! ### The latch registers -/

/-- Every field of a latch register is of access code W1C, and its word meets no relation. -/
theorem latchRows : ∀ g < 8, ∃ r, regRow (F.EVC_LATCH.addr + 4 * g) = some r ∧ ∀ f ∈ r.fields, f.acc = .w1c := by
  have h : ∀ g < 8, (regRow (F.EVC_LATCH.addr + 4 * g)).map (fun r => r.fields.all (fun f => f.acc == .w1c)) = some true := by
    decide +kernel
  intro g hg
  obtain ⟨r, hr, hall⟩ := Option.map_eq_some_iff.mp (h g hg)
  exact ⟨r, hr, fun f hf => by simpa using List.all_eq_true.mp hall f hf⟩

theorem relationOk_latch {g : Nat} (hg : g < 8) (w : Word) : relationOk (F.EVC_LATCH.addr + 4 * g) w = true := by
  have hne : ∀ g < 8, F.EVC_LATCH.addr + 4 * g ≠ F.LP_WATCH_BAND.addr ∧ F.EVC_LATCH.addr + 4 * g ≠ F.FC_AUX_ADDR.addr
      ∧ F.EVC_LATCH.addr + 4 * g ≠ F.PLN_DISC.addr ∧ F.EVC_LATCH.addr + 4 * g ≠ F.SES_LEASE_CFG.addr
      ∧ ¬(0x078000 ≤ F.EVC_LATCH.addr + 4 * g ∧ F.EVC_LATCH.addr + 4 * g < 0x078B00) := by decide
  obtain ⟨h1, h2, h3, h4, h5⟩ := hne g hg
  rw [relationOk, if_neg h1, if_neg h2, if_neg h3, if_neg h4, if_neg h5]

/-- Of a register of W1C fields alone, the listed bits written 1 clear. -/
theorem liveAfterWrite_w1c {a : Nat} {r : RegRow} (hr : regRow a = some r) (hall : ∀ f ∈ r.fields, f.acc = .w1c) (old w : Word) {j : Nat}
    (hj : j < 32) : (liveAfterWrite r a old w).getLsbD j = (old.getLsbD j && !(w.getLsbD j && (r.mask .w1c).getLsbD j)) := by
  rw [RegRow.mask_getLsbD _ _ hj]
  by_cases hin : ∃ f ∈ r.fields, f.lo ≤ j ∧ j ≤ f.hi
  · obtain ⟨f, hf, hlo, hhi⟩ := hin
    have hlisted : r.fields.any (fun f => decide (f.acc = .w1c ∧ f.lo ≤ j ∧ j ≤ f.hi)) = true :=
      List.any_eq_true.mpr ⟨f, hf, decide_eq_true ⟨hall f hf, hlo, hhi⟩⟩
    rw [liveAfterWrite_getLsbD hr hf hlo hhi, RegField.writtenBit, hall f hf, hlisted, Bool.and_true]
  · have hnone : r.fields.any (fun f => decide (f.acc = .w1c ∧ f.lo ≤ j ∧ j ≤ f.hi)) = false :=
      List.any_eq_false.mpr fun f hf h => hin ⟨f, hf, (of_decide_eq_true h).2⟩
    rw [hnone, Bool.and_false, Bool.not_false, Bool.and_true]
    refine foldl_written_getLsbD_other a w hj old fun f hf => ⟨(fieldsApart_of_regRow hr).1 f hf, ?_⟩
    have : ¬(f.lo ≤ j ∧ j ≤ f.hi) := fun h => hin ⟨f, hf, h⟩
    omega

/-- The latches of the register's own sources are the bits of the word written, the others lie in other words. -/
theorem State.evLatched_latchWrite (u : State) {g : Nat} (hg : g < 8) {r : RegRow} (hr : regRow (F.EVC_LATCH.addr + 4 * g) = some r)
    (hall : ∀ f ∈ r.fields, f.acc = .w1c) (w : Word) (e : Nat) :
    (u.fieldWrite (F.EVC_LATCH.addr + 4 * g) w).evLatched e =
      (u.evLatched e && !(decide (e / 32 = g) && w.getLsbD (e % 32) && (r.mask .w1c).getLsbD (e % 32))) := by
  unfold State.evLatched
  rw [show (0x010000 : Nat) = F.EVC_LATCH.addr from rfl]
  by_cases hown : e / 32 = g
  · rw [decide_eq_true hown, Bool.true_and, hown, State.live_fieldWrite hr, if_pos (relationOk_latch hg _)]
    exact liveAfterWrite_w1c hr hall _ w (Nat.mod_lt _ (by decide))
  · rw [decide_eq_false hown, State.live_fieldWrite_other hr _ _ (by omega)]
    simp

theorem State.RegsAndShadowsOnly.field {β : Type} {s t : State} (h : s.RegsAndShadowsOnly t) (p : State → β)
    (hp : ∀ (u : State) r sh, p { u with regs := r, shadow := sh } = p u) : p t = p s := by
  obtain ⟨r, sh, rfl⟩ := h
  exact hp s r sh

/-- Settles O46: the register lists the fields of its row, and a write of it changes no queue and no log. -/
theorem latchWriteClears : Obligations.LatchWriteClears := by
  intro s i g w a u listed
  obtain ⟨r, hr, hall⟩ := latchRows g.val g.isLt
  have hlisted : listed = r.mask .w1c := congrArg (fun o : Option RegRow => (o.map (fun r => r.mask .w1c)).getD 0) hr
  have honly : u.RegsAndShadowsOnly (u.fieldWrite a w) := State.regsAndShadowsOnly_fieldWrite hr u w
  refine ⟨_, rfl, fun e he => (State.evLatched_settle _ he).trans ?_, (State.answered_field _ _ State.outq fun _ _ _ => rfl).trans ?_,
    (State.answered_field _ _ State.log fun _ _ _ => rfl).trans ?_⟩
  · rw [hlisted]
    exact u.evLatched_latchWrite g.isLt hr hall w e
  · exact honly.field State.outq fun _ _ _ => rfl
  · exact honly.field State.log fun _ _ _ => rfl

/-! ### The profile command -/

/-- A profile switch runs at priority 0, whichever priority it is asked with (R454). -/
theorem State.jobRequest_profile (s : State) {prio : Nat} (h : prio = 1 ∨ prio = 2) (origin cmdId : Nat) (p : List Nat) :
    s.jobRequest 7 prio origin cmdId p = s.jobRequest 7 1 origin cmdId p := by
  rcases h with rfl | rfl <;> rfl

/-- A request that is answered with a slot has started its job there. -/
theorem State.jobRequest_eq_some {s : State} {kind prio origin cmdId k : Nat} {p : List Nat}
    (h : (s.jobRequest kind prio origin cmdId p).2.1 = some k) :
    ∃ t, s.jobStart kind (if kind = 7 then 0 else prio) origin cmdId p (s.jobSteps kind p) false = (t, some k)
      ∧ s.jobRequest kind prio origin cmdId p = (t, some k, 1) := by
  unfold State.jobRequest at h ⊢
  split at h
  · cases h
  next hok =>
    split at h
    · cases h
    next hfree =>
      split at h
      · cases h
      next hmode =>
        split at h
        next t n hstart =>
          obtain rfl : n = k := by simpa using h
          exact ⟨t, hstart, by rw [if_neg hok, if_neg hfree, if_neg hmode]⟩
        · cases h

theorem State.jobRequest_profile_prio {s : State} {origin cmdId k : Nat} {p : List Nat} (horigin : origin < 8) (hid : cmdId < 2 ^ 32)
    (h : (s.jobRequest 7 1 origin cmdId p).2.1 = some k) :
    (s.jobRequest 7 1 origin cmdId p).1.get F.BLY_SLOT_STAT_PRIORITY (blyO k) = 0 := by
  obtain ⟨t, hstart, hdone⟩ := State.jobRequest_eq_some h
  obtain ⟨-, -, -, -, -, hprio, -⟩ := jobTakesLowestFreeSlot s 7 0 origin cmdId p _ false t k (by decide) (by decide) horigin hid
    (Nat.two_pow_pos 32) hstart
  rw [hdone]
  exact hprio

/-- Settles O50: both commands make the same request of the state in which their own write is noted. -/
theorem profileCommandIsBlyStart : Obligations.ProfileCommandIsBlyStart := by
  intro s i w wb hgo hstart hkind hprio shown v
  refine ⟨?_, fun hparams => ?_, fun k => State.jobRequest_profile_prio (by cases i <;> decide) (by decide)⟩
  · refine State.goes_of_next rfl (congrArg _ ?_)
    rw [State.profileCmd, if_neg (by rw [hgo]; decide)]
  · refine State.goes_past_guard rfl ?_ (by rw [hstart]; decide)
    dsimp only
    rw [hkind, hparams, State.jobRequest_profile _ hprio]

end Sys2Proof.Machine
end

section
/-! PROOF SUPPORT. What a PIN or a SOFT reset keeps (R443, R508, R511). -/
namespace Sys2Proof.Machine
open Sys2Proof

/-- The registers reset, with the words of `l` as they stand in `s`. -/
theorem State.regsOnly_keep (s c : State) (l : List Nat) : c.RegsOnly (l.foldl (fun (c : State) a => c.setLive a (s.live a)) c) := by
  induction l generalizing c with
  | nil => exact ⟨c.regs, rfl⟩
  | cons b l ih => exact (c.regsOnly_setLive _ _).trans (ih _)

theorem State.live_keep (s c : State) (l : List Nat) (a : Nat) :
    (l.foldl (fun (c : State) a => c.setLive a (s.live a)) c).live a = if a ∈ l then s.live a else c.live a := by
  induction l generalizing c with
  | nil => rfl
  | cons b l ih =>
    rw [List.foldl_cons, ih]
    by_cases hl : a ∈ l
    · rw [if_pos hl, if_pos (List.mem_cons_of_mem _ hl)]
    · by_cases hb : a = b
      · subst hb
        rw [if_neg hl, if_pos List.mem_cons_self, State.live_setLive]
      · rw [if_neg hl, if_neg (by simp [hl, hb]), State.live_setLive_other _ _ _ _ hb]

/-- What a warm reset keeps beside the kept registers: the time base, the log and the Vault (R443). -/
def State.warmKept (s : State) : State :=
  { s.cold with
    tick := s.tick, log := s.log, protArmed := s.protArmed, nearArmed := s.nearArmed, vaultFaults := s.vaultFaults
    vault := if s.bightOpen = 0 then s.cold.vault else vaultStore s.cold.vault 0x100110 (le (s.vaultNum 0x100110 8 + s.bightOpen) 8) }

/-- The state of a warm reset before its cause is recorded. -/
def State.warmStart (s : State) : State :=
  ((keptRegs.foldl (fun (c : State) a => c.setLive a (s.live a)) s.warmKept).onMac
    (fun m => { m with foreign := s.foreignKept s.tick })).onUp
      (fun u => { u with goodAt := s.up.goodAt, perst := s.up.perst, frac := s.up.frac })

theorem State.live_warmStart (s : State) (a : Nat) : s.warmStart.live a = if a ∈ keptRegs then s.live a else resetWord a := by
  have hregs : s.warmStart.regs = (keptRegs.foldl (fun (c : State) a => c.setLive a (s.live a)) s.warmKept).regs := rfl
  have hreset : s.warmKept.live a = resetWord a := rfl
  rw [State.live, hregs, ← State.live, State.live_keep, hreset]

theorem State.warmStart_only (s : State) : ∃ r m u, s.warmStart = { s.warmKept with regs := r, mac := m, up := u } := by
  obtain ⟨r, hr⟩ := State.regsOnly_keep s s.warmKept keptRegs
  unfold State.warmStart
  rw [hr]
  exact ⟨_, _, _, rfl⟩

section
variable (s : State) (cause : Nat)

theorem State.warm_eq : s.warm cause = (s.warmStart.put F.PWR_RESET_CAUSE_CAUSE 0 cause).put F.PWR_RESET_CAUSE_WARM_RESETS 0
    (min 65535 (s.get F.PWR_RESET_CAUSE_WARM_RESETS + 1)) := rfl

theorem State.warm_only : ∃ r m u, s.warm cause = { s.warmKept with regs := r, mac := m, up := u } := by
  obtain ⟨r, m, u, h⟩ := s.warmStart_only
  rw [s.warm_eq, h]
  exact ⟨_, _, _, rfl⟩

/-- A part of the state that is no register, nor of MAC or start-up, is what the reset kept of it. -/
theorem State.warm_field {β : Type} (p : State → β) (hp : ∀ (u : State) r m x, p { u with regs := r, mac := m, up := x } = p u) :
    p (s.warm cause) = p s.warmKept := by
  obtain ⟨r, m, u, h⟩ := s.warm_only cause
  rw [h]
  exact hp _ r m u

/-- A register reads what it read where its word is kept, and its reset word elsewhere. -/
theorem State.live_warm {a : Nat} (ha : a ≠ F.PWR_RESET_CAUSE.addr) :
    (s.warm cause).live a = if a ∈ keptRegs then s.live a else resetWord a := by
  rw [s.warm_eq, State.live_put_other _ F.PWR_RESET_CAUSE_WARM_RESETS _ _ ha, State.live_put_other _ F.PWR_RESET_CAUSE_CAUSE _ _ ha,
    s.live_warmStart]

theorem State.cause_warm : (s.warm cause).get F.PWR_RESET_CAUSE_CAUSE = cause % 4 := by
  rw [s.warm_eq, State.get_put_apart _ _ _ _ _ _ (by decide) (by decide) (by decide), State.get_put_same _ _ _ _ (by decide) (by decide)]
  rfl

theorem State.trainLate_warm : (s.warm cause).trainLate = false := by
  have hdown : (s.warm cause).cxlDown = none := s.warm_field cause State.cxlDown fun _ _ _ _ => rfl
  rw [State.trainLate, hdown, Bool.and_false]

/-- With no Vault write waiting, the reset changes the Vault's count of Bight closings alone. -/
theorem State.vaultByte_warm (hq : s.vaultq = []) {a : Nat} (ha : ¬(0x100110 ≤ a ∧ a < 0x100118)) :
    (s.warm cause).vaultByte a = s.vaultByte a := by
  rw [s.warm_field cause (fun u => u.vaultByte a) fun _ _ _ _ => rfl]
  have hcold : s.cold.vault = s.vault := by
    show s.vaultSettled = _
    rw [State.vaultSettled, hq]
  unfold State.vaultByte State.warmKept
  dsimp only
  rw [hcold]
  split
  · rfl
  · exact tget_vaultStore_outside _ _ _ _ (by simp [le]; omega)

end

/-- The words that show other state after a step, whatever the link of the store does. -/
def shownAddrs : List Nat :=
  [F.EVC_STATUS_IRQ.addr, F.PWR_DOMAIN_STAT_DECODE.addr, F.BLY_STAT_BUSY.addr, F.LOG_PROT_STAT_FULL.addr, F.HAL_STATUS_CMD_QUEUE.addr,
    F.BST_REPLACE_STAT_SERVICE.addr, F.GLB_STATUS_OWNER.addr]

/-- While no link training is late, the words of the link's state follow no other state either. -/
theorem State.live_settle_of_trained {s : State} (h : s.trainLate = false) {a : Nat} (ha : a ∉ shownAddrs) :
    s.settle.live a = s.live a := by
  simp only [shownAddrs, List.mem_cons, List.not_mem_nil, or_false, not_or] at ha
  obtain ⟨h1, h2, h3, h4, h5, h6, h7⟩ := ha
  have htrain : s.trainShow = s := if_neg (by simp [h])
  unfold State.settle
  rw [State.live_summaryShow_other _ _ h7, State.live_queueShow_other _ _ h3 h4 h5 h6, State.live_domainShow_other _ _ h2,
    State.live_eventShow_other _ _ h1, htrain]

/-- A kept word that shows no other state reads as before the reset. -/
theorem State.live_settle_warm_kept (s : State) (cause : Nat) {a : Nat} (h : a ∉ shownAddrs ∧ a ≠ F.PWR_RESET_CAUSE.addr ∧ a ∈ keptRegs) :
    (s.warm cause).settle.live a = s.live a := by
  obtain ⟨hshown, hcause, hkept⟩ := h
  rw [State.live_settle_of_trained (s.trainLate_warm cause) hshown, s.live_warm cause hcause, if_pos hkept]

theorem scratch_kept : ∀ n < 8, F.GLB_SCRATCH.addr + 4 * n ∉ shownAddrs ∧ F.GLB_SCRATCH.addr + 4 * n ≠ F.PWR_RESET_CAUSE.addr
    ∧ F.GLB_SCRATCH.addr + 4 * n ∈ keptRegs := by decide

/-- Settles O34: either command answers the warm reset of its cause. -/
theorem warmResetKeepsTimeAndLog : Obligations.WarmResetKeepsTimeAndLog := by
  intro s c cause hcase
  obtain ⟨-, -, hpin, hsoft, -⟩ := resetAndStartUpCommandsComplete
  have hgoes : s.goes c (s.warm cause) ∧ cause < 4 := by
    rcases hcase with ⟨rfl, hrun, rfl⟩ | ⟨rfl, ⟨t, hat, hdue⟩, rfl⟩
    · exact ⟨hpin s hrun, by decide⟩
    · exact ⟨hsoft s t hat hdue, by decide⟩
  obtain ⟨hgoes, hcause⟩ := hgoes
  have hfield {β : Type} (p : State → β) (hp : ∀ (u : State) r q, p { u with regs := r, pending := q } = p u)
      (hp' : ∀ (u : State) r m x, p { u with regs := r, mac := m, up := x } = p u) :
      p { (s.warm cause).settle with pending := s.pending } = p s.warmKept :=
    (State.answered_field _ _ p hp).trans (s.warm_field cause p hp')
  have hlive {a : Nat} (ha : a ∉ shownAddrs) : (s.warm cause).settle.live a = (s.warm cause).live a :=
    State.live_settle_of_trained (s.trainLate_warm cause) ha
  refine ⟨_, hgoes, hfield State.tick (fun _ _ _ => rfl) fun _ _ _ _ => rfl, hfield State.log (fun _ _ _ => rfl) fun _ _ _ _ => rfl, ?_,
    fun n hn => s.live_settle_warm_kept cause (scratch_kept n hn), fun a ha => ?_, fun a ha hk => ?_,
    hfield State.commits (fun _ _ _ => rfl) fun _ _ _ _ => rfl, hfield State.wlog (fun _ _ _ => rfl) fun _ _ _ _ => rfl,
    hfield State.jobs (fun _ _ _ => rfl) fun _ _ _ _ => rfl, hfield State.exchs (fun _ _ _ => rfl) fun _ _ _ _ => rfl,
    hfield State.own (fun _ _ _ => rfl) fun _ _ _ _ => rfl, fun hq a ha => ?_⟩
  · exact (State.get_congr (hlive (by decide))).trans ((s.cause_warm cause).trans (Nat.mod_eq_of_lt hcause))
  · rcases ha with rfl | rfl
    · exact s.live_settle_warm_kept cause (by decide)
    · exact s.live_settle_warm_kept cause (by decide)
  · refine (hlive fun h => ha ?_).trans ((s.live_warm cause fun h => ha ?_).trans (if_neg hk))
    · exact List.mem_append_left [F.PWR_RESET_CAUSE.addr] h
    · simp [h]
  · exact (State.answered_field _ _ (fun u => u.vaultByte a) fun _ _ _ => rfl).trans (s.vaultByte_warm cause hq ha)

end Sys2Proof.Machine
end
